-- ==== Sys2Proof/Word.lean ====
section
/-! DEFINITION. The plain words of the ZB4832: bytes, and the identifiers of Table 0.2 that are bounded by the
hardware itself (lines, classes, bucket frames, entry slots, fetch slots). -/

namespace Sys2Proof

/-- One byte on the host link, or one character on a line. -/
abbrev Byte := BitVec 8

/-- A line number, 0 to 47 (Table 0.2). -/
abbrev LineNo := Fin 48

/-- An admission class, 0 to 3 (Table 0.2). -/
abbrev ClassNo := Fin 4

/-- A bucket frame of the Account Cache, 0 to 95 (R76). -/
abbrev FrameNo := Fin 96

/-- An entry slot of a bucket frame, 0 to 3 (R76). -/
abbrev EntryNo := Fin 4

/-- A fetch slot, which is also the fetch tag, 0 to 3 (R82). -/
abbrev SlotNo := Fin 4

/-- A tariff band, 0 to 7 (Table 0.2). -/
abbrev BandNo := Fin 8

/-- Every line, in line-number order. -/
def allLines : List LineNo := List.finRange 48

/-- Every bucket frame, in frame-number order. -/
def allFrames : List FrameNo := List.finRange 96

end Sys2Proof
end

