-- ==== Sys2Proof/Types.lean ====
section
/-! DEFINITION. The named fields that commands carry and State stores: intervals (R1), speeds (Table 1.9), line settings
(Table 3.5), class records (Table 6.1), tariffs (Table 8.1) and the enumerations of the message bodies. Numbers are plain
naturals or integers wide enough for a value outside the stated range, since R10 gives such a request its own outcome. -/

namespace Sys2Proof

/-- The unit of an interval (R1). -/
inductive TimeUnit where
  | seconds
  | minutes
  deriving DecidableEq, Repr, Inhabited

/-- An interval: a count of 0 to 63 and a unit (R1). -/
structure Interval where
  count : Nat
  unit : TimeUnit
  deriving DecidableEq, Repr, Inhabited

/-- A rise of one of a line's input pins, with the level of the line's receive data at that moment: at the start of a
measurement a line whose data is low waits for a high first (R38). -/
structure LineRise where
  line : LineNo
  dataLow : Bool
  deriving DecidableEq, Repr, Inhabited

/-- A speed (Table 1.9). -/
inductive Speed where
  | b110 | b150 | b300 | b600 | b1200 | b2400 | b4800 | b9600
  deriving DecidableEq, Repr, Inhabited

/-- A speed class (Table 1.9). -/
inductive SpeedClass where
  | s | m | f
  deriving DecidableEq, Repr, Inhabited

/-- A line group (Table 3.5, field 0). -/
inductive Group where
  | a | b | c | d
  deriving DecidableEq, Repr, Inhabited

/-- A character format (R41). -/
inductive DataFormat where
  | even7 | odd7 | mark7 | space7 | none8
  deriving DecidableEq, Repr, Inhabited

/-- The number of stop bits (R41). -/
inductive StopBits where
  | one | two
  deriving DecidableEq, Repr, Inhabited

/-- What a line does after a host close (R168). -/
inductive AfterClose where
  | drop | resign
  deriving DecidableEq, Repr, Inhabited

/-- The settings that a call copies at its creation: those of Table 3.5 but for answer-after and answer wait (R52). `speed` is
`none` for AUTO. -/
structure CallSettings where
  group : Group
  speed : Option Speed
  format : DataFormat
  stopBits : StopBits
  speedWait : Interval
  holdover : Interval
  forwardCount : Nat
  forwardChars : Vector Byte 4
  forwardSize : Nat
  batchGap : Nat
  flowControl : Bool
  attentionFlush : Bool
  afterClose : AfterClose
  deriving DecidableEq, Repr

/-- The settings of a line, Table 3.5 (R51): those that a call copies, and the two that are read before a call exists. -/
structure LineSettings extends CallSettings where
  answerAfter : Nat
  answerWait : Interval
  deriving DecidableEq, Repr

/-- The group of an admission class (Table 6.1, field 1). -/
inductive ClassGroup where
  | high | low
  deriving DecidableEq, Repr, Inhabited

/-- One record of the class table, fields 1 to 10 of Table 6.1 (R98). -/
structure ClassRecord where
  group : ClassGroup
  queueLimit : Nat
  queueWait : Interval
  announce : Interval
  fee : Nat
  rateAdjust : Int
  warningLevel : Nat
  allowanceGrace : Interval
  hoursGrace : Interval
  idleLimit : Interval
  deriving DecidableEq, Repr

/-- The part-step rule (Table 8.1, field 16). -/
inductive PartStep where
  | full | actual | free
  deriving DecidableEq, Repr, Inhabited

/-- The end rounding (Table 8.1, field 17). -/
inductive EndRounding where
  | down | nearest | up
  deriving DecidableEq, Repr, Inhabited

/-- The activation kind (Table 8.1, field 18): NONE, or AT a day and minute. -/
inductive Activation where
  | untimed | timed
  deriving DecidableEq, Repr, Inhabited

/-- A tariff, the fields of Table 8.1 in order (R139). -/
structure Tariff where
  bandCount : Nat
  starts : Vector Nat 8
  rates : Vector Nat 8
  multS : Nat
  multM : Nat
  multF : Nat
  tier1 : Nat
  tier2 : Nat
  factor0 : Nat
  factor1 : Nat
  factor2 : Nat
  floor : Nat
  floorOn : Bool
  ceiling : Nat
  ceilingOn : Bool
  stepLength : Nat
  partStep : PartStep
  rounding : EndRounding
  activation : Activation
  actDay : Nat
  actMinute : Nat
  deriving DecidableEq, Repr, Inhabited

/-- The mode of SERVICE CLOSE (R182). -/
inductive CloseMode where
  | finish | endCalls
  deriving DecidableEq, Repr, Inhabited

/-- The mode of RESTART (R183). -/
inductive RestartMode where
  | normal | forced
  deriving DecidableEq, Repr, Inhabited

/-- The mode of LINE DISABLE (R54). -/
inductive DisableMode where
  | now | afterCall
  deriving DecidableEq, Repr, Inhabited

/-- The reason of OPEN REFUSE (R111). -/
inductive RefuseReason where
  | full | denied
  deriving DecidableEq, Repr, Inhabited

/-- The eight fault kinds (R184). -/
inductive FaultKind where
  | linkFrame | inboundOverrun | malformed | creditExceeded
  | directoryTimeout | openTimeout | storeFull | capacityLowered
  deriving DecidableEq, Repr, Inhabited

end Sys2Proof
end

