-- ==== Sys2Proof/Syntax.lean ====
section
/-! DEFINITION. The commands of the ZB4832: one constructor for each row of spec/opcode_table.json. The table names no operands;
those given here are what the named event brings with it. A take of a host message (R7) finds code, line tag and call
number in the frame at the head of the inbound queue, and carries the named fields of the body where the spec gives no
byte layout for them (log entry 1). -/

namespace Sys2Proof

/-- One command to the part: one row of spec/opcode_table.json. -/
inductive Instr where
  /-- POWER_ON (R16): release of the power-on reset. -/
  | powerOn
  /-- INBOUND_FRAME_END (R5): the fall of inbound frame-enable after the bytes strobed. -/
  | inboundFrameEnd (bytes : List Byte)
  /-- FRAME_MALFORMED (R8): the take of a malformed frame. -/
  | frameMalformed
  /-- SERVICE_OPEN (R181). -/
  | serviceOpen
  /-- SERVICE_CLOSE (R182). -/
  | serviceClose (mode : CloseMode)
  /-- RESTART (R183). -/
  | restart (mode : RestartMode)
  /-- STATUS_QUERY (R186): `clear` is the clear-counters flag. -/
  | statusQuery (clear : Bool)
  /-- LINE_QUERY (R187). -/
  | lineQuery
  /-- SURVEY_SET (R188). -/
  | surveySet (lines : List LineNo) (period : Interval)
  /-- FAULT_CLEAR (R185). -/
  | faultClear
  /-- FAULT_TEST (R185). -/
  | faultTest (kind : FaultKind)
  /-- FAULT_MASK (R185). -/
  | faultMask (kinds : List FaultKind)
  /-- AUDIT_CLEAR (R179). -/
  | auditClear
  /-- LINE_SET (R51). -/
  | lineSet (settings : LineSettings)
  /-- LINE_ENABLE (R53). -/
  | lineEnable
  /-- LINE_DISABLE (R54). -/
  | lineDisable (mode : DisableMode)
  /-- LINES_FITTED (R32). -/
  | linesFitted (n : Nat)
  /-- TEXT_LOAD (R58): the body's bytes are the operands. -/
  | textLoad
  /-- DIALOGUE_SET (R74). -/
  | dialogueSet (attemptLimit : Nat) (fieldTimeout drainLimit : Interval)
  /-- DIRECTORY_SET (R95). -/
  | directorySet (size : Nat) (wait : Interval)
  /-- BUCKET_DATA (R85): the body's bytes are the operands. -/
  | bucketData
  /-- BUCKET_INVALIDATE (R92). -/
  | bucketInvalidate (bucket : Nat)
  /-- ALLOWANCE_ADJUST (R93). -/
  | allowanceAdjust (bucket account : Nat) (delta : Int)
  /-- ACCOUNT_SUSPEND (R94). -/
  | accountSuspend (bucket account : Nat)
  /-- CAPACITY_SET (R100). -/
  | capacitySet (capacity reserve : Nat) (openWait : Interval)
  /-- CLASS_SET (R99). -/
  | classSet (cls : Nat) (fields : ClassRecord)
  /-- OPEN_ACCEPT (R110, R115). -/
  | openAccept
  /-- OPEN_REFUSE (R111, R112, R116). -/
  | openRefuse (reason : RefuseReason)
  /-- HOST_DATA (R125): the body's bytes are the operands. -/
  | hostData
  /-- HOST_CLOSE (R133). -/
  | hostClose
  /-- CLOCK_SET (R138). -/
  | clockSet (day hour minute second : Nat)
  /-- TARIFF_LOAD (R140). -/
  | tariffLoad (tariff : Tariff)
  /-- TARIFF_SWITCH (R141). -/
  | tariffSwitch
  /-- WINDOW_SET (R145): the two masks as the bytes that carry them. -/
  | windowSet (window : Nat) (dayMask : Byte) (start length : Nat) (classMask : Byte)
  /-- BILL_READ (R177). -/
  | billRead (index : Nat)
  /-- BILL_RELEASE (R178). -/
  | billRelease (number : Nat)
  /-- TRANSMISSION_START (R12): `requestFirst` says which of the two claims of R14 on a freed priority place is taken first. -/
  | transmissionStart (requestFirst : Bool)
  /-- FRAME_TRANSMITTED (R12). -/
  | frameTransmitted
  /-- RING (R34): a rise of ring-indicate, which can take the line through ANSWER to SPEED (R36, R38). -/
  | ring (rise : LineRise)
  /-- RING_GAP_EXPIRY (R35). -/
  | ringGapExpiry (line : LineNo)
  /-- CARRIER_ARRIVAL (R36): a rise of carrier-detect, with the level of receive data at that moment (R38). -/
  | carrierArrival (line : LineNo) (dataLow : Bool)
  /-- ANSWER_WAIT_EXPIRY (R37). -/
  | answerWaitExpiry (line : LineNo)
  /-- WIDTH_MEASURED (R39): the width counter's value at the rise, 0 to 4095. -/
  | widthMeasured (line : LineNo) (width : Fin 4096)
  /-- WIDTH_COUNTER_OVERFLOW (R38). -/
  | widthCounterOverflow (line : LineNo)
  /-- SPEED_WAIT_EXPIRY (R40). -/
  | speedWaitExpiry (line : LineNo)
  /-- RECEIVED_CHARACTER (R41): the data bits sampled, the parity bit (unused with 8 data bits) and the first stop bit. -/
  | receivedCharacter (line : LineNo) (bits : Byte) (parity stop : Bool)
  /-- ZERO_CHARACTER_ENDED (R43). -/
  | zeroCharacterEnded (line : LineNo)
  /-- BREAK (R43). -/
  | breakSeen (line : LineNo)
  /-- TRANSMITTER_FREE (R127). -/
  | transmitterFree (line : LineNo)
  /-- CARRIER_LOSS (R49). -/
  | carrierLoss (line : LineNo)
  /-- CARRIER_RETURN (R47): a rise of carrier-detect. -/
  | carrierReturn (rise : LineRise)
  /-- HOLDOVER_EXPIRY (R48). -/
  | holdoverExpiry (line : LineNo)
  /-- DROP_GUARD_PASSED (R50). -/
  | dropGuardPassed (line : LineNo)
  /-- FIELD_TIMER_EXPIRY (R66). -/
  | fieldTimerExpiry (line : LineNo)
  /-- DIRECTORY_WAIT_EXPIRY (R91). -/
  | directoryWaitExpiry (slot : SlotNo)
  /-- QUEUE_WAIT_EXPIRY (R104). -/
  | queueWaitExpiry (line : LineNo)
  /-- ANNOUNCEMENT_TIMER_EXPIRY (R105). -/
  | announcementTimerExpiry (line : LineNo)
  /-- OPEN_WAIT_EXPIRY (R113, R117). -/
  | openWaitExpiry (line : LineNo)
  /-- BATCH_GAP_EXPIRY (R121). -/
  | batchGapExpiry (line : LineNo)
  /-- ONE_SECOND_EVENT (R137 and every interval timer, R1). -/
  | oneSecondEvent
  /-- MINUTE_CHANGE (R137). -/
  | minuteChange
  /-- STEP_COMPLETION (R153). -/
  | stepCompletion (line : LineNo)
  /-- DEADLINE_EXPIRY (R26). -/
  | deadlineExpiry (line : LineNo)
  /-- IDLE_TIMER_EXPIRY (R28). -/
  | idleTimerExpiry (line : LineNo)
  /-- DRAIN_LIMIT_EXPIRY (R167). -/
  | drainLimitExpiry (line : LineNo)
  /-- SURVEY_TIMER_EXPIRY (R188). -/
  | surveyTimerExpiry
  /-- INBOUND_FRAME_START (R6): a rise of inbound frame-enable. -/
  | inboundFrameStart
  /-- OUTBOUND_HOLD_CHANGE (R12): the level the host drives. -/
  | outboundHoldChange (asserted : Bool)
  /-- RECEIVE_DATA_RISE (R38, R43). -/
  | receiveDataRise (line : LineNo)
  deriving DecidableEq, Repr

end Sys2Proof
end

