-- ==== Sys2Proof/Decode.lean ====
section
/-! DEFINITION. The host's question 'which command does this word spell'. No row of spec/opcode_table.json gives bits: the part
takes frames, pin events and clock events, and none of them is an encoded instruction. So no word spells a command. -/

namespace Sys2Proof

/-- The command that a word spells by the table's bits: none, for every word (the table gives no row any bits). -/
def decodeTableWord (_nbits _w : Nat) : Option Instr := none

end Sys2Proof
end

