-- ==== Sys2Proof/Config.lean ====
section
/-! DEFINITION. What the hardware fixes (depths and thresholds, each with its rule) and the FREE VALUES: constants with no body,
for values the spec does not state (log entry 12). -/

namespace Sys2Proof

/-- Where a 16-bit counter stops (00_scope.md, Counters). -/
def Config.counterMax : Nat := 65535
/-- The inbound queue holds up to 8 frames (R6). -/
def Config.inboundDepth : Nat := 8
/-- The priority lane holds up to 16 frames (R11). -/
def Config.priorityDepth : Nat := 16
/-- The ordered lane holds up to 64 frames (R11). -/
def Config.orderedDepth : Nat := 64
/-- The ordered lane is congested while it holds this many frames or more (R13). -/
def Config.congestedAt : Nat := 48
/-- The transmit buffer holds 256 characters (R59, R126). -/
def Config.transmitDepth : Nat := 256
/-- The batch buffer holds 64 characters (R120). -/
def Config.batchDepth : Nat := 64
/-- The batch fill at which the terminal is held off (R124). -/
def Config.flowThreshold : Nat := 48
/-- The least amount of a CREDIT (R126). -/
def Config.creditLeast : Nat := 64
/-- The notice-text queue holds 4 texts (R130). -/
def Config.noticeDepth : Nat := 4
/-- The billing store holds 32 records (R175). -/
def Config.storeDepth : Nat := 32
/-- The ring gap, in 1-second events (R35). -/
def Config.ringGapSeconds : Nat := 8
/-- The drop guard, in 1-second events (R50). -/
def Config.dropGuardSeconds : Nat := 2
/-- The highest limited allowance (R77, R93). -/
def Config.allowanceMax : Nat := 16777214
/-- The highest queue seconds (R102). -/
def Config.queueSecondsMax : Nat := 16777215

/-- FREE VALUE: what the meter reads of a current tariff where no tariff is current, a state R150 excludes (log entry 12). -/
opaque Config.tariffWhenNone : Tariff
/-- FREE VALUE: the band a step start reads where the current band is none (log entry 12). -/
opaque Config.bandWhenNone : BandNo
/-- FREE VALUE: the speed read of a call that has none, a state Table 2.2 excludes (log entry 12). -/
opaque Config.speedWhenNone : Speed
/-- FREE VALUE: the admission class read of an attached call that has none, a state R73 excludes (log entry 12). -/
opaque Config.classWhenNone : ClassNo
/-- FREE VALUE: the account number read where the attached entry's slot is EMPTY, a state R78 excludes (log entry 12). -/
opaque Config.accountWhenNone : Nat
/-- FREE VALUE: a field of a billing record that its call lacks though R73 and R24 give it one (log entry 12). -/
opaque Config.fieldWhenNone : Nat

end Sys2Proof
end

