-- ==== Sys2Proof/Machine/State.lean ====
section
/-! DEFINITION. The state of the ZB4832: every register, buffer, queue, counter, mode and pin the spec names, as plain data, with the
queue of waiting commands; and the state after power-on. INVENTORY.md lists each field with its rule and reset value. -/

namespace Sys2Proof.Machine

/-- The conditions that stop the machine: the spec names none (its 'fault kinds' are counted and reported, R184, and the
part goes on), so no command raises one. Safe: nothing is cut short. -/
inductive Fault where
  deriving DecidableEq, Repr

/-- Why a command has no meaning here. -/
inductive Refusal where
  /-- Raised by `exec` for a command that has no meaning yet; safe (the model stops where the part goes on). No arm of
  `exec` raises it now. -/
  | notModelled (mnemonic : String)
  deriving DecidableEq, Repr

/-! ### Calls -/

/-- The eight line states (Table 3.1). -/
inductive LineState where
  | off | idle | ring | answer | speed | up | fade | drop
  deriving DecidableEq, Repr

/-- The phases of a call (Table 2.2). -/
inductive Phase where
  | speed | name | password | lookup | queued | opening | connected | ending | held
  deriving DecidableEq, Repr

/-- The end causes (Table 1.10). -/
inductive EndCause where
  | hangup | hostClose | allowance | window | hours | idle | suspended | lineDisabled | serviceEnd
  | queueTimeout | hostDenied | hostTimeout | attempts | noResponse | directoryUnavailable | refused | forcedRestart
  deriving DecidableEq, Repr

/-- A day of the week and a second of the day. -/
structure DayTime where
  day : Nat
  second : Nat
  deriving DecidableEq, Repr

/-- A flow character (R124). -/
inductive FlowChar where
  | xon | xoff
  deriving DecidableEq, Repr

/-- The meter record, Table 9.1 (R149); the idle timer stands in the call. -/
structure Meter where
  connectSecs : Nat
  stepPos : Nat
  stepLen : Nat
  stepRate : Nat
  acc : Nat
  charge : Nat
  fadeSecs : Nat
  feeCharged : Bool
  warned : Bool
  genAtConnect : Nat
  deriving DecidableEq, Repr

/-- The pending end-cause set with its deadlines, in 1-second events still to come (R25). -/
structure Pending where
  allowance : Option Nat
  window : Option Nat
  hours : Option Nat
  deriving DecidableEq, Repr

/-- The call record, Table 2.1 (R20), the carriage state of a call (R136) and what the ending work keeps (R165 to R172).
Queue membership has its home in `Adm.queues`. A timer is the number of events still to come; `some 0` is an expiry
that has come due (log entry 3). -/
structure Call where
  number : Nat
  phase : Phase
  speed : Option Speed
  attempts : Nat
  nameBuf : List Byte
  pwBuf : List Byte
  fieldTimer : Option Nat
  attach : Option (FrameNo × EntryNo)
  cls : Option ClassNo
  queueSecs : Nat
  slotHeld : Bool
  openOutstanding : Bool
  signOn : Option DayTime
  connectAt : Option DayTime
  meter : Meter
  idle : Option Nat
  queueWait : Option Nat
  announce : Option Nat
  openWait : Option Nat
  batchGap : Option Nat
  drain : Option Nat
  pend : Pending
  graceEntered : Bool
  endCause : Option EndCause
  residue : Nat
  credit : Nat
  batch : List Byte
  forwardDue : Bool
  txBuf : List Byte
  notices : List (List Byte)
  emission : List Byte
  terminalStopped : Bool
  pendingFlow : Option FlowChar
  outputPaused : Bool
  lastCR : Bool
  lineEnd : Bool
  copy : CallSettings
  closedDue : Bool
  closedSent : Bool
  released : Bool
  goodbyePending : Bool
  genAtEnd : Nat
  deriving DecidableEq, Repr

/-! ### Lines -/

/-- The fourteen per-line counters of Table 3.6 (R55). -/
structure LineCounters where
  rings : Nat
  answers : Nat
  answerFailures : Nat
  callsCreated : Nat
  autobaudFailures : Nat
  parityErrors : Nat
  framingErrors : Nat
  breaks : Nat
  overruns : Nat
  carrierLosses : Nat
  fades : Nat
  fadeReturns : Nat
  fadeExpiries : Nat
  drops : Nat
  deriving DecidableEq, Repr

/-- The five carriage counters of a line (R135). -/
structure CarriageCounters where
  termData : Nat
  hostData : Nat
  excess : Nat
  xoffSent : Nat
  attentions : Nat
  deriving DecidableEq, Repr

/-- A character as the transmitter sends it (R45): its data bits, the parity bit of a 7-bit format, and how many stop bits end
it. -/
structure SentChar where
  data : Byte
  parity : Option Bool
  stopBits : StopBits
  deriving DecidableEq, Repr

/-- One line of the Line Unit (R56), with the levels of its input pins as last known. -/
structure Line where
  st : LineState
  settings : LineSettings
  ringCount : Nat
  attempts : Nat
  lastWidth : Nat
  widthCounter : Nat
  disablePending : Bool
  ringGap : Option Nat
  answerWait : Option Nat
  speedWait : Option Nat
  holdover : Option Nat
  dropGuard : Option Nat
  carrier : Bool
  rxLow : Bool
  rxWait : Bool
  zeroHeld : Bool
  txChar : Option SentChar
  ctr : LineCounters
  car : CarriageCounters
  call : Option Call
  deriving DecidableEq, Repr

/-! ### The directory cache -/

/-- The status of an account entry that is not EMPTY (R77). -/
inductive Status where
  | opened | suspended | expired
  deriving DecidableEq, Repr

/-- An account entry: static fields, then live fields (R77). `allowance` is `none` for no limit; the user name is held
space-padded to 8 characters. -/
structure Entry where
  status : Status
  cls : ClassNo
  sessionLimit : Nat
  groups : BitVec 4
  bandMask : BitVec 8
  account : Nat
  allowance : Option Nat
  checkWord : BitVec 32
  userName : List Byte
  attached : Nat
  stored : Nat
  charged : BitVec 32
  exhausted : Bool
  warnedAtLevel : Bool
  withdrawn : Bool
  deriving DecidableEq, Repr

/-- The kind of a fetch (R82). -/
inductive FetchKind where
  | load | merge
  deriving DecidableEq, Repr

/-- The state of a bucket frame, with the fetch kind while FETCHING (Table 5.2). -/
inductive FrameState where
  | empty
  | fetching (kind : FetchKind)
  | valid
  | refreshDue
  deriving DecidableEq, Repr

/-- A bucket frame (R76); its place in the order of use stands in `Acc.order`. -/
structure Frame where
  st : FrameState
  bucket : Option Nat
  entries : Vector (Option Entry) 4
  fresh : Bool
  pins : Nat
  deriving DecidableEq, Repr

/-- A lookup: its call (line and call number), the space-padded name and the bucket (R80). -/
structure Lookup where
  line : LineNo
  call : Nat
  name : List Byte
  bucket : Nat
  deriving DecidableEq, Repr

/-- A busy fetch slot (R82). -/
structure FetchSlot where
  bucket : Nat
  frame : FrameNo
  kind : FetchKind
  waiters : List Lookup
  timer : Option Nat
  deriving DecidableEq, Repr

/-- The Account Cache (R76 to R97). -/
structure Acc where
  frames : Vector Frame 96
  order : List FrameNo
  slots : Vector (Option FetchSlot) 4
  backlog : List Lookup
  size : Nat
  wait : Interval
  lookups : Nat
  fetches : Nat
  lateFetches : Nat
  bucketErrors : Nat
  timeouts : Nat
  deriving DecidableEq, Repr

/-! ### Sign-on, admission, calendar, meter -/

/-- The part-wide state of the Sign-On Engine (R75). -/
structure Soe where
  texts : Vector (List Byte) 24
  attemptLimit : Nat
  fieldTimeout : Interval
  drainLimit : Interval
  textDrops : Nat
  deriving DecidableEq, Repr

/-- The Admission Unit (R98 to R119). -/
structure Adm where
  classes : Vector ClassRecord 4
  capacity : Nat
  reserve : Nat
  inUse : Nat
  openWait : Interval
  queues : Vector (List LineNo) 4
  upper : Fin 5
  low : ClassNo
  grants : Nat
  fullRefusals : Nat
  denials : Nat
  openTimeouts : Nat
  queueTimeouts : Nat
  deriving DecidableEq, Repr

/-- A closed window: settings and state (R144). -/
structure Window where
  dayMask : BitVec 7
  start : Nat
  length : Nat
  classMask : BitVec 4
  isOpen : Bool
  deriving DecidableEq, Repr

/-- The Calendar and Tariff Unit (R137 to R148). `waiting` is the pending tariff; `minuteDue` is the model's own (log entry 3). -/
structure Ctu where
  day : Nat
  hour : Nat
  minute : Nat
  second : Nat
  isSet : Bool
  minuteDue : Bool
  current : Option Tariff
  waiting : Option Tariff
  generation : Nat
  band : Option BandNo
  windows : Vector Window 4
  barred : BitVec 4
  switches : Nat
  bandChanges : Nat
  openings : Nat
  activations : Nat
  deriving DecidableEq, Repr

/-- The Meter Unit's counters (R163). -/
structure Mtr where
  warnings : Nat
  exhaustions : Nat
  restorations : Nat
  fadeLumps : Nat
  deriving DecidableEq, Repr

/-! ### Billing -/

/-- A billing record, the fields of Table 1.8 (R174), with the entry it pins (R78). -/
structure BillRecord where
  number : Nat
  account : Nat
  line : LineNo
  call : Nat
  speed : Option Speed
  cls : Option ClassNo
  endCause : Option EndCause
  warned : Bool
  graceEntered : Bool
  tariffChanged : Bool
  neverConnected : Bool
  signOn : Option DayTime
  connectAt : Option DayTime
  connectSecs : Nat
  queueSecs : Nat
  charge : Nat
  fadeSecs : Nat
  residue : Nat
  generation : Nat
  entry : FrameNo × EntryNo
  deriving DecidableEq, Repr

/-- The Billing Store (R175 to R180), oldest record at the head. -/
structure Bst where
  store : List BillRecord
  held : List LineNo
  nextRecord : Nat
  auditCount : BitVec 32
  auditCharge : BitVec 32
  placed : Nat
  heldCount : Nat
  deriving DecidableEq, Repr

/-! ### Service and faults -/

/-- The service state, with the closing mode while CLOSING (R181, R182). -/
inductive ServiceState where
  | halted
  | opened
  | closing (mode : CloseMode)
  deriving DecidableEq, Repr

/-- The fields of a FULL fault record (R184). -/
structure FaultRecord where
  kind : FaultKind
  line : Option LineNo
  call : Option Nat
  detail : Nat
  test : Bool
  time : Option DayTime
  deriving DecidableEq, Repr

/-- The Service and Fault Unit (R181 to R188). Masks and fault counters are indexed by `faultIndex`. -/
structure Sfu where
  service : ServiceState
  record : Option FaultRecord
  further : Bool
  mask : Vector Bool 8
  faults : Vector Nat 8
  surveyLines : List LineNo
  surveyPeriod : Interval
  surveyTimer : Option Nat
  deriving DecidableEq, Repr

/-! ### Messages to the host -/

/-- Why a request is REFUSED (R9). -/
inductive Reason where
  | notReady | badValue | state | notCached | notFound | noLine
  deriving DecidableEq, Repr

/-- The outcome BUCKET INVALIDATE reports (Table 5.4). -/
inductive InvalidateOutcome where
  | notCached | fetching | freed | refreshDue
  deriving DecidableEq, Repr

/-- What a FAULT TEST did (R185). -/
inductive TestOutcome where
  | filled | further | masked
  deriving DecidableEq, Repr

/-- One item of the call list of a RESTART FORCED (R30). -/
structure CallListItem where
  line : LineNo
  call : Nat
  phase : Phase
  cause : EndCause
  deriving DecidableEq, Repr

/-- The remaining counts of the running timers in a call record summary (R187). -/
structure TimerSummary where
  queueWait : Option Nat
  announce : Option Nat
  openWait : Option Nat
  drain : Option Nat
  deriving DecidableEq, Repr

/-- The carriage state in a call record summary (R135). -/
structure CarriageSummary where
  batchFill : Nat
  transmitFill : Nat
  credit : Nat
  notices : Nat
  terminalStopped : Bool
  pendingFlow : Option FlowChar
  outputPaused : Bool
  lastCR : Bool
  forwardPlace : Option Nat
  deriving DecidableEq, Repr

/-- The call record summary of LINE QUERY (R187). `queuePlace` is the class and position of a queued call. -/
structure CallSummary where
  number : Nat
  phase : Phase
  speed : Option Speed
  endCause : Option EndCause
  nameBuf : List Byte
  attempts : Nat
  attach : Option (FrameNo × EntryNo)
  cls : Option ClassNo
  queuePlace : Option (ClassNo × Nat)
  queueSecs : Nat
  slotHeld : Bool
  openOutstanding : Bool
  timers : TimerSummary
  signOn : Option DayTime
  connectAt : Option DayTime
  pend : Pending
  graceEntered : Bool
  meter : Meter
  idle : Option Nat
  carriage : CarriageSummary
  copy : CallSettings
  deriving DecidableEq, Repr

/-- The detail of a LINE QUERY reply (R187). -/
structure LineReport where
  st : LineState
  disablePending : Bool
  fitted : Bool
  ringCount : Nat
  attempts : Nat
  lastWidth : Nat
  settings : LineSettings
  ctr : LineCounters
  car : CarriageCounters
  call : Option CallSummary
  deriving DecidableEq, Repr

/-- The part-wide counters of a STATUS QUERY reply (R186). -/
structure CounterReport where
  linkFrames : Nat
  overruns : Nat
  formatErrors : Nat
  framesTaken : Nat
  congestions : Nat
  lookups : Nat
  fetches : Nat
  lateFetches : Nat
  bucketErrors : Nat
  fetchTimeouts : Nat
  grants : Nat
  fullRefusals : Nat
  denials : Nat
  openTimeouts : Nat
  queueTimeouts : Nat
  switches : Nat
  bandChanges : Nat
  openings : Nat
  activations : Nat
  warnings : Nat
  exhaustions : Nat
  restorations : Nat
  fadeLumps : Nat
  placed : Nat
  heldCount : Nat
  stale : Nat
  textDrops : Nat
  faults : Vector Nat 8
  parityErrors : Nat
  framingErrors : Nat
  receiveOverruns : Nat
  fadeExpiries : Nat
  excess : Nat
  deriving DecidableEq, Repr

/-- The detail of a STATUS QUERY reply (R186). -/
structure StatusReport where
  service : ServiceState
  linesInState : Vector Nat 8
  fitted : Nat
  queued : Vector Nat 4
  capacity : Nat
  reserve : Nat
  inUse : Nat
  pinnedFrames : Nat
  busySlots : Nat
  backlog : Nat
  size : Nat
  storeCount : Nat
  heldOrder : Nat
  nextRecord : Nat
  auditCount : BitVec 32
  auditCharge : BitVec 32
  generation : Nat
  pendingTariff : Option (Activation × Nat × Nat)
  band : Option BandNo
  windowsOpen : Vector Bool 4
  barred : BitVec 4
  clock : DayTime
  clockSet : Bool
  inbound : Nat
  priority : Nat
  ordered : Nat
  priorityWait : Nat
  orderedWait : Nat
  forwardWaiting : Nat
  faultFull : Bool
  mask : Vector Bool 8
  counters : CounterReport
  deriving DecidableEq, Repr

/-- The detail of a REPLY, fixed per request by its chapter (R9). -/
inductive Detail where
  | none
  /-- The index of the first bad field (R10). -/
  | index (n : Nat)
  /-- A count: calls ended (R32, R94) or grants made (R99, R100). -/
  | count (n : Nat)
  /-- The conditions of SERVICE OPEN that failed (R181). -/
  | notReady (clock tariff directory : Bool)
  | service (state : ServiceState)
  | closed (ended : Nat) (state : ServiceState)
  | restarted (calls records : Nat) (list : List CallListItem)
  | status (report : StatusReport)
  | line (report : LineReport)
  | faultRecord (record : Option FaultRecord) (further : Bool)
  | faultTest (outcome : TestOutcome)
  | audit (count charge : BitVec 32)
  | lineState (state : LineState)
  | invalidated (outcome : InvalidateOutcome)
  /-- The allowance (`none` for no limit) and the remaining allowance after an adjust (R93). -/
  | adjusted (allowance : Option Nat) (remaining : Int)
  | clock (band : Option BandNo) (barred : BitVec 4)
  | replaced (earlier : Bool)
  | generation (n : Nat)
  | window (isOpen : Bool) (barred : BitVec 4)
  | record (bytes : List Byte)
  | released (removed placed : Nat)
  deriving DecidableEq, Repr

/-- The status of a REPLY (R9). -/
inductive Answer where
  | done (detail : Detail)
  | refused (reason : Reason) (detail : Detail)
  | format
  deriving DecidableEq, Repr

/-- The reason of a SIGN-ON FAILED (Table 4.5). -/
inductive SignOnReason where
  | unknown | password | suspended | line | window | band | sessions | allowance | accounting | noPort
  deriving DecidableEq, Repr

/-- One item of a SURVEY REPORT (R188). -/
structure SurveyItem where
  line : LineNo
  st : LineState
  phase : Option Phase
  speed : Option Speed
  call : Nat
  deriving DecidableEq, Repr

/-- The body of a message to the host (Table 1.3). -/
inductive OutMsg where
  | reply (request : Nat) (answer : Answer)
  | bucketFetch (tag : SlotNo) (bucket : Nat)
  | openRequest (account : Nat) (cls : Option ClassNo) (speed : Speed)
  | closed (cause : Option EndCause) (charge : Nat)
  | credit (amount : Nat)
  | attention
  | termData (chars : List Byte)
  | signOnFailed (name : List Byte) (account : Nat) (reason : SignOnReason) (attempts : Nat) (cause : Option EndCause)
  | billRecord (record : BillRecord)
  | faultNotice (record : FaultRecord)
  | surveyReport (items : List SurveyItem)
  | serviceNotice (mode : CloseMode)
  deriving DecidableEq, Repr

/-- A frame to the host: line tag (255 for none), call number (0 for none) and message (R3). -/
structure OutFrame where
  tag : Nat
  call : Nat
  msg : OutMsg
  deriving DecidableEq, Repr

/-- A frame from the host that passed the link checks: header and body (R3, R5). -/
structure InFrame where
  code : Nat
  tag : Nat
  call : Nat
  body : List Byte
  deriving DecidableEq, Repr

/-- The inbound receiver's condition (R5, R6, R16). -/
inductive Receiver where
  | idle
  | receiving
  | overrun
  | ignoring
  deriving DecidableEq, Repr

/-- The Host Link Interface (R5 to R17). `tx` pairs the frame in transmission with whether its completion still has an
effect (false after a RESTART, R17). -/
structure Hli where
  inQueue : List InFrame
  rx : Receiver
  prio : List OutFrame
  ord : List OutFrame
  prioWait : List OutFrame
  ordWait : List OutFrame
  tx : Option (OutFrame × Bool)
  outHold : Bool
  linkFrames : Nat
  overruns : Nat
  formatErrors : Nat
  framesTaken : Nat
  congestions : Nat
  deriving DecidableEq, Repr

/-- The whole state of the part and the queue of waiting commands, first in, first out. -/
structure State where
  pending : List Instr
  hli : Hli
  fitted : Nat
  lines : Vector Line 48
  nextCall : Nat
  stale : Nat
  soe : Soe
  acc : Acc
  adm : Adm
  forwardWait : List LineNo
  ctu : Ctu
  mtr : Mtr
  bst : Bst
  sfu : Sfu
  deriving DecidableEq, Repr

/-! ### Values after power-on -/

/-- The power-on line settings (Table 3.5). The three forwarding-character values beyond the count of 1 are 00h, a DESIGN CHOICE
(log entry 38). -/
def LineSettings.powerOn : LineSettings :=
  { group := .a, answerAfter := 2, speed := none, format := .even7, stopBits := .one
    answerWait := ⟨30, .seconds⟩, speedWait := ⟨30, .seconds⟩, holdover := ⟨10, .seconds⟩
    forwardCount := 1, forwardChars := ⟨#[0x0D, 0, 0, 0], rfl⟩, forwardSize := 64, batchGap := 2
    flowControl := true, attentionFlush := false, afterClose := .resign }

/-- All fourteen line counters at 0 (R55). -/
def LineCounters.zero : LineCounters := ⟨0, 0, 0, 0, 0, 0, 0, 0, 0, 0, 0, 0, 0, 0⟩

/-- All five carriage counters at 0 (R135). -/
def CarriageCounters.zero : CarriageCounters := ⟨0, 0, 0, 0, 0⟩

/-- A line after power-on, given the levels of its input pins (R56). -/
def Line.powerOn (carrier rxLow : Bool) : Line :=
  { st := .idle, settings := LineSettings.powerOn, ringCount := 0, attempts := 0, lastWidth := 0, widthCounter := 0
    disablePending := false, ringGap := none, answerWait := none, speedWait := none, holdover := none, dropGuard := none
    carrier := carrier, rxLow := rxLow, rxWait := false, zeroHeld := false, txChar := none
    ctr := LineCounters.zero, car := CarriageCounters.zero, call := none }

/-- The characters of an ASCII text. -/
def ascii (t : String) : List Byte := t.toList.map fun c => BitVec.ofNat 8 c.toNat

/-- The default texts (Table 4.1). -/
def Soe.defaultTexts : Vector (List Byte) 24 :=
  ⟨#[ascii "", ascii "USER: ", ascii "PASSWORD: ", ascii "INVALID", ascii "ACCOUNT SUSPENDED", ascii "NOT PERMITTED NOW",
     ascii "ALLOWANCE EXHAUSTED", ascii "ALREADY SIGNED ON", ascii "NO PORT AVAILABLE", ascii "QUEUE POSITION #",
     ascii "CONNECTED", ascii "ALLOWANCE LOW", ascii "ALLOWANCE GONE, # MIN", ascii "SERVICE CLOSING, # MIN",
     ascii "GOODBYE", ascii "DIRECTORY UNAVAILABLE", ascii "ACCOUNTING UNAVAILABLE", ascii "HOST NOT RESPONDING",
     ascii "ACCESS DENIED BY HOST", ascii "ALLOWANCE RESTORED", ascii "IDLE LIMIT", ascii "LINE NOT PERMITTED",
     ascii "SERVICE NOT READY", ascii "TRY LATER"], rfl⟩

/-- The Sign-On Engine after power-on (R75). -/
def Soe.powerOn : Soe :=
  { texts := Soe.defaultTexts, attemptLimit := 3, fieldTimeout := ⟨60, .seconds⟩, drainLimit := ⟨30, .seconds⟩
    textDrops := 0 }

/-- An EMPTY bucket frame (R97). -/
def Frame.empty : Frame :=
  { st := .empty, bucket := none, entries := Vector.replicate 4 none, fresh := false, pins := 0 }

/-- The Account Cache after power-on (R97). -/
def Acc.powerOn : Acc :=
  { frames := Vector.replicate 96 Frame.empty, order := allFrames, slots := Vector.replicate 4 none, backlog := []
    size := 0, wait := ⟨5, .seconds⟩, lookups := 0, fetches := 0, lateFetches := 0, bucketErrors := 0, timeouts := 0 }

/-- A class record after power-on, given its group (Table 6.1). The idle limit's power-on value is a bare 0: that its unit is the
second is a DESIGN CHOICE (log entry 34). -/
def ClassRecord.powerOn (group : ClassGroup) : ClassRecord :=
  { group := group, queueLimit := 48, queueWait := ⟨30, .minutes⟩, announce := ⟨1, .minutes⟩, fee := 0, rateAdjust := 0
    warningLevel := 0, allowanceGrace := ⟨2, .minutes⟩, hoursGrace := ⟨5, .minutes⟩, idleLimit := ⟨0, .seconds⟩ }

/-- The Admission Unit after power-on (R119). -/
def Adm.powerOn : Adm :=
  { classes := ⟨#[ClassRecord.powerOn .high, ClassRecord.powerOn .low, ClassRecord.powerOn .low,
      ClassRecord.powerOn .low], rfl⟩
    capacity := 0, reserve := 0, inUse := 0, openWait := ⟨20, .seconds⟩, queues := Vector.replicate 4 []
    upper := 4, low := 3, grants := 0, fullRefusals := 0, denials := 0, openTimeouts := 0, queueTimeouts := 0 }

/-- A closed window after power-on (R148). -/
def Window.powerOn : Window := { dayMask := 0, start := 0, length := 0, classMask := 0, isOpen := false }

/-- The Calendar and Tariff Unit after power-on (R148). -/
def Ctu.powerOn : Ctu :=
  { day := 0, hour := 0, minute := 0, second := 0, isSet := false, minuteDue := false, current := none, waiting := none
    generation := 0, band := none, windows := Vector.replicate 4 Window.powerOn, barred := 0
    switches := 0, bandChanges := 0, openings := 0, activations := 0 }

/-- The Meter Unit after power-on (R164). -/
def Mtr.powerOn : Mtr := { warnings := 0, exhaustions := 0, restorations := 0, fadeLumps := 0 }

/-- The Billing Store after power-on (R180). -/
def Bst.powerOn : Bst :=
  { store := [], held := [], nextRecord := 1, auditCount := 0, auditCharge := 0, placed := 0, heldCount := 0 }

/-- The Service and Fault Unit after power-on (R181, R183). The survey period's power-on value is a bare 0: that its unit is the
second is a DESIGN CHOICE (log entry 34). -/
def Sfu.powerOn : Sfu :=
  { service := .halted, record := none, further := false, mask := Vector.replicate 8 false
    faults := Vector.replicate 8 0, surveyLines := [], surveyPeriod := ⟨0, .seconds⟩, surveyTimer := none }

/-- The Host Link Interface after power-on, given the receiver's condition and the outbound hold pin (R16). -/
def Hli.powerOn (rx : Receiver) (outHold : Bool) : Hli :=
  { inQueue := [], rx := rx, prio := [], ord := [], prioWait := [], ordWait := [], tx := none, outHold := outHold
    linkFrames := 0, overruns := 0, formatErrors := 0, framesTaken := 0, congestions := 0 }

/-- The machine right after power-on, every input pin at rest (log entry 10) and no command waiting. -/
def State.reset : State :=
  { pending := [], hli := Hli.powerOn .idle false, fitted := 48, lines := Vector.replicate 48 (Line.powerOn false false)
    nextCall := 1, stale := 0, soe := Soe.powerOn, acc := Acc.powerOn, adm := Adm.powerOn, forwardWait := []
    ctu := Ctu.powerOn, mtr := Mtr.powerOn, bst := Bst.powerOn, sfu := Sfu.powerOn }

end Sys2Proof.Machine
end

