-- ==== Sys2Proof/Machine/Ops.lean ====
section
/-! DEFINITION. The named operations that every block uses: counters, timers, the call and line accessors, the two outbound lanes,
raising a fault, placing texts, and the creation of a call record. -/

namespace Sys2Proof.Machine

/-! ### Counters and timers -/

/-- One more, saturating at 65535 (00_scope.md, Counters). -/
def bump (n : Nat) : Nat := min (n + 1) Config.counterMax

/-- `k` more, saturating at 65535. -/
def bumpBy (n k : Nat) : Nat := min (n + k) Config.counterMax

/-- The next value of a number that runs 1 to 65535 and passes from 65535 to 1, skipping 0 (R21, R141, R175). -/
def advanceNumber (n : Nat) : Nat := if n ≥ 65535 then 1 else n + 1

/-- The 1-second events an interval lasts (R1). -/
def intervalSecs (i : Interval) : Nat :=
  match i.unit with
  | .seconds => i.count
  | .minutes => i.count * 60

/-- A timer started from an interval whose count of 0 means 'does not run' (R1, Table 0.3). -/
def startTimer (i : Interval) : Option Nat := if i.count = 0 then none else some (intervalSecs i)

/-- A timer started from an interval whose count of 0 is taken as 1 s (answer wait and speed wait, Table 0.3). -/
def startTimerAtLeastOne (i : Interval) : Option Nat := if i.count = 0 then some 1 else some (intervalSecs i)

/-- One event fewer to come; an expiry that is due stays due (R1, log entry 3). -/
def countDown : Option Nat → Option Nat
  | some (n + 1) => some n
  | t => t

/-- An expiry has come due: no event is still to come (log entry 3). -/
def isDue (timer : Option Nat) : Bool := decide (timer = some 0)

/-- The number of whole minutes left, rounded up (R25). -/
def minutesLeft (secs : Nat) : Nat := (secs + 59) / 60

/-! ### Lines and calls -/

/-- Line `l`. -/
def State.line (s : State) (l : LineNo) : Line := s.lines[l]

/-- Line `l` replaced. -/
def State.setLine (s : State) (l : LineNo) (x : Line) : State := { s with lines := s.lines.set l x }

/-- Line `l` changed by `f`. -/
def State.modLine (s : State) (l : LineNo) (f : Line → Line) : State := s.setLine l (f (s.line l))

/-- The call record on line `l`, if its slot holds one (R20). -/
def State.callOn (s : State) (l : LineNo) : Option Call := (s.line l).call

/-- The call record on line `l` changed by `f`, if there is one. -/
def State.modCall (s : State) (l : LineNo) (f : Call → Call) : State :=
  s.modLine l fun x => { x with call := x.call.map f }

/-- The line counters of line `l` changed by `f`. -/
def State.modCounters (s : State) (l : LineNo) (f : LineCounters → LineCounters) : State :=
  s.modLine l fun x => { x with ctr := f x.ctr }

/-- The carriage counters of line `l` changed by `f`. -/
def State.modCarriage (s : State) (l : LineNo) (f : CarriageCounters → CarriageCounters) : State :=
  s.modLine l fun x => { x with car := f x.car }

/-- The call's phase on line `l` is `p`. -/
def State.phaseIs (s : State) (l : LineNo) (p : Phase) : Bool :=
  match s.callOn l with
  | some c => decide (c.phase = p)
  | none => false

/-- At least one call record exists. -/
def State.anyCall (s : State) : Bool := allLines.any fun l => (s.callOn l).isSome

/-- The speed class of a speed (Table 1.9). -/
def speedClass : Speed → SpeedClass
  | .b110 | .b150 | .b300 => .s
  | .b600 | .b1200 => .m
  | .b2400 | .b4800 | .b9600 => .f

/-- The speed code of a speed (Table 1.9). -/
def speedCode : Speed → Nat
  | .b110 => 0 | .b150 => 1 | .b300 => 2 | .b600 => 3 | .b1200 => 4 | .b2400 => 5 | .b4800 => 6 | .b9600 => 7

/-- A call's speed; a call past SPEED has one (Table 2.2), and for one that had none the value is free (log entry 12). -/
def Call.speedNow (c : Call) : Speed := c.speed.getD Config.speedWhenNone

/-- A call's admission class; an attached call has one (R73), and for one that had none the value is free (log entry 12). -/
def Call.classNow (c : Call) : ClassNo := c.cls.getD Config.classWhenNone

/-- The call on line `l` exists and has no end cause. -/
def State.running (s : State) (l : LineNo) : Bool :=
  match s.callOn l with
  | some c => c.endCause.isNone
  | none => false

/-- The number of calls that had no end cause before and have ended since. That it counts every call that ended during the take,
those that its closing charges ended with ALLOWANCE among them, is a DESIGN CHOICE (log entry 35). -/
def endedCount (before after : State) : Nat := allLines.countP fun l => before.running l && !after.running l

/-! ### The outbound lanes -/

/-- The survey's items as they stand: one for each line of the set, in line-number order (R188). -/
def surveyItems (s : State) : List SurveyItem :=
  (allLines.filter fun l => decide (l ∈ s.sfu.surveyLines)).map fun l =>
    { line := l, st := (s.line l).st, phase := (s.callOn l).map Call.phase
      speed := (s.callOn l).bind Call.speed, call := ((s.callOn l).map Call.number).getD 0 }

/-- The frame as it enters the priority lane: a SURVEY REPORT takes its body then, every other frame keeps the one it has
(R11, R188). -/
def fixBody (s : State) (f : OutFrame) : OutFrame :=
  match f.msg with
  | .surveyReport _ => { f with msg := .surveyReport (surveyItems s) }
  | _ => f

/-- A message of a kind other than REPLY enters the priority lane, or its wait order (R14). A place that a waiting message
or a request has a claim on is not taken by a later message. -/
def enqueuePriority (s : State) (f : OutFrame) : State :=
  if s.hli.prio.length < Config.priorityDepth ∧ s.hli.prioWait = [] then
    { s with hli := { s.hli with prio := s.hli.prio ++ [fixBody s f] } }
  else
    { s with hli := { s.hli with prioWait := s.hli.prioWait ++ [f] } }

/-- A frame enters the ordered lane, or its wait order at 64 frames; the passage from 47 to 48 frames is counted (R13). -/
def enqueueOrdered (s : State) (f : OutFrame) : State :=
  if s.hli.ord.length < Config.orderedDepth then
    { s with hli := { s.hli with
        ord := s.hli.ord ++ [f]
        congestions := if s.hli.ord.length + 1 = Config.congestedAt then bump s.hli.congestions else s.hli.congestions } }
  else
    { s with hli := { s.hli with ordWait := s.hli.ordWait ++ [f] } }

/-- A message about the call on line `l`, headed with its line and call number (Table 1.3). -/
def callFrame (s : State) (l : LineNo) (msg : OutMsg) : OutFrame :=
  { tag := l.val, call := ((s.callOn l).map Call.number).getD 0, msg := msg }

/-- A message about no call (line tag FFh, call number 0). -/
def partFrame (msg : OutMsg) : OutFrame := { tag := 255, call := 0, msg := msg }

/-! ### Faults (R184) -/

/-- The index of a fault kind in the mask and in the fault counters. -/
def faultIndex : FaultKind → Fin 8
  | .linkFrame => 0 | .inboundOverrun => 1 | .malformed => 2 | .creditExceeded => 3
  | .directoryTimeout => 4 | .openTimeout => 5 | .storeFull => 6 | .capacityLowered => 7

/-- The calendar clock's day and second of the day. -/
def Ctu.now (c : Ctu) : DayTime := { day := c.day, second := c.hour * 3600 + c.minute * 60 + c.second }

/-- A fault is raised: its counter, then the mask, the record and the notice (R184). -/
def raiseFault (s : State) (kind : FaultKind) (line : Option LineNo) (call : Option Nat) (detail : Nat)
    (test : Bool := false) : State :=
  let faults := s.sfu.faults.set (faultIndex kind) (bump s.sfu.faults[faultIndex kind])
  if s.sfu.mask[faultIndex kind] then
    { s with sfu := { s.sfu with faults := faults } }
  else
    match s.sfu.record with
    | some _ => { s with sfu := { s.sfu with faults := faults, further := true } }
    | none =>
      let r : FaultRecord :=
        { kind := kind, line := line, call := call, detail := detail, test := test
          time := if s.ctu.isSet then some s.ctu.now else none }
      enqueuePriority { s with sfu := { s.sfu with faults := faults, record := some r, further := false } }
        { tag := (line.map Fin.val).getD 255, call := call.getD 0, msg := .faultNotice r }

/-! ### Texts (R57, R59) -/

/-- The control characters (00_scope.md, Numbers and characters). -/
def chBEL : Byte := 0x07
def chBS : Byte := 0x08
def chLF : Byte := 0x0A
def chCR : Byte := 0x0D
def chXON : Byte := 0x11
def chXOFF : Byte := 0x13
def chCAN : Byte := 0x18
def chSUB : Byte := 0x1A
def chSpace : Byte := 0x20
def chHash : Byte := 0x23
def chDEL : Byte := 0x7F

/-- The decimal digits of `n`, at most `fuel` of them, ahead of `acc`. -/
def decimalAux : Nat → Nat → List Byte → List Byte
  | 0, _, acc => acc
  | fuel + 1, n, acc =>
    let acc := BitVec.ofNat 8 (48 + n % 10) :: acc
    if n < 10 then acc else decimalAux fuel (n / 10) acc

/-- `n` in decimal with no leading zeros; 0 is "0" (R57). -/
def decimal (n : Nat) : List Byte := decimalAux (n + 1) n []

/-- The first "#" of a text replaced by `digits` (R57: a text holds at most one). -/
def substituteHash (digits : List Byte) : List Byte → List Byte
  | [] => []
  | c :: rest => if c = chHash then digits ++ rest else c :: substituteHash digits rest

/-- The characters of a slot as sent, with its number where one is supplied (R57). -/
def textChars (s : State) (slot : Fin 24) (number : Option Nat) : List Byte :=
  match number with
  | some n => substituteHash (decimal n) s.soe.texts[slot]
  | none => s.soe.texts[slot]

/-- Characters are appended to the transmit buffer whole, or dropped and counted (R59). -/
def placeChars (s : State) (l : LineNo) (chars : List Byte) : State :=
  match s.callOn l with
  | none => s
  | some c =>
    if c.txBuf.length + chars.length ≤ Config.transmitDepth then
      s.modCall l fun c => { c with txBuf := c.txBuf ++ chars }
    else
      { s with soe := { s.soe with textDrops := bump s.soe.textDrops } }

/-- A text is placed in the transmit buffer as CR, LF and its characters; an empty text places nothing (R59). -/
def placeText (s : State) (l : LineNo) (slot : Fin 24) (number : Option Nat := none) : State :=
  if textChars s slot number = [] then s
  else placeChars s l (chCR :: chLF :: textChars s slot number)

/-- A text is appended to a connected call's notice-text queue, or dropped and counted at 4 texts (R130). -/
def queueNotice (s : State) (l : LineNo) (slot : Fin 24) (number : Option Nat := none) : State :=
  if textChars s slot number = [] then s
  else
    match s.callOn l with
    | none => s
    | some c =>
      if c.notices.length < Config.noticeDepth then
        s.modCall l fun c => { c with notices := c.notices ++ [textChars s slot number] }
      else
        { s with soe := { s.soe with textDrops := bump s.soe.textDrops } }

/-- A text from another block: to the notice-text queue of a connected call, into the transmit buffer of a queued or opening
one (R25, R130, R160). -/
def sendText (s : State) (l : LineNo) (slot : Fin 24) (number : Option Nat := none) : State :=
  match s.callOn l with
  | none => s
  | some c =>
    match c.phase with
    | .connected => queueNotice s l slot number
    | .queued | .opening => placeText s l slot number
    | _ => s

/-! ### Entry to NAME (R60) -/

/-- What every entry to NAME does: the phase, both buffers emptied, the field timer started (R60, R66). -/
def enterName (s : State) (l : LineNo) : State :=
  s.modCall l fun c =>
    { c with phase := .name, nameBuf := [], pwBuf := [], fieldTimer := startTimer s.soe.fieldTimeout }

/-- Entry to NAME at the start of a call: banner, then name prompt (R60). -/
def startDialogue (s : State) (l : LineNo) : State := placeText (placeText (enterName s l) l 0) l 1

/-- Return to NAME after an invalid name or password: "INVALID", then name prompt (R60). -/
def retryDialogue (s : State) (l : LineNo) : State := placeText (placeText (enterName s l) l 3) l 1

/-! ### Creating a call record (R20, R21) -/

/-- The meter record at creation (Table 2.1). -/
def Meter.fresh : Meter :=
  { connectSecs := 0, stepPos := 0, stepLen := 0, stepRate := 0, acc := 0, charge := 0, fadeSecs := 0
    feeCharged := false, warned := false, genAtConnect := 0 }

/-- A call record with the values of Table 2.1 at creation. -/
def Call.fresh (number : Nat) (phase : Phase) (speed : Option Speed) (copy : CallSettings) : Call :=
  { number := number, phase := phase, speed := speed, attempts := 0, nameBuf := [], pwBuf := [], fieldTimer := none
    attach := none, cls := none, queueSecs := 0, slotHeld := false, openOutstanding := false, signOn := none
    connectAt := none, meter := Meter.fresh, idle := none, queueWait := none, announce := none, openWait := none
    batchGap := none, drain := none, pend := ⟨none, none, none⟩, graceEntered := false, endCause := none, residue := 0
    credit := 0, batch := [], forwardDue := false, txBuf := [], notices := [], emission := [], terminalStopped := false
    pendingFlow := none, outputPaused := false, lastCR := false, lineEnd := false, copy := copy, closedDue := false
    closedSent := false, released := false, goodbyePending := false, genAtEnd := 0 }

/-- The call numbers in use (R21). -/
def usedNumbers (s : State) : List Nat := allLines.filterMap fun l => (s.callOn l).map Call.number

/-- The first number, from `n` on, that no existing call record holds, tried `fuel` times (R21). -/
def freeNumber (used : List Nat) : Nat → Nat → Nat
  | 0, n => n
  | fuel + 1, n => if n ∈ used then freeNumber used fuel (advanceNumber n) else n

/-- The number the next call takes: at most 48 records exist, so 49 values suffice (R21). -/
def nextCallNumber (s : State) : Nat := freeNumber (usedNumbers s) 48 s.nextCall

/-- A call record is created in the empty slot of line `l` with a new call number (R20, R21). -/
def createCall (s : State) (l : LineNo) (phase : Phase) (speed : Option Speed) (copy : CallSettings) : State :=
  let n := nextCallNumber s
  let s := s.modLine l fun x => { x with call := some (Call.fresh n phase speed copy) }
  let s := s.modCounters l fun k => { k with callsCreated := bump k.callsCreated }
  { s with nextCall := advanceNumber n }

end Sys2Proof.Machine
end

