-- ==== Sys2Proof/Machine/Flags.lean ====
section
/-! DEFINITION. The conditions and output pins that are functions of the state: terminal-ready, the inbound hold, congestion, the
insertion point, the arbiter's two limits, readiness, and the state of a closed window. -/

namespace Sys2Proof.Machine

/-- The terminal-ready output of a line (R31): on in ANSWER, SPEED, UP and FADE. -/
def terminalReady (x : Line) : Bool :=
  match x.st with
  | .answer | .speed | .up | .fade => true
  | .off | .idle | .ring | .drop => false

/-- The inbound hold output (R6): asserted while the inbound queue holds 8 frames. -/
def inboundHold (s : State) : Bool := decide (Config.inboundDepth ≤ s.hli.inQueue.length)

/-- The ordered lane is congested (R13). -/
def congested (s : State) : Bool := decide (Config.congestedAt ≤ s.hli.ord.length)

/-- The line is below the number of lines fitted (R32). -/
def isFitted (s : State) (l : LineNo) : Bool := decide (l.val < s.fitted)

/-- The service state is OPEN. -/
def serviceOpen (s : State) : Bool := decide (s.sfu.service = .opened)

/-- An insertion point holds (R131): the transmit buffer is empty, or the last characters offered from it were CR LF, or an
emission has just ended. -/
def insertionPoint (c : Call) : Bool := c.txBuf.isEmpty || c.lineEnd

/-- The call is attached and one that a pending cause or an allowance evaluation reaches (R25, R159). -/
def reachable (c : Call) : Bool :=
  c.attach.isSome && (match c.phase with | .queued | .opening | .connected => true | _ => false)

/-- A class can be granted a slot now, its queue apart (R103, R106): HIGH below C, LOW below C − V. -/
def slotFree (s : State) (k : ClassNo) : Bool :=
  match s.adm.classes[k].group with
  | .high => decide (s.adm.inUse < s.adm.capacity)
  | .low => decide (s.adm.inUse + s.adm.reserve < s.adm.capacity)

/-- The three conditions of readiness (R181): clock SET, generation not 0, D at least 1. -/
def ready (s : State) : Bool := s.ctu.isSet && decide (s.ctu.generation ≠ 0) && decide (1 ≤ s.acc.size)

/-- The minute of the day (R137). -/
def minuteOfDay (c : Ctu) : Nat := c.hour * 60 + c.minute

/-- The minute of the week (R137). -/
def minuteOfWeek (c : Ctu) : Nat := c.day * 1440 + minuteOfDay c

/-- A window covers a minute of the week by the span of one of the days of its mask; minutes beyond 10079 run on from 0 (R144). -/
def windowCovers (w : Window) (minute : Nat) : Bool :=
  (List.finRange 7).any fun d =>
    w.dayMask.getLsbD d.val && decide ((minute + 10080 - (d.val * 1440 + w.start) % 10080) % 10080 < w.length)

/-- A window's state under the clock (R144). -/
def windowState (c : Ctu) (w : Window) : Bool := c.isSet && decide (0 < w.length) && windowCovers w (minuteOfWeek c)

/-- The barred class set: the union of the masks of the OPEN windows (R144). -/
def barredSet (windows : Vector Window 4) : BitVec 4 :=
  (List.finRange 4).foldl (fun m i => if windows[i].isOpen then m ||| windows[i].classMask else m) 0

/-- The highest-numbered band, among the first band-count bands, that starts at or before the minute of the day (R142). -/
def bandAt (t : Tariff) (minute : Nat) : Option BandNo :=
  (List.finRange 8).foldl (fun b i => if i.val < t.bandCount ∧ t.starts[i] ≤ minute then some i else b) none

/-- The current band as an evaluation gives it (R142): none with no tariff or with the clock UNSET. -/
def evaluatedBand (c : Ctu) : Option BandNo :=
  match c.current with
  | none => none
  | some t => if c.isSet then bandAt t (minuteOfDay c) else none

/-- The remaining allowance of an entry with a limit: modulo 2^32, read as a signed number (R159). -/
def remainingOf (allowance : Nat) (charged : BitVec 32) : Int := (BitVec.ofNat 32 allowance - charged).toInt

end Sys2Proof.Machine
end

