-- ==== Sys2Proof/Machine/Operands.lean ====
section
/-! DEFINITION. Reading what commands bring: the frame check sequence and the link checks (R4, R5), the catalogue and the form of a
frame (R8), the entry layout of BUCKET DATA (R18), and the range checks of every request (R10), each giving the index of
the first bad field. -/

namespace Sys2Proof.Machine

/-! ### Bytes, high byte first -/

/-- The number that bytes spell, high byte first. -/
def numberOf (bytes : List Byte) : Nat := bytes.foldl (fun n b => n * 256 + b.toNat) 0

/-- `k` bytes of a number, high byte first. -/
def bytesOf : Nat → Nat → List Byte
  | 0, _ => []
  | k + 1, n => BitVec.ofNat 8 (n / 256 ^ k) :: bytesOf k n

/-- The bytes `from` to `from + count - 1`. -/
def field (bytes : List Byte) (start count : Nat) : List Byte := (bytes.drop start).take count

/-! ### The frame check sequence (R4) -/

/-- One bit of the register's shift: x^16 + x^12 + x^5 + 1. -/
def crcShift (r : BitVec 16) : BitVec 16 := if r.msb then (r <<< 1) ^^^ 0x1021 else r <<< 1

/-- `n` shifts. -/
def crcShifts : Nat → BitVec 16 → BitVec 16
  | 0, r => r
  | n + 1, r => crcShifts n (crcShift r)

/-- One byte taken, most significant bit first. -/
def crcByte (r : BitVec 16) (b : Byte) : BitVec 16 := crcShifts 8 (r ^^^ (b.setWidth 16 <<< 8))

/-- The CRC of a run of bytes, from FFFFh, with no final inversion. -/
def crc (bytes : List Byte) : BitVec 16 := bytes.foldl crcByte 0xFFFF

/-! ### The link checks (R5) -/

/-- The largest well-formed frame, in bytes (R2). -/
def largestFrame : Nat := 296

/-- The byte count of a frame, saturating at 65535 (R2). -/
def byteCount (bytes : List Byte) : Nat := min bytes.length 65535

/-- The body length field n of a frame (Table 1.6). -/
def bodyLength (bytes : List Byte) : Nat := numberOf (field bytes 4 2)

/-- The detail of the first check of Table 1.1 that fails, or none. -/
def linkCheck (bytes : List Byte) : Option Nat :=
  if byteCount bytes < 8 then some 1
  else if 288 < bodyLength bytes then some 2
  else if byteCount bytes ≠ 8 + bodyLength bytes then some 3
  else if (crc (bytes.take (6 + bodyLength bytes))).toNat ≠ numberOf (field bytes (6 + bodyLength bytes) 2) then some 4
  else none

/-- The header and body of a frame that passed the link checks (Table 1.6). -/
def frameOf (bytes : List Byte) : InFrame :=
  { code := numberOf (field bytes 0 1), tag := numberOf (field bytes 1 1), call := numberOf (field bytes 2 2)
    body := field bytes 6 (bodyLength bytes) }

/-- A whole frame as bytes: header, body and CRC (R3, R4). -/
def frameBytes (code tag call : Nat) (body : List Byte) : List Byte :=
  let covered := bytesOf 1 code ++ bytesOf 1 tag ++ bytesOf 2 call ++ bytesOf 2 body.length ++ body
  covered ++ bytesOf 2 (crc covered).toNat

/-! ### The catalogue of host messages (Table 1.2) -/

/-- One row of Table 1.2: whether the tag names a line, whether the header names a call, and whether a REPLY is due. -/
structure CatalogueRow where
  code : Nat
  line : Bool
  call : Bool
  replied : Bool
  deriving DecidableEq, Repr

/-- Table 1.2. -/
def catalogue : List CatalogueRow :=
  [⟨0x01, false, false, true⟩, ⟨0x02, false, false, true⟩, ⟨0x03, false, false, true⟩, ⟨0x04, false, false, true⟩,
   ⟨0x05, true, false, true⟩, ⟨0x06, false, false, true⟩, ⟨0x07, false, false, true⟩, ⟨0x08, false, false, true⟩,
   ⟨0x09, false, false, true⟩, ⟨0x0A, false, false, true⟩, ⟨0x10, true, false, true⟩, ⟨0x11, true, false, true⟩,
   ⟨0x12, true, false, true⟩, ⟨0x13, false, false, true⟩, ⟨0x14, false, false, true⟩, ⟨0x15, false, false, true⟩] ++
  [⟨0x20, false, false, true⟩, ⟨0x21, false, false, false⟩, ⟨0x22, false, false, true⟩, ⟨0x23, false, false, true⟩,
   ⟨0x24, false, false, true⟩, ⟨0x30, false, false, true⟩, ⟨0x31, false, false, true⟩, ⟨0x32, true, true, false⟩,
   ⟨0x33, true, true, false⟩, ⟨0x38, true, true, false⟩, ⟨0x39, true, true, false⟩, ⟨0x40, false, false, true⟩,
   ⟨0x41, false, false, true⟩, ⟨0x42, false, false, true⟩, ⟨0x43, false, false, true⟩, ⟨0x50, false, false, true⟩,
   ⟨0x51, false, false, true⟩]

/-- The row of a message code, if it is one of Table 1.2. -/
def catalogueRow (code : Nat) : Option CatalogueRow := catalogue.find? fun r => decide (r.code = code)

/-- The header's tag and call number meet the requirement of the row (R8). -/
def headerOk (r : CatalogueRow) (f : InFrame) : Bool :=
  (if r.line then decide (f.tag < 48) else decide (f.tag = 255)) &&
  (if r.call then decide (1 ≤ f.call) else decide (f.call = 0))

/-! ### Bucket entries (R18) -/

/-- A letter A to Z or a digit. -/
def isNameChar (b : Byte) : Bool := (decide (0x41 ≤ b) && decide (b ≤ 0x5A)) || (decide (0x30 ≤ b) && decide (b ≤ 0x39))

/-- A user name is valid: first a letter or digit, and only spaces after the first space (R18). -/
def validName (name : List Byte) : Bool :=
  match name with
  | [] => false
  | c :: _ => isNameChar c && (name.dropWhile isNameChar).all fun b => decide (b = chSpace)

/-- A bucket entry's 23 bytes lie within the ranges of Table 1.7 (R18). -/
def entryInRange (e : List Byte) : Bool :=
  let status := numberOf (field e 0 1)
  decide (status ≤ 3) &&
  (decide (status = 0) ||
    (decide (numberOf (field e 1 1) ≤ 3) && decide (1 ≤ numberOf (field e 2 1)) && decide (numberOf (field e 2 1) ≤ 4) &&
     decide (1 ≤ numberOf (field e 5 3)) && decide (numberOf (field e 5 3) ≤ 999999) && validName (field e 15 8)))

/-- The entry that 23 bytes carry, with its live fields at their load values; none for status EMPTY (R18, R77). -/
def entryOf (e : List Byte) : Option Entry :=
  let status := numberOf (field e 0 1)
  if status = 0 then none
  else some
    { status := if status = 1 then .opened else if status = 2 then .suspended else .expired
      cls := Fin.ofNat 4 (numberOf (field e 1 1))
      sessionLimit := numberOf (field e 2 1)
      groups := BitVec.ofNat 4 (numberOf (field e 3 1))
      bandMask := BitVec.ofNat 8 (numberOf (field e 4 1))
      account := numberOf (field e 5 3)
      allowance := if numberOf (field e 8 3) = 0xFFFFFF then none else some (numberOf (field e 8 3))
      checkWord := BitVec.ofNat 32 (numberOf (field e 11 4))
      userName := field e 15 8
      attached := 0, stored := 0, charged := 0, exhausted := false, warnedAtLevel := false, withdrawn := false }

/-- The 23 bytes of entry `i` of a BUCKET DATA body with DATA (R85). -/
def entryBytes (body : List Byte) (i : EntryNo) : List Byte := field body (4 + 23 * i.val) 23

/-- The fetch tag of a BUCKET DATA body (R85). -/
def dataTag (body : List Byte) : Nat := numberOf (field body 0 1)

/-- The bucket number of a BUCKET DATA body (R85). -/
def dataBucket (body : List Byte) : Nat := numberOf (field body 1 2)

/-- The four incoming entries of a BUCKET DATA body, or none where its result is UNAVAILABLE, which its length shows (R85). -/
def dataEntries (body : List Byte) : Option (Vector (Option Entry) 4) :=
  if body.length = 96 then some (Vector.ofFn fun i => entryOf (entryBytes body i)) else none

/-! ### The form of a frame (R8) -/

/-- What the spec says of a frame's form: well-formed, malformed, or resting on a part of the body whose byte layout the
spec leaves open (log entry 1). -/
inductive Form where
  | wellFormed | malformed | openLayout
  deriving DecidableEq, Repr

/-- The form of a body for its code, as the owning chapters give it. A body of named fields only cannot be empty. -/
def bodyForm (code : Nat) (body : List Byte) : Form :=
  let n := body.length
  match code with
  | 0x01 | 0x05 | 0x07 | 0x09 | 0x11 | 0x32 | 0x39 | 0x42 => if n = 0 then .wellFormed else .malformed
  | 0x14 => if 2 ≤ n ∧ n = 2 + numberOf (field body 1 1) then .wellFormed else .malformed
  | 0x21 =>
    if (n = 4 ∨ (n = 96 ∧ (List.finRange 4).all fun i => entryInRange (entryBytes body i))) ∧ dataTag body ≤ 3 ∧
      dataBucket body ≤ 16383 then .openLayout else .malformed
  | 0x33 => if n = 1 then .openLayout else .malformed
  | 0x38 => if 1 ≤ n ∧ n ≤ 256 then .wellFormed else .malformed
  | 0x41 => if n = 62 then .openLayout else .malformed
  | _ => if n = 0 then .malformed else .openLayout

/-- The form of a frame (R8). -/
def frameForm (f : InFrame) : Form :=
  match catalogueRow f.code with
  | none => .malformed
  | some r => if headerOk r f then bodyForm f.code f.body else .malformed

/-- The code is one that the catalogue marks as replied. -/
def isReplied (code : Nat) : Bool :=
  match catalogueRow code with
  | some r => r.replied
  | none => false

/-- A frame at the head of the inbound queue may need a REPLY, so that it waits for a place in the priority lane (R7). -/
def mayNeedReply (f : InFrame) : Bool := isReplied f.code || decide (frameForm f ≠ .wellFormed)

/-- The line a header names; R8 has checked that the tag is below 48. -/
def lineOf (f : InFrame) : LineNo := Fin.ofNat 48 f.tag

/-! ### Range checks (R10): the index of the first field out of range -/

/-- The first index whose check fails. -/
def firstBad : List (Nat × Bool) → Option Nat
  | [] => none
  | (i, ok) :: rest => if ok then firstBad rest else some i

/-- An interval's count is in 0 to 63 (R1). -/
def intervalOk (i : Interval) : Bool := decide (i.count ≤ 63)

/-- LINE SET (R51, Table 3.5). -/
def lineSetBad (t : LineSettings) : Option Nat :=
  firstBad [(1, decide (t.answerAfter ≤ 15)), (5, intervalOk t.answerWait), (6, intervalOk t.speedWait),
    (7, intervalOk t.holdover), (8, decide (t.forwardCount ≤ 4)),
    (9, decide (1 ≤ t.forwardSize) && decide (t.forwardSize ≤ 64)),
    (10, decide (1 ≤ t.batchGap) && decide (t.batchGap ≤ 25))]

/-- LINES FITTED (R32). -/
def linesFittedBad (n : Nat) : Option Nat := firstBad [(0, decide (1 ≤ n) && decide (n ≤ 48))]

/-- TEXT LOAD (R58): slot, length, characters. -/
def textLoadBad (slot : Nat) (chars : List Byte) : Option Nat :=
  firstBad [(0, decide (slot ≤ 23)), (1, decide (chars.length ≤ 80)),
    (2, chars.all (fun c => decide (0x20 ≤ c) && decide (c ≤ 0x7E)) && decide (chars.count chHash ≤ 1))]

/-- DIALOGUE SET (R74). -/
def dialogueSetBad (limit : Nat) (field drain : Interval) : Option Nat :=
  firstBad [(0, decide (1 ≤ limit) && decide (limit ≤ 7)), (1, intervalOk field), (2, intervalOk drain)]

/-- DIRECTORY SET (R95). -/
def directorySetBad (size : Nat) (wait : Interval) : Option Nat :=
  firstBad [(0, decide (1 ≤ size) && decide (size ≤ 16384)), (1, intervalOk wait)]

/-- The bucket and account fields of R93 and R94. -/
def accountBad (bucket account : Nat) : Option Nat :=
  firstBad [(0, decide (bucket ≤ 16383)), (1, decide (1 ≤ account) && decide (account ≤ 999999))]

/-- ALLOWANCE ADJUST (R93). -/
def adjustBad (bucket account : Nat) (delta : Int) : Option Nat :=
  firstBad [(0, decide (bucket ≤ 16383)), (1, decide (1 ≤ account) && decide (account ≤ 999999)),
    (2, decide (-16777215 ≤ delta) && decide (delta ≤ 16777215))]

/-- CAPACITY SET (R100); V above C gives index 1. -/
def capacitySetBad (capacity reserve : Nat) (openWait : Interval) : Option Nat :=
  match firstBad [(0, decide (capacity ≤ 32)), (1, decide (reserve ≤ 8)), (2, intervalOk openWait)] with
  | some i => some i
  | none => firstBad [(1, decide (reserve ≤ capacity))]

/-- CLASS SET (R99, Table 6.1). -/
def classSetBad (cls : Nat) (r : ClassRecord) : Option Nat :=
  firstBad [(0, decide (cls ≤ 3)), (2, decide (r.queueLimit ≤ 48)), (3, intervalOk r.queueWait), (4, intervalOk r.announce),
    (5, decide (r.fee ≤ 255)), (6, decide (-512 ≤ r.rateAdjust) && decide (r.rateAdjust ≤ 511)),
    (7, decide (r.warningLevel ≤ 65535)), (8, intervalOk r.allowanceGrace), (9, intervalOk r.hoursGrace),
    (10, intervalOk r.idleLimit)]

/-- CLOCK SET (R138). -/
def clockSetBad (day hour minute second : Nat) : Option Nat :=
  firstBad [(0, decide (day ≤ 6)), (1, decide (hour ≤ 23)), (2, decide (minute ≤ 59)), (3, decide (second ≤ 59))]

/-- WINDOW SET (R145). -/
def windowSetBad (window start length : Nat) : Option Nat :=
  firstBad [(0, decide (window ≤ 3)), (2, decide (start ≤ 1439)), (3, decide (length ≤ 1440))]

/-- The band starts that are read lie in the day, begin with 0 and rise strictly (R139). -/
def startsOk (t : Tariff) : Bool :=
  decide (t.starts[0] = 0) &&
  (List.finRange 8).all fun i =>
    !(decide (i.val < t.bandCount)) ||
    (decide (t.starts[i] ≤ 1439) && (i.val == 0 || decide (t.starts[i.val - 1] < t.starts[i])))

/-- The base rates that are read lie in 0 to 4095 (R139). -/
def ratesOk (t : Tariff) : Bool :=
  (List.finRange 8).all fun i => !(decide (i.val < t.bandCount)) || decide (t.rates[i] ≤ 4095)

/-- The first field of a tariff that is out of range or fails a combination (R139, R140). -/
def tariffBad (t : Tariff) : Option Nat :=
  firstBad [(0, decide (1 ≤ t.bandCount) && decide (t.bandCount ≤ 8)), (1, startsOk t), (2, ratesOk t),
    (3, decide (t.multS ≤ 1023)), (4, decide (t.multM ≤ 1023)), (5, decide (t.multF ≤ 1023)),
    (6, decide (t.tier1 ≤ 65535)),
    (7, decide (t.tier2 ≤ 65535) && (decide (t.tier1 = 0) || decide (t.tier2 = 0) || decide (t.tier1 < t.tier2))),
    (8, decide (t.factor0 ≤ 1023)), (9, decide (t.factor1 ≤ 1023)), (10, decide (t.factor2 ≤ 1023)),
    (11, decide (t.floor ≤ 4095)),
    (13, decide (t.ceiling ≤ 4095) && (!(t.floorOn && t.ceilingOn) || decide (t.floor ≤ t.ceiling))),
    (15, decide (1 ≤ t.stepLength) && decide (t.stepLength ≤ 60)),
    (19, decide (t.activation = .untimed) || decide (t.actDay ≤ 6)),
    (20, decide (t.activation = .untimed) || decide (t.actMinute ≤ 1439))]

end Sys2Proof.Machine
end

