-- ==== Sys2Proof/Machine/CacheOps.lean ====
section
/-! DEFINITION. The shared operations of the Account Cache on frames, entries, pins and the order of use (R76 to R79), and the
withdrawal of a lookup (R84). -/

namespace Sys2Proof.Machine

/-- Frame `f`. -/
def State.frame (s : State) (f : FrameNo) : Frame := s.acc.frames[f]

/-- Frame `f` changed by `g`. -/
def State.modFrame (s : State) (f : FrameNo) (g : Frame → Frame) : State :=
  { s with acc := { s.acc with frames := s.acc.frames.set f (g s.acc.frames[f]) } }

/-- The entry in a slot of a frame, if the slot is not EMPTY. -/
def State.entryAt (s : State) (at' : FrameNo × EntryNo) : Option Entry := (s.frame at'.1).entries[at'.2]

/-- The entry in a slot of a frame changed by `g`, if the slot is not EMPTY. -/
def State.modEntry (s : State) (at' : FrameNo × EntryNo) (g : Entry → Entry) : State :=
  s.modFrame at'.1 fun x => { x with entries := x.entries.set at'.2 (x.entries[at'.2].map g) }

/-- The entry a call is attached to. -/
def State.entryOfCall (s : State) (l : LineNo) : Option Entry :=
  match s.callOn l with
  | some c => c.attach.bind s.entryAt
  | none => none

/-- An entry has live state (R77). -/
def Entry.live (e : Entry) : Bool := decide (0 < e.attached) || decide (0 < e.stored)

/-- The frame moves to the most recently used end of the order of use (R79). -/
def touchFrame (s : State) (f : FrameNo) : State :=
  { s with acc := { s.acc with order := (s.acc.order.filter fun g => decide (g ≠ f)) ++ [f] } }

/-- The frame becomes EMPTY with its entries (R78, R79, R90, R92). That its fresh marker is cleared with it, where R76 names only
the next 1-second event, is a DESIGN CHOICE (log entry 24). -/
def emptyFrame (s : State) (f : FrameNo) : State := s.modFrame f fun _ => Frame.empty

/-- The frame that holds a bucket (R76: at most one). -/
def findBucket (s : State) (bucket : Nat) : Option FrameNo :=
  allFrames.find? fun f => decide ((s.frame f).bucket = some bucket)

/-- A call is attached to an entry and pins its frame (R78, first row). -/
def attachPins (s : State) (at' : FrameNo × EntryNo) : State :=
  (s.modEntry at' fun e => { e with attached := e.attached + 1 }).modFrame at'.1 fun x => { x with pins := x.pins + 1 }

/-- A call's pin passes to its billing record (R78, second row). -/
def recordPins (s : State) (at' : FrameNo × EntryNo) : State :=
  s.modEntry at' fun e => { e with attached := e.attached - 1, stored := e.stored + 1 }

/-- A WITHDRAWN entry that has no live state left makes its slot EMPTY (R78). -/
def sweepEntry (s : State) (at' : FrameNo × EntryNo) : State :=
  match s.entryAt at' with
  | some e =>
    if e.withdrawn && !e.live then s.modFrame at'.1 fun x => { x with entries := x.entries.set at'.2 none } else s
  | none => s

/-- A stored record is released: its entry and frame lose the pin, and what the loss of the last pin brings (R78, third row). -/
def releasePins (s : State) (at' : FrameNo × EntryNo) : State :=
  let s := s.modEntry at' fun e => { e with stored := e.stored - 1 }
  let s := s.modFrame at'.1 fun x => { x with pins := x.pins - 1 }
  let s := sweepEntry s at'
  if (s.frame at'.1).pins = 0 ∧ (s.frame at'.1).st = .refreshDue then emptyFrame s at'.1 else s

/-- The lookup of the call on line `l` is withdrawn from the waiters of its fetch or from the backlog (R84). -/
def withdrawLookup (s : State) (l : LineNo) : State :=
  { s with acc := { s.acc with
      backlog := s.acc.backlog.filter fun k => decide (k.line ≠ l)
      slots := Vector.ofFn fun i => s.acc.slots[i].map fun k =>
        { k with waiters := k.waiters.filter fun w => decide (w.line ≠ l) } } }

end Sys2Proof.Machine
end

