-- ==== Sys2Proof/Machine/AdmissionOps.lean ====
section
/-! DEFINITION. The shared operations of the Admission Unit: the class queues (R102), the grant (R108), the two-level rotating
arbiter (R106, R107) and the clearing of a slot (R101). -/

namespace Sys2Proof.Machine

/-- Queue `k` replaced. -/
def State.setQueue (s : State) (k : ClassNo) (q : List LineNo) : State :=
  { s with adm := { s.adm with queues := s.adm.queues.set k q } }

/-- The call on line `l` leaves its class queue, and its queue wait and announcement timers stop (R102). -/
def leaveQueue (s : State) (l : LineNo) : State :=
  { s with adm := { s.adm with queues := Vector.ofFn fun k => s.adm.queues[k].filter fun m => decide (m ≠ l) } }.modCall l
    fun c => { c with queueWait := none, announce := none }

/-- The class and the position, from 1, of the call on line `l` in its class queue (R102). -/
def queuePlace (s : State) (l : LineNo) : Option (ClassNo × Nat) :=
  (List.finRange 4).findSome? fun k =>
    (s.adm.queues[k].findIdx? fun m => decide (m = l)).map fun i => (k, i + 1)

/-- What joining a queue starts: the phase, the queue wait and the announcement timer, and the first announcement
(R103, R104, R105). -/
def startQueueing (s : State) (l : LineNo) (k : ClassNo) : State :=
  let r := s.adm.classes[k]
  let s := s.modCall l fun c =>
    { c with phase := .queued, queueWait := startTimer r.queueWait, announce := startTimer r.announce }
  if r.announce.count = 0 then s else placeText s l 9 ((queuePlace s l).map Prod.snd)

/-- A call joins the tail of its class queue (R102, R103). -/
def joinTail (s : State) (l : LineNo) (k : ClassNo) : State :=
  startQueueing (s.setQueue k (s.adm.queues[k] ++ [l])) l k

/-- A call returns to the head of its class queue (R111). -/
def joinHead (s : State) (l : LineNo) (k : ClassNo) : State :=
  startQueueing (s.setQueue k (l :: s.adm.queues[k])) l k

/-- A grant takes the call from its queue, or from the offer, to OPENING and produces OPEN REQUEST (R108, R109). -/
def grant (s : State) (l : LineNo) : State :=
  let s := leaveQueue s l
  let s := { s with adm := { s.adm with inUse := s.adm.inUse + 1, grants := bump s.adm.grants } }
  let s := s.modCall l fun c =>
    { c with slotHeld := true, openOutstanding := true, phase := .opening, openWait := startTimer s.adm.openWait }
  match s.callOn l with
  | some c =>
    enqueueOrdered s (callFrame s l
      (.openRequest (((s.entryOfCall l).map Entry.account).getD Config.accountWhenNone) c.cls c.speedNow))
  | none => s

/-- The pointers as a grant of class `k` sets them (R107, steps 2 and 3). -/
def setPointers (s : State) (k : ClassNo) : State :=
  match s.adm.classes[k].group with
  | .high => { s with adm := { s.adm with upper := k.castSucc } }
  | .low => { s with adm := { s.adm with upper := 4, low := k } }

/-- The values after a pointer in cyclic order, ending with the pointer's own (R107). -/
def cyclicAfter (n : Nat) [NeZero n] (p : Fin n) : List (Fin n) :=
  (List.finRange n).map fun i => p + i + 1

/-- A HIGH class is eligible (R106). -/
def highEligible (s : State) (k : ClassNo) : Bool :=
  decide (s.adm.classes[k].group = .high) && !s.adm.queues[k].isEmpty && slotFree s k

/-- A LOW class has a queued call and LOW-GROUP may be granted a slot (R106). -/
def lowEligible (s : State) (k : ClassNo) : Bool :=
  decide (s.adm.classes[k].group = .low) && !s.adm.queues[k].isEmpty && slotFree s k

/-- The class whose head call the next selection grants, if a participant is eligible (R107). -/
def selectClass (s : State) : Option ClassNo :=
  (cyclicAfter 5 s.adm.upper).findSome? fun v =>
    if h : v.val < 4 then
      let k : ClassNo := ⟨v.val, h⟩
      if highEligible s k then some k else none
    else
      (cyclicAfter 4 s.adm.low).find? fun k => lowEligible s k

/-- One selection: the head call of the class chosen is granted and the pointers set (R107). -/
def selectOne (s : State) : Option State :=
  match selectClass s with
  | none => none
  | some k =>
    match s.adm.queues[k] with
    | [] => none
    | l :: _ => some (setPointers (grant s l) k)

/-- Selections until no participant is eligible, at most `fuel`; the state and the number of grants (R107). -/
def arbiterLoop : Nat → State → State × Nat
  | 0, s => (s, 0)
  | fuel + 1, s =>
    match selectOne s with
    | none => (s, 0)
    | some t => ((arbiterLoop fuel t).1, (arbiterLoop fuel t).2 + 1)

/-- The calls that are queued. -/
def queuedCount (s : State) : Nat := ((List.finRange 4).map fun k => s.adm.queues[k].length).sum

/-- A run of the arbiter: each selection takes a call from a queue, so the queued calls bound the selections (R107). -/
def runArbiter (s : State) : State × Nat := arbiterLoop (queuedCount s) s

/-- The slot of the call on line `l` is given back, the arbiter's run apart (R101). -/
def clearSlot (s : State) (l : LineNo) : State :=
  match s.callOn l with
  | some c =>
    if c.slotHeld then
      { s with adm := { s.adm with inUse := s.adm.inUse - 1 } }.modCall l fun c => { c with slotHeld := false }
    else s
  | none => s

/-- A slot release: the flag, U, and the arbiter's run (R101). -/
def releaseSlot (s : State) (l : LineNo) : State := (runArbiter (clearSlot s l)).1

end Sys2Proof.Machine
end

