-- ==== Sys2Proof/Machine/EndingOps.lean ====
section
/-! DEFINITION. The shared operations of the end of a call: entry to DROP and leaving it (R50), the removal of a call record (R29,
R173), the billing record (R174 to R176), the CLOSED (R172) and the drain (R167, R168). -/

namespace Sys2Proof.Machine

/-! ### The line -/

/-- Entry to DROP: terminal-ready off, receiver and transmitter stopped, the line's timers stopped, the drop guard started
(R50). The character in transmission is finished (R45). That a zero character still held undecided is discarded uncounted is a
DESIGN CHOICE (log entry 42). -/
def dropBare (s : State) (l : LineNo) : State :=
  let s := s.modLine l fun x =>
    { x with st := .drop, ringGap := none, answerWait := none, speedWait := none, holdover := none
             dropGuard := some Config.dropGuardSeconds, rxWait := false, zeroHeld := false }
  s.modCounters l fun k => { k with drops := bump k.drops }

/-- The line goes OFF; its ring gap, answer wait and drop guard stop and its disable-pending flag is cleared (R32, R54). That the
ring count returns to 0 is a DESIGN CHOICE (log entry 36). -/
def goOff (s : State) (l : LineNo) : State :=
  s.modLine l fun x =>
    { x with st := .off, ringCount := 0, ringGap := none, answerWait := none, dropGuard := none, disablePending := false }

/-- A line leaves DROP: to OFF if its disable-pending flag is set or it is not below N, to IDLE otherwise (R50). -/
def leaveDrop (s : State) (l : LineNo) : State :=
  if (s.line l).disablePending || !isFitted s l then goOff s l
  else s.modLine l fun x => { x with st := .idle, ringCount := 0, dropGuard := none }

/-! ### Removing a call record (R29) -/

/-- The last call record is gone while CLOSING: HALTED, with SERVICE NOTICE (R182). -/
def haltIfDone (s : State) : State :=
  match s.sfu.service with
  | .closing m =>
    if s.anyCall then s
    else enqueuePriority { s with sfu := { s.sfu with service := .halted } } (partFrame (.serviceNotice m))
  | _ => s

/-- The conditions of a re-sign-on that do not rest on the call (R168, R173). -/
def mayResign (s : State) (l : LineNo) : Bool :=
  !(s.line l).disablePending && isFitted s l && serviceOpen s

/-- The copy of a re-sign-on: speed, data format and stop bits of the ended call's copy, every other field from the line's
settings (R52). That the copy's speed field is kept as the ended copy has it, AUTO included, is DEDUCED (log entry
41). -/
def resignCopy (settings : LineSettings) (ended : CallSettings) : CallSettings :=
  { settings.toCallSettings with speed := ended.speed, format := ended.format, stopBits := ended.stopBits }

/-- Re-sign-on: a new call in NAME at the ended call's speed (R173). -/
def resign (s : State) (l : LineNo) (ended : Call) : State :=
  startDialogue (createCall s l .name ended.speed (resignCopy (s.line l).settings ended.copy)) l

/-- The call record on line `l` is removed, and the line goes on from there (R29, R50, R173). -/
def removeCall (s : State) (l : LineNo) : State :=
  match s.callOn l with
  | none => s
  | some c =>
    let s := s.modLine l fun x => { x with call := none }
    let s := haltIfDone { s with forwardWait := s.forwardWait.filter fun m => decide (m ≠ l) }
    match (s.line l).st with
    | .drop => if (s.line l).dropGuard = none then leaveDrop s l else s
    | .up => if mayResign s l then resign s l c else dropBare s l
    | _ => s

/-! ### The billing record -/

/-- The billing record made from the call record as it stands (R174). -/
def makeRecord (s : State) (l : LineNo) (c : Call) (at' : FrameNo × EntryNo) : BillRecord :=
  { number := s.bst.nextRecord
    account := ((s.entryAt at').map Entry.account).getD Config.accountWhenNone
    line := l, call := c.number, speed := c.speed, cls := c.cls, endCause := c.endCause
    warned := c.meter.warned, graceEntered := c.graceEntered
    tariffChanged := decide (c.genAtEnd ≠ c.meter.genAtConnect)
    neverConnected := c.connectAt.isNone
    signOn := c.signOn, connectAt := c.connectAt, connectSecs := c.meter.connectSecs
    queueSecs := min c.queueSecs Config.queueSecondsMax, charge := c.meter.charge, fadeSecs := c.meter.fadeSecs
    residue := min c.residue 65535, generation := c.genAtEnd, entry := at' }

/-- The record is numbered, stored, added to the audit totals and sent; a placement that fills the store raises STORE FULL;
the account's pin passes to the record and the call record is removed (R175). -/
def placeRecord (s : State) (l : LineNo) : State :=
  match s.callOn l with
  | none => s
  | some c =>
    match c.attach with
    | none => s
    | some at' =>
      let r := makeRecord s l c at'
      let s := { s with bst := { s.bst with
          store := s.bst.store ++ [r], nextRecord := advanceNumber s.bst.nextRecord
          auditCount := s.bst.auditCount + 1, auditCharge := s.bst.auditCharge + BitVec.ofNat 32 r.charge
          placed := bump s.bst.placed } }
      let s := enqueueOrdered s { tag := l.val, call := c.number, msg := .billRecord r }
      let s := if s.bst.store.length = Config.storeDepth then
          raiseFault s .storeFull none none ((s.bst.store.head?.map BillRecord.number).getD 0) else s
      removeCall (recordPins s at') l

/-- A record made at a full store is not placed: its call goes HELD, and a line left UP goes to DROP (R176). -/
def holdCall (s : State) (l : LineNo) : State :=
  let s := s.modCall l fun c => { c with phase := .held }
  let s := { s with bst := { s.bst with held := s.bst.held ++ [l], heldCount := bump s.bst.heldCount } }
  if (s.line l).st = .up then dropBare s l else s

/-- The billing record of an attached call is made: placed at once, or its call held (R175, R176). -/
def closeOut (s : State) (l : LineNo) : State :=
  if s.bst.store.length < Config.storeDepth then placeRecord s l else holdCall s l

/-! ### The strands of the ending work -/

/-- What the ending work of the call on line `l` does once a strand completes: the removal of an unattached call, the CLOSED
of a call that owes one, or the billing record of a call that owes none (R171, R172). -/
def settle (s : State) (l : LineNo) : State :=
  match s.callOn l with
  | none => s
  | some c =>
    if c.phase = .ending ∧ c.released = true then
      if c.attach = none then removeCall s l
      else if c.closedDue then
        if c.closedSent = false ∧ c.batch = [] then
          enqueueOrdered (s.modCall l fun c => { c with closedSent := true })
            (callFrame s l (.closed c.endCause c.meter.charge))
        else s
      else if c.slotHeld = false ∧ c.openOutstanding = false then closeOut s l
      else s
    else s

/-- The transmit buffer and any text in emission are discarded; `residue` says whether the characters count (R167, R169, R170). -/
def discardOutput (s : State) (l : LineNo) (residue : Bool) : State :=
  s.modCall l fun c =>
    { c with residue := if residue then c.residue + c.txBuf.length else c.residue, txBuf := [], emission := [] }

/-- Line `l` goes to DROP. A call that has ended is released there: its drain stops and its buffer is discarded, as residue in
a host close before GOODBYE (R50, R165, R167). -/
def dropLine (s : State) (l : LineNo) : State :=
  let s := dropBare s l
  match s.callOn l with
  | some c =>
    if c.endCause.isSome then
      let s := discardOutput s l c.goodbyePending
      settle (s.modCall l fun c => { c with drain := none, goodbyePending := false, released := true }) l
    else s
  | none => s

/-- The drain is over: the line drops, or after a host close with RESIGN stays UP (R167, R168). -/
def drainOver (s : State) (l : LineNo) : State :=
  match s.callOn l with
  | none => s
  | some c =>
    if c.endCause = some .hostClose ∧ c.copy.afterClose = .resign ∧ mayResign s l = true then
      settle (s.modCall l fun c => { c with drain := none, goodbyePending := false, released := true }) l
    else dropLine s l

/-- GOODBYE is placed when the buffer of a host-close drain first becomes empty (R168, step 3). -/
def placeGoodbye (s : State) (l : LineNo) : State :=
  match s.callOn l with
  | none => s
  | some c =>
    if c.goodbyePending = true ∧ c.txBuf = [] ∧ c.emission = [] then
      placeText (s.modCall l fun c => { c with goodbyePending := false }) l 14
    else s

/-- While a drain runs: GOODBYE where it is its turn, then the end of the drain once everything has been sent (R167). -/
def drainCheck (s : State) (l : LineNo) : State :=
  match s.callOn l with
  | none => s
  | some c0 =>
    if c0.phase = .ending ∧ c0.drain.isSome = true then
      let s := placeGoodbye s l
      match s.callOn l with
      | none => s
      | some c =>
        if c.txBuf = [] ∧ c.emission = [] ∧ c.goodbyePending = false ∧ (s.line l).txChar = none then drainOver s l else s
    else s

end Sys2Proof.Machine
end

