-- ==== Sys2Proof/Machine/CarriageOps.lean ====
section
/-! DEFINITION. The shared operations of the Carriage Unit: flow characters (R124), the batch and the forward wait list (R121 to
R123), credit (R126), and the end of carriage with its closing flush (R134). -/

namespace Sys2Proof.Machine

/-- A flow character becomes due: it is pending, or it cancels the opposite one still pending (R124). -/
def dueFlow (pending : Option FlowChar) (want : FlowChar) : Option FlowChar :=
  match pending with
  | none => some want
  | some p => if p = want then some p else none

/-- The call's batch leaves as TERM DATA: the buffer empties, the flag and the gap clear, a stopped terminal is let go (R122,
R124), and the flush of an ending call is complete (R134). -/
def sendBatch (s : State) (l : LineNo) : State :=
  match s.callOn l with
  | none => s
  | some c =>
    if c.batch = [] then s
    else
      let s := enqueueOrdered s (callFrame s l (.termData c.batch))
      let s := s.modCall l fun c =>
        { c with batch := [], forwardDue := false, batchGap := none, terminalStopped := false
                 pendingFlow := if c.terminalStopped then dueFlow c.pendingFlow .xon else c.pendingFlow }
      settle (s.modCarriage l fun k => { k with termData := bump k.termData }) l

/-- What the CAR does with a due batch: TERM DATA at once, or a place on the forward wait list (R122). -/
def forwardBatch (s : State) (l : LineNo) : State :=
  if congested s = false ∧ s.forwardWait = [] then sendBatch s l
  else if l ∈ s.forwardWait then s
  else { s with forwardWait := s.forwardWait ++ [l] }

/-- A batch becomes due for sending (R121, R122). -/
def batchDue (s : State) (l : LineNo) : State :=
  match s.callOn l with
  | none => s
  | some c =>
    if c.forwardDue then s
    else forwardBatch (s.modCall l fun c => { c with forwardDue := true, batchGap := none }) l

/-- The head line of the forward wait list sends its batch, at the event at which the lane ceases to be congested (R123). -/
def serveForward (s : State) : State :=
  match s.forwardWait with
  | [] => s
  | l :: rest => sendBatch { s with forwardWait := rest } l

/-- The grant test: a CREDIT for the free space not yet granted, if it is 64 or more, while CONNECTED (R126). -/
def grantTest (s : State) (l : LineNo) : State :=
  match s.callOn l with
  | none => s
  | some c =>
    let g := Config.transmitDepth - c.txBuf.length - c.credit
    if c.phase = .connected ∧ Config.creditLeast ≤ g then
      (enqueuePriority s (callFrame s l (.credit g))).modCall l fun c => { c with credit := c.credit + g }
    else s

/-- At the ending event of a connected call the CAR stops carrying (R134); the credit is 0 already. -/
def stopCarriage (s : State) (l : LineNo) : State :=
  s.modCall l fun c => { c with notices := [], outputPaused := false, batchGap := none }

/-- The closing flush of the batch buffer is requested (R134). -/
def closingFlush (s : State) (l : LineNo) : State :=
  match s.callOn l with
  | none => s
  | some c => if c.batch = [] then s else batchDue s l

end Sys2Proof.Machine
end

