-- ==== Sys2Proof/Machine/MeterOps.lean ====
section
/-! DEFINITION. The shared operations of the Meter Unit and of an ending event: the step rate (R151), the charge (R152), the
allowance evaluation (R159 to R162), adding and removing a pending end cause (R25, R27), the close of the meter (R156 to
R158), the line strand (R165 to R170), and the ending event itself (R24).

An ending event can end other calls of the same account (a charge that exhausts the allowance under a grace of 0), so the
ending event is a recursion. Each level gives one more call its end cause, so 49 levels suffice for 48 lines. The operations
below the recursion take the ending of a call as the parameter `endIt`. -/

namespace Sys2Proof.Machine

/-- How an operation ends another call: the call's line and the cause. -/
abbrev Ender := State → LineNo → EndCause → State

/-! ### The step rate (R151) -/

/-- The tariff the meter reads; one is always current while a call is connected (R150), and else the value is free (log entry 12). -/
def meterTariff (s : State) : Tariff := s.ctu.current.getD Config.tariffWhenNone

/-- The speed multiplier of a speed class (Table 9.2, step 2). -/
def speedMultiplier (t : Tariff) : SpeedClass → Nat
  | .s => t.multS
  | .m => t.multM
  | .f => t.multF

/-- The tier factor for the connect seconds (Table 9.2, step 3). -/
def tierFactor (t : Tariff) (connectSecs : Nat) : Nat :=
  if 0 < t.tier2 ∧ t.tier2 * 60 ≤ connectSecs then t.factor2
  else if 0 < t.tier1 ∧ t.tier1 * 60 ≤ connectSecs then t.factor1
  else t.factor0

/-- The effective rate R (Table 9.2). -/
def stepRateOf (t : Tariff) (band : BandNo) (speed : Speed) (connectSecs : Nat) (adjust : Int) : Nat :=
  let r2 := t.rates[band] * speedMultiplier t (speedClass speed) / 256
  let r3 := r2 * tierFactor t connectSecs / 256
  let r := min ((r3 : Int) + adjust).toNat 4095
  let r := if t.floorOn then max r t.floor else r
  if t.ceilingOn then min r t.ceiling else r

/-- The rate adjustment of a call's class, as the class table stands. -/
def rateAdjustOf (s : State) (c : Call) : Int := s.adm.classes[c.classNow].rateAdjust

/-- A step starts: rate and step length are computed once and held (R151). -/
def startStep (s : State) (l : LineNo) : State :=
  s.modCall l fun c =>
    { c with meter := { c.meter with
        stepPos := 0
        stepRate := stepRateOf (meterTariff s) (s.ctu.band.getD Config.bandWhenNone) c.speedNow c.meter.connectSecs
          (rateAdjustOf s c)
        stepLen := (meterTariff s).stepLength } }

/-! ### Pending end causes (R25, R27) -/

/-- The kinds of pending end cause (R25). -/
inductive PendingKind where
  | allowance | window | hours
  deriving DecidableEq, Repr

/-- The end cause of a kind. -/
def pendingCause : PendingKind → EndCause
  | .allowance => .allowance
  | .window => .window
  | .hours => .hours

/-- The text sent with an added cause (R25). -/
def pendingText : PendingKind → Fin 24
  | .allowance => 12
  | .window => 13
  | .hours => 13

/-- The count of a kind in a set. -/
def Pending.get (p : Pending) : PendingKind → Option Nat
  | .allowance => p.allowance
  | .window => p.window
  | .hours => p.hours

/-- The set with the entry of a kind replaced. -/
def Pending.set (p : Pending) (k : PendingKind) (n : Option Nat) : Pending :=
  match k with
  | .allowance => { p with allowance := n }
  | .window => { p with window := n }
  | .hours => { p with hours := n }

/-- A rule adds a pending end cause, with its text, to the call on line `l` (R25). -/
def addCause (endIt : Ender) (s : State) (l : LineNo) (kind : PendingKind) (grace : Interval) : State :=
  match s.callOn l with
  | none => s
  | some c =>
    if reachable c = false then s
    else if grace.count = 0 then endIt s l (pendingCause kind)
    else
      match c.pend.get kind with
      | some n => sendText s l (pendingText kind) (some (minutesLeft n))
      | none =>
        sendText (s.modCall l fun c => { c with pend := c.pend.set kind (some (intervalSecs grace)), graceEntered := true }) l
          (pendingText kind) (some (minutesLeft (intervalSecs grace)))

/-- A rule removes a pending end cause from the call on line `l` (R27). -/
def removeCause (s : State) (l : LineNo) (kind : PendingKind) : State :=
  s.modCall l fun c => { c with pend := c.pend.set kind none }

/-! ### The allowance evaluation (R159 to R162) -/

/-- The call on line `l` is one that an evaluation of an entry reaches (R159). -/
def evaluationReaches (s : State) (at' : FrameNo × EntryNo) (l : LineNo) : Bool :=
  match s.callOn l with
  | some c => reachable c && decide (c.attach = some at')
  | none => false

/-- "ALLOWANCE LOW" to the call on line `l`, once in its life (R160). -/
def warnCall (s : State) (l : LineNo) : State :=
  match s.callOn l with
  | none => s
  | some c =>
    if c.meter.warned then s
    else sendText (s.modCall l fun c => { c with meter := { c.meter with warned := true } }) l 11

/-- The warning test (R160). -/
def warningTest (s : State) (at' : FrameNo × EntryNo) (e : Entry) (remaining : Int) : State :=
  let w := s.adm.classes[e.cls].warningLevel
  if w = 0 ∨ (w : Int) < remaining then s.modEntry at' fun e => { e with warnedAtLevel := false }
  else if e.warnedAtLevel then s
  else
    let s := s.modEntry at' fun e => { e with warnedAtLevel := true }
    let s := { s with mtr := { s.mtr with warnings := bump s.mtr.warnings } }
    allLines.foldl (fun s l => if evaluationReaches s at' l then warnCall s l else s) s

/-- The exhaustion test (R161). -/
def exhaustionTest (endIt : Ender) (s : State) (at' : FrameNo × EntryNo) (e : Entry) (remaining : Int) : State :=
  if 0 < remaining ∨ e.exhausted = true then s
  else
    let s := s.modEntry at' fun e => { e with exhausted := true }
    let s := { s with mtr := { s.mtr with exhaustions := bump s.mtr.exhaustions } }
    allLines.foldl (fun s l => if evaluationReaches s at' l then
      addCause endIt s l .allowance s.adm.classes[e.cls].allowanceGrace else s) s

/-- The restoration test (R162). -/
def restorationTest (s : State) (at' : FrameNo × EntryNo) (e : Entry) (remaining : Int) : State :=
  if remaining ≤ 0 ∨ e.exhausted = false then s
  else
    let s := s.modEntry at' fun e => { e with exhausted := false }
    let s := { s with mtr := { s.mtr with restorations := bump s.mtr.restorations } }
    allLines.foldl (fun s l => if evaluationReaches s at' l then sendText (removeCause s l .allowance) l 19 else s) s

/-- An entry's allowance is evaluated: warning, exhaustion, restoration, each on the remaining allowance as it stands after the
charge or the adjustment; nothing for an entry with no limit (R159). -/
def evaluateAllowance (endIt : Ender) (s : State) (at' : FrameNo × EntryNo) : State :=
  match s.entryAt at' with
  | none => s
  | some e =>
    match e.allowance with
    | none => s
    | some a =>
      let r := remainingOf a e.charged
      restorationTest (exhaustionTest endIt (warningTest s at' e r) at' e r) at' e r

/-! ### Charges (R152) -/

/-- Units are added to the call's session charge and to its entry's charged-since-load (R150, R152, R158). -/
def addUnits (s : State) (l : LineNo) (units : Nat) : State :=
  match s.callOn l with
  | none => s
  | some c =>
    let s := s.modCall l fun c => { c with meter := { c.meter with charge := c.meter.charge + units } }
    match c.attach with
    | none => s
    | some at' => s.modEntry at' fun e => { e with charged := e.charged + BitVec.ofNat 32 units }

/-- The allowance of the entry a call is attached to is evaluated. -/
def evaluateCall (endIt : Ender) (s : State) (l : LineNo) : State :=
  match (s.callOn l).bind Call.attach with
  | none => s
  | some at' => evaluateAllowance endIt s at'

/-- A charge of `a` unit-seconds: accumulator, carry, evaluation (R152). -/
def chargeUnitSeconds (endIt : Ender) (s : State) (l : LineNo) (a : Nat) : State :=
  match s.callOn l with
  | none => s
  | some c =>
    let total := c.meter.acc + a
    let s := s.modCall l fun c => { c with meter := { c.meter with acc := total % 3600 } }
    evaluateCall endIt (addUnits s l (total / 3600)) l

/-- The call on line `l` is CONNECTED and its step position has reached the step length (R153). -/
def stepDue (s : State) (l : LineNo) : Bool :=
  match s.callOn l with
  | some c => decide (c.phase = .connected) && decide (0 < c.meter.stepLen) && decide (c.meter.stepLen ≤ c.meter.stepPos)
  | none => false

/-- A step that has reached its length is charged at the held rate, and the next step starts if the call still runs (R153).
The position is 0 again when the charge is evaluated (log entry 17). -/
def completeStep (endIt : Ender) (s : State) (l : LineNo) : State :=
  match s.callOn l with
  | none => s
  | some c =>
    if stepDue s l = false then s
    else
      let s := s.modCall l fun c => { c with meter := { c.meter with stepPos := 0 } }
      let s := chargeUnitSeconds endIt s l (c.meter.stepRate * c.meter.stepLen)
      if s.phaseIs l .connected then startStep s l else s

/-! ### The close of the meter (R156 to R158) -/

/-- The unit-seconds of the final partial step (R157). -/
def partialCharge (rule : PartStep) (m : Meter) : Nat :=
  if m.stepPos = 0 then 0
  else
    match rule with
    | .full => m.stepRate * m.stepLen
    | .actual => m.stepRate * m.stepPos
    | .free => 0

/-- The extra units of the end rounding (R158). -/
def roundingUnits (rule : EndRounding) (acc : Nat) : Nat :=
  match rule with
  | .down => 0
  | .nearest => if 1800 ≤ acc then 1 else 0
  | .up => if 0 < acc then 1 else 0

/-- A final partial step is charged, unless there is nothing to charge (R157). -/
def finalStep (endIt : Ender) (s : State) (l : LineNo) : State :=
  match s.callOn l with
  | none => s
  | some c =>
    if c.meter.stepPos = 0 ∨ (meterTariff s).partStep = .free then s
    else chargeUnitSeconds endIt s l (partialCharge (meterTariff s).partStep c.meter)

/-- The accumulator is settled under the end rounding, and the allowance evaluated once more (R158). -/
def endRounding (endIt : Ender) (s : State) (l : LineNo) : State :=
  match s.callOn l with
  | none => s
  | some c =>
    let extra := roundingUnits (meterTariff s).rounding c.meter.acc
    let s := s.modCall l fun c => { c with meter := { c.meter with acc := 0 } }
    evaluateCall endIt (addUnits s l extra) l

/-- The meter of a call whose fee was charged is closed at its ending event (R156). -/
def closeMeter (endIt : Ender) (s : State) (l : LineNo) : State :=
  match s.callOn l with
  | none => s
  | some c => if c.meter.feeCharged then endRounding endIt (finalStep endIt s l) l else s

/-! ### The line strand (R165 to R171) -/

/-- The reason text of an end cause (R166). -/
def reasonText : EndCause → Option (Fin 24)
  | .idle => some 20
  | .hostTimeout => some 17
  | .hostDenied => some 18
  | .queueTimeout => some 23
  | _ => none

/-- The closing texts: the reason text, if the cause has one, then GOODBYE (R166). -/
def closingTexts (s : State) (l : LineNo) (cause : EndCause) : State :=
  let s := match reasonText cause with
    | some slot => placeText s l slot
    | none => s
  placeText s l 14

/-- The drain starts from the drain limit as it stands (R167). -/
def startDrain (s : State) (l : LineNo) : State :=
  s.modCall l fun c => { c with drain := some (intervalSecs s.soe.drainLimit) }

/-- The line strand of a call that has just ended (R165): `was` is its phase before, `lost` says that its carrier is gone. -/
def lineStrand (s : State) (l : LineNo) (was : Phase) (cause : EndCause) (lost : Bool) : State :=
  let connected := decide (was = .connected)
  match (s.line l).st with
  | .up =>
    if lost then dropLine (discardOutput s l connected) l
    else if s.soe.drainLimit.count = 0 then
      drainOver (s.modCall l fun c =>
        { c with residue := if connected then c.residue + c.txBuf.length else c.residue, txBuf := [] }) l
    else if connected = true ∧ cause = .hostClose then
      drainCheck ((startDrain s l).modCall l fun c => { c with goodbyePending := true }) l
    else if connected then
      drainCheck (startDrain (closingTexts (s.modCall l fun c =>
        { c with residue := c.residue + c.txBuf.length, txBuf := [] }) l cause) l) l
    else drainCheck (startDrain (closingTexts s l cause) l) l
  | .drop => settle ((discardOutput s l connected).modCall l fun c => { c with released := true }) l
  | _ => dropLine (discardOutput s l connected) l

/-! ### The ending event (R24) -/

/-- What R24 and the blocks' own rules do to the record at its ending event: the cause, the set, the timers, the phase, the
password buffer (R66), the outstanding credit (R134), and what the ending work reads later, none of it done yet. -/
def markEnded (s : State) (l : LineNo) (cause : EndCause) : State :=
  s.modCall l fun c =>
    { c with endCause := some cause, pend := ⟨none, none, none⟩, idle := none, phase := .ending, fieldTimer := none
             pwBuf := [], credit := 0, genAtEnd := s.ctu.generation
             closedDue := decide (c.phase = .connected) || decide (cause = .hostTimeout)
             closedSent := false, released := false, goodbyePending := false }

/-- What leaves the other blocks at the ending event, by the phase before it (R84, R102, R134, R156). -/
def endingWork (endIt : Ender) (s : State) (l : LineNo) (was : Phase) : State :=
  match was with
  | .lookup => withdrawLookup s l
  | .queued => leaveQueue s l
  | .connected => closingFlush (closeMeter endIt (stopCarriage s l) l) l
  | _ => s

/-- An ending event reaches the call on line `l` (R24). A step that is complete but not yet charged is charged first (log entry
4); a call that has an end cause keeps it. -/
def endCallWith (endIt : Ender) (s : State) (l : LineNo) (cause : EndCause) (lost : Bool) : State :=
  let s := completeStep endIt s l
  match s.callOn l with
  | none => s
  | some c =>
    if c.endCause.isSome then s
    else lineStrand (endingWork endIt (markEnded s l cause) l c.phase) l c.phase cause lost

/-- The ending of a call with `fuel` levels of further ends below it. -/
def endFuel : Nat → Ender
  | 0 => fun s _ _ => s
  | fuel + 1 => fun s l cause => endCallWith (endFuel fuel) s l cause false

/-- An ending event reaches the call on line `l`, its carrier present (R24). -/
def endCall (s : State) (l : LineNo) (cause : EndCause) : State := endFuel 49 s l cause

/-- One event ends every call of `lines` that has no end cause, each with the same cause: all are marked first, so that none of
their closing work can give another of them a different cause; the work follows in the order of `lines` (log entry 8). -/
def endAll (s : State) (lines : List LineNo) (cause : EndCause) : State :=
  let s := lines.foldl (fun s l => completeStep endCall s l) s
  let due := lines.filterMap fun l =>
    (s.callOn l).bind fun c => if c.endCause.isNone then some (l, c.phase) else none
  let s := due.foldl (fun s x => markEnded s x.1 cause) s
  due.foldl (fun s x => lineStrand (endingWork endCall s x.1 x.2) x.1 x.2 cause false) s

/-- An ending event that is itself the loss of the line's carrier (R49). -/
def endCallLost (s : State) (l : LineNo) (cause : EndCause) : State := endCallWith (endFuel 48) s l cause true

end Sys2Proof.Machine
end

