-- ==== Sys2Proof/Machine/CalendarOps.lean ====
section
/-! DEFINITION. The shared operations of the Calendar and Tariff Unit: the tariff switch (R141), the band evaluation and what a band
change does to calls (R142, R143), the windows and the barred class set (R144, R146), and the minute evaluation (R137).
Where one event reaches several calls, they are taken in line-number order (log entry 8). -/

namespace Sys2Proof.Machine

/-- The hours grace of a call's admission class. -/
def hoursGraceOf (s : State) (c : Call) : Interval := s.adm.classes[c.classNow].hoursGrace

/-- What a band change does to the call on line `l` (R143). -/
def bandChangeCall (s : State) (band : BandNo) (l : LineNo) : State :=
  match s.callOn l with
  | none => s
  | some c =>
    if reachable c = false then s
    else
      match s.entryOfCall l with
      | none => s
      | some e =>
        if e.bandMask.getLsbD band.val then removeCause s l .hours
        else addCause endCall s l .hours (hoursGraceOf s c)

/-- The current band is evaluated, and a band change acts on the calls (R142, R143). -/
def evaluateBand (s : State) : State :=
  let b := evaluatedBand s.ctu
  if b = s.ctu.band then s
  else
    let s := { s with ctu := { s.ctu with band := b, bandChanges := bump s.ctu.bandChanges } }
    match b with
    | none => s
    | some k => allLines.foldl (fun s l => bandChangeCall s k l) s

/-- The pending tariff becomes current, the generation advances, and the band is evaluated under it (R141). -/
def switchTariff (s : State) : State :=
  match s.ctu.waiting with
  | none => s
  | some t =>
    evaluateBand { s with ctu := { s.ctu with
      current := some t, waiting := none, generation := advanceNumber s.ctu.generation, switches := bump s.ctu.switches } }

/-- The pending tariff's activation time is the clock's day and minute (R137). -/
def activationReached (c : Ctu) : Bool :=
  match c.waiting with
  | none => false
  | some t => decide (t.activation = .timed) && decide (t.actDay = c.day) && decide (t.actMinute = minuteOfDay c)

/-- The activation step of the minute evaluation (R137, R141). -/
def activate (s : State) : State :=
  if activationReached s.ctu then
    switchTariff { s with ctu := { s.ctu with activations := bump s.ctu.activations } }
  else s

/-- What entering the barred class set does to the call on line `l`, if it is of class `k` (R146). -/
def barCall (s : State) (k : ClassNo) (l : LineNo) : State :=
  match s.callOn l with
  | none => s
  | some c =>
    if c.cls = some k ∧ reachable c = true then
      if c.phase = .queued then endCall s l .window else addCause endCall s l .window (hoursGraceOf s c)
    else s

/-- What leaving the barred class set does to the call on line `l`, if it is of class `k` (R146). -/
def releaseCall (s : State) (k : ClassNo) (l : LineNo) : State :=
  match s.callOn l with
  | none => s
  | some c => if c.cls = some k ∧ reachable c = true then removeCause s l .window else s

/-- The barred class set is evaluated, and its change acts on the calls, class by class (R144, R146). -/
def evaluateBarred (s : State) : State :=
  let old := s.ctu.barred
  let new := barredSet s.ctu.windows
  let s := { s with ctu := { s.ctu with barred := new } }
  (List.finRange 4).foldl (fun s k =>
    if new.getLsbD k.val = true ∧ old.getLsbD k.val = false then allLines.foldl (fun s l => barCall s k l) s
    else if new.getLsbD k.val = false ∧ old.getLsbD k.val = true then allLines.foldl (fun s l => releaseCall s k l) s
    else s) s

/-- The state of window `i` is evaluated; an opening is counted (R144). -/
def evaluateWindow (c : Ctu) (i : Fin 4) : Ctu :=
  let w := c.windows[i]
  let now := windowState c w
  { c with windows := c.windows.set i { w with isOpen := now }
           openings := if now = true ∧ w.isOpen = false then bump c.openings else c.openings }

/-- Every window's state is evaluated (R144). -/
def evaluateWindows (s : State) : State := { s with ctu := (List.finRange 4).foldl evaluateWindow s.ctu }

/-- The minute evaluation: activation, band, windows (R137). -/
def minuteEvaluation (s : State) : State := evaluateBarred (evaluateWindows (evaluateBand (activate s)))

/-- One second on the calendar clock, while it is SET; a second that comes to 0 is a minute change, which falls due (R137). -/
def tickClock (c : Ctu) : Ctu :=
  if c.isSet = false then c
  else if c.second < 59 then { c with second := c.second + 1 }
  else if c.minute < 59 then { c with second := 0, minute := c.minute + 1, minuteDue := true }
  else if c.hour < 23 then { c with second := 0, minute := 0, hour := c.hour + 1, minuteDue := true }
  else { c with second := 0, minute := 0, hour := 0, day := if c.day < 6 then c.day + 1 else 0, minuteDue := true }

end Sys2Proof.Machine
end

