-- ==== Sys2Proof/Machine/SignOnOps.lean ====
section
/-! DEFINITION. The shared operations of sign-on: the name hash and the check word (R67, R68), the eight checks (R72), what the
Sign-On Engine does with the outcome of a lookup (R69 to R73), and the lookups, fetches and backlog of the Account Cache
(R80 to R83, R89, R90). -/

namespace Sys2Proof.Machine

/-! ### Name and password -/

/-- The code of a name character: A to Z are 1 to 26, 0 to 9 are 27 to 36 (R67). -/
def nameCode (b : Byte) : Nat := if 0x41 ≤ b then b.toNat - 64 else b.toNat - 48 + 27

/-- The hash of a name (R67). -/
def nameHash (name : List Byte) : Nat := name.foldl (fun h b => (h * 37 + nameCode b) % 65536) 0

/-- A name padded with spaces to 8 characters (R67). -/
def padName (name : List Byte) : List Byte := name ++ List.replicate (8 - name.length) chSpace

/-- The check word after characters `i`, `i + 1`, … of a password (R68, step 2). -/
def checkWordAux (p : Nat) (i : Nat) : List Byte → Nat
  | [] => p
  | c :: rest => checkWordAux ((p * 131 + (c.toNat % 128) * i) % 2 ^ 32) (i + 1) rest

/-- The check word of a password for an account (R68). -/
def checkWordOf (account : Nat) (password : List Byte) : Nat :=
  (checkWordAux account 1 password * 131 + password.length) % 2 ^ 32

/-- The password passes: not empty, and its check word is the entry's (R68). -/
def passwordPasses (e : Entry) (password : List Byte) : Bool :=
  !password.isEmpty && decide (checkWordOf e.account password = e.checkWord.toNat)

/-! ### The sign-on checks (R72) -/

/-- The group's bit in an entry's line groups (Table 1.7). -/
def groupBit : Group → Nat
  | .a => 0 | .b => 1 | .c => 2 | .d => 3

/-- The sixth check fails: a limited allowance that is used up, below the fee, or EXHAUSTED (Table 4.6). -/
def allowanceFails (s : State) (e : Entry) : Bool :=
  match e.allowance with
  | none => false
  | some a =>
    let r := remainingOf a e.charged
    decide (r ≤ 0) || decide (r < (s.adm.classes[e.cls].fee : Int)) || e.exhausted

/-- The reason of the first check of Table 4.6 that fails, if one does. -/
def signOnCheck (s : State) (c : Call) (e : Entry) : Option SignOnReason :=
  if e.status ≠ .opened then some .suspended
  else if e.groups.getLsbD (groupBit c.copy.group) = false then some .line
  else if s.ctu.barred.getLsbD e.cls.val then some .window
  else if (match s.ctu.band with | some b => e.bandMask.getLsbD b.val | none => false) = false then some .band
  else if e.sessionLimit ≤ e.attached then some .sessions
  else if allowanceFails s e then some .allowance
  else if Config.storeDepth ≤ s.bst.store.length then some .accounting
  else if slotFree s e.cls = false ∧ s.adm.classes[e.cls].queueLimit ≤ s.adm.queues[e.cls].length then some .noPort
  else none

/-- The text of a refusal (Table 4.5). -/
def refusalText : SignOnReason → Fin 24
  | .unknown | .password => 3
  | .suspended => 4
  | .line => 21
  | .window | .band => 5
  | .sessions => 7
  | .allowance => 6
  | .accounting => 16
  | .noPort => 8

/-- SIGN-ON FAILED is enqueued for the call on line `l` (R71). -/
def signOnFailed (s : State) (l : LineNo) (account : Nat) (reason : SignOnReason) (cause : Option EndCause) : State :=
  match s.callOn l with
  | none => s
  | some c => enqueueOrdered s (callFrame s l (.signOnFailed (padName c.nameBuf) account reason c.attempts cause))

/-- The password buffer of the call on line `l` is emptied (R68 to R70). -/
def clearPassword (s : State) (l : LineNo) : State := s.modCall l fun c => { c with pwBuf := [] }

/-- An invalid lookup: an attempt is counted, and the call returns to NAME or ends with ATTEMPTS (R70). -/
def invalidLookup (s : State) (l : LineNo) (account : Nat) (reason : SignOnReason) : State :=
  let s := (clearPassword s l).modCall l fun c => { c with attempts := c.attempts + 1 }
  match s.callOn l with
  | none => s
  | some c =>
    if c.attempts < s.soe.attemptLimit then retryDialogue (signOnFailed s l account reason none) l
    else endCall (signOnFailed (placeText s l 3) l account reason (some .attempts)) l .attempts

/-- A refusal by one of the eight checks (R72). -/
def refuseSignOn (s : State) (l : LineNo) (account : Nat) (reason : SignOnReason) : State :=
  endCall (signOnFailed (placeText s l (refusalText reason)) l account reason (some .refused)) l .refused

/-- The offer of an attached call: granted at once, or queued at the tail of its class queue (R103). -/
def offer (s : State) (l : LineNo) (k : ClassNo) : State :=
  if slotFree s k then setPointers (grant s l) k else joinTail s l k

/-- A call that passed every check is attached and offered to admission (R73). -/
def attachCall (s : State) (l : LineNo) (at' : FrameNo × EntryNo) (k : ClassNo) : State :=
  let s := attachPins (s.modCall l fun c => { c with attach := some at' }) at'
  let s := s.modCall l fun c => { c with cls := some k, signOn := some s.ctu.now }
  offer s l k

/-! ### The outcome of a lookup -/

/-- How a lookup is resolved (R80). -/
inductive LookupOutcome where
  | found (at' : FrameNo × EntryNo)
  | unknown
  | unavailable
  deriving DecidableEq, Repr

/-- The Sign-On Engine acts on the outcome of a lookup of the call on line `l` (R69 to R73). -/
def actOnOutcome (s : State) (l : LineNo) (o : LookupOutcome) : State :=
  match s.callOn l with
  | none => s
  | some c =>
    match o with
    | .unavailable => endCall (placeText (clearPassword s l) l 15) l .directoryUnavailable
    | .unknown => invalidLookup s l 0 .unknown
    | .found at' =>
      match s.entryAt at' with
      | none => invalidLookup s l 0 .unknown
      | some e =>
        if passwordPasses e c.pwBuf = false then invalidLookup s l e.account .password
        else
          match signOnCheck s c e with
          | some reason => refuseSignOn (clearPassword s l) l e.account reason
          | none => attachCall (clearPassword s l) l at' e.cls

/-- A lookup is resolved, if its call still waits for it (R84: a withdrawn lookup is never resolved). -/
def resolveLookup (s : State) (k : Lookup) (o : LookupOutcome) : State :=
  match s.callOn k.line with
  | some c => if c.number = k.call ∧ c.phase = .lookup then actOnOutcome s k.line o else s
  | none => s

/-! ### Searching, fetching and the backlog -/

/-- The entry slot of a frame whose user name is the name looked up, WITHDRAWN entries apart (R81). -/
def searchFrame (x : Frame) (name : List Byte) : Option EntryNo :=
  (List.finRange 4).find? fun i =>
    match x.entries[i] with
    | some e => !e.withdrawn && decide (e.userName = name)
    | none => false

/-- The fetch slot that holds a fetch of a bucket (R80, case 1). -/
def fetchOf (s : State) (bucket : Nat) : Option SlotNo :=
  (List.finRange 4).find? fun i => decide (s.acc.slots[i].map FetchSlot.bucket = some bucket)

/-- The lowest-numbered free fetch slot (R82). -/
def freeSlot (s : State) : Option SlotNo := (List.finRange 4).find? fun i => s.acc.slots[i].isNone

/-- The frame a load fetch takes: the lowest-numbered EMPTY one, or the least recently used unpinned VALID one (R79). -/
def chooseFrame (s : State) : Option FrameNo :=
  match allFrames.find? fun f => decide ((s.frame f).st = .empty) with
  | some f => some f
  | none => s.acc.order.find? fun f => decide ((s.frame f).st = .valid) && decide ((s.frame f).pins = 0)

/-- A fetch slot replaced. -/
def State.setSlot (s : State) (i : SlotNo) (x : Option FetchSlot) : State :=
  { s with acc := { s.acc with slots := s.acc.slots.set i x } }

/-- A fetch of a bucket is issued into a free slot, its frame prepared, BUCKET FETCH enqueued, its timer started (R82). A frame
taken by a load loses its fresh marker: a DESIGN CHOICE (log entry 24). -/
def issueFetch (s : State) (i : SlotNo) (f : FrameNo) (kind : FetchKind) (k : Lookup) : State :=
  let s := s.setSlot i (some
    { bucket := k.bucket, frame := f, kind := kind, waiters := [k], timer := startTimer s.acc.wait })
  let s := match kind with
    | .load => s.modFrame f fun _ => { Frame.empty with st := .fetching .load, bucket := some k.bucket }
    | .merge => s.modFrame f fun x => { x with st := .fetching .merge }
  let s := { s with acc := { s.acc with fetches := bump s.acc.fetches } }
  enqueuePriority s (partFrame (.bucketFetch i k.bucket))

/-- What a placed lookup needs: nothing more, or a fetch into a frame (R80). -/
inductive Placement where
  | settled (s : State)
  | needs (s : State) (frame : Option FrameNo) (kind : FetchKind)

/-- A lookup is placed: the first of the four cases of R80 that applies. -/
def placeCases (s : State) (k : Lookup) : Placement :=
  match fetchOf s k.bucket with
  | some i =>
    .settled (s.setSlot i (s.acc.slots[i].map fun x => { x with waiters := x.waiters ++ [k] }))
  | none =>
    match findBucket s k.bucket with
    | none => .needs s (chooseFrame s) .load
    | some f =>
      match (s.frame f).st with
      | .refreshDue => .needs s (some f) .merge
      | _ =>
        let s := touchFrame s f
        match searchFrame (s.frame f) k.name with
        | some i => .settled (resolveLookup s k (.found (f, i)))
        | none =>
          if (s.frame f).fresh then .settled (resolveLookup s k .unknown)
          else .needs s (some f) (if (s.frame f).pins = 0 then .load else .merge)

/-- A lookup is placed and its fetch issued if it needs one and a slot is free. The flag says whether it is still to be
served: it needs a fetch that cannot be issued now (R80, R83). -/
def tryPlace (s : State) (k : Lookup) (backlogBlocks : Bool) : State × Bool :=
  match placeCases s k with
  | .settled s => (s, false)
  | .needs s f kind =>
    match f, freeSlot s with
    | some f, some i => if backlogBlocks then (s, true) else (issueFetch s i f kind k, false)
    | _, _ => (s, true)

/-- A lookup arrives from the Sign-On Engine (R80). -/
def arriveLookup (s : State) (k : Lookup) : State :=
  let s := { s with acc := { s.acc with lookups := bump s.acc.lookups } }
  let r := tryPlace s k (!s.acc.backlog.isEmpty)
  if r.2 then { r.1 with acc := { r.1.acc with backlog := r.1.acc.backlog ++ [k] } } else r.1

/-- The backlog is served from its head until a head lookup needs a fetch and no slot is free, at most `fuel` lookups (R83). -/
def serveBacklogLoop : Nat → State → State
  | 0, s => s
  | fuel + 1, s =>
    match s.acc.backlog with
    | [] => s
    | k :: rest =>
      let r := tryPlace { s with acc := { s.acc with backlog := rest } } k false
      if r.2 then { r.1 with acc := { r.1.acc with backlog := k :: r.1.acc.backlog } } else serveBacklogLoop fuel r.1

/-- The backlog is served: each lookup at most once (R83). -/
def serveBacklog (s : State) : State := serveBacklogLoop s.acc.backlog.length s

/-- Waiters are resolved UNAVAILABLE in the order they joined (R90). -/
def resolveUnavailable (s : State) (waiters : List Lookup) : State :=
  waiters.foldl (fun s k => resolveLookup s k .unavailable) s

/-- A fetch ends without data: the frame by kind and pins, every waiter UNAVAILABLE, the slot free (R90). -/
def failFetch (s : State) (i : SlotNo) (x : FetchSlot) : State :=
  let s :=
    match x.kind with
    | .load => emptyFrame s x.frame
    | .merge =>
      if (s.frame x.frame).pins = 0 then emptyFrame s x.frame else s.modFrame x.frame fun y => { y with st := .refreshDue }
  (resolveUnavailable s x.waiters).setSlot i none

end Sys2Proof.Machine
end

