-- ==== Sys2Proof/Machine/TakeOps.lean ====
section
/-! DEFINITION. The take of a host message (R7 to R9, R22): the head frame, the room its REPLY needs, the REPLY's place in the
priority lane ahead of the take's other effects, and the stale test of the session messages. -/

namespace Sys2Proof.Machine

/-- The head frame taken off the inbound queue, the take counted (R7, R15). -/
def popFrame (s : State) (rest : List InFrame) : State :=
  { s with hli := { s.hli with inQueue := rest, framesTaken := bump s.hli.framesTaken } }

/-- The head of the priority wait order and those behind it enter while the lane has places, `kept` of them left for a request
at the head of the inbound queue (R14). -/
def refillPriority (kept : Nat) (s : State) : State :=
  let places := Config.priorityDepth - kept - s.hli.prio.length
  { s with hli := { s.hli with
      prio := s.hli.prio ++ (s.hli.prioWait.take places).map (fixBody s), prioWait := s.hli.prioWait.drop places } }

/-- The head frame, if it is one of code `code` that can be taken now: not malformed, and with a place for its REPLY where the
code is replied (R7, R8). The state is the one after the take, before the message is carried out. A frame that needs no REPLY
has no claim on a free place, which the wait order's head then takes: a DESIGN CHOICE where a start of transmission had left
it the place (R14, log entry 9). -/
def takeFrame (s : State) (code : Nat) : Option (InFrame × State) :=
  match s.hli.inQueue with
  | [] => none
  | f :: rest =>
    if f.code = code ∧ frameForm f ≠ .malformed ∧
      (isReplied code = true → s.hli.prio.length < Config.priorityDepth) then
      some (f, if isReplied code then popFrame s rest else refillPriority 0 (popFrame s rest))
    else none

/-- The REPLY to a request: line tag and call number exactly as received (R9). -/
def replyFrame (f : InFrame) (a : Answer) : OutFrame := { tag := f.tag, call := f.call, msg := .reply f.code a }

/-- A frame placed in the priority lane. -/
def pushPriority (s : State) (f : OutFrame) : State :=
  { s with hli := { s.hli with prio := s.hli.prio ++ [f] } }

/-- Place `i` of the priority lane holds frame `f`. -/
def setPriority (s : State) (i : Nat) (f : OutFrame) : State :=
  { s with hli := { s.hli with prio := s.hli.prio.set i f } }

/-- A replied request is taken: its REPLY has its place before the take's other effects (R9), and carries the answer they
give. A request that is not at the head, or has no room for its REPLY, is not taken and nothing happens. -/
def takeReplied (s : State) (code : Nat) (carry : InFrame → State → State × Answer) : State :=
  match takeFrame s code with
  | none => s
  | some (f, t) =>
    let r := carry f (pushPriority t (replyFrame f .format))
    setPriority r.1 t.hli.prio.length (replyFrame f r.2)

/-- A request with a range check: REFUSED BAD VALUE with the index of the first bad field and no effect, or the effect (R10). -/
def checked (bad : Option Nat) (s : State) (carry : State → State × Answer) : State × Answer :=
  match bad with
  | some i => (s, .refused .badValue (.index i))
  | none => carry s

/-- The call that a session message names, unless the message is stale (R22): a record on its line, with its call number, in a
phase that accepts it. -/
def sessionCall (s : State) (f : InFrame) (accepts : Call → Bool) : Option Call :=
  match s.callOn (lineOf f) with
  | some c => if c.number = f.call ∧ accepts c = true then some c else none
  | none => none

/-- A session message is taken: discarded and counted if it is stale, carried out otherwise (R22). -/
def takeSession (s : State) (code : Nat) (accepts : Call → Bool) (carry : InFrame → LineNo → Call → State → State) : State :=
  match takeFrame s code with
  | none => s
  | some (f, t) =>
    match sessionCall t f accepts with
    | none => { t with stale := bump t.stale }
    | some c => carry f (lineOf f) c t

/-- OPEN ACCEPT and OPEN REFUSE are accepted in OPENING, and in ENDING with the open-outstanding flag set (Table 2.3). -/
def acceptsOpenAnswer (c : Call) : Bool :=
  decide (c.phase = .opening) || (decide (c.phase = .ending) && c.openOutstanding)

/-- HOST DATA and HOST CLOSE are accepted in CONNECTED (Table 2.3). -/
def acceptsCarriage (c : Call) : Bool := decide (c.phase = .connected)

end Sys2Proof.Machine
end

