-- ==== Sys2Proof/Machine/Link.lean ====
section
/-! DEFINITION. The commands of the host link and of power (R2 to R17): POWER_ON, INBOUND_FRAME_START, INBOUND_FRAME_END,
FRAME_MALFORMED, TRANSMISSION_START, FRAME_TRANSMITTED, OUTBOUND_HOLD_CHANGE. -/

namespace Sys2Proof.Machine

/-- Every block in its power-on state, the input pins at their levels and the waiting commands kept. -/
def powerOnState (s : State) (rx : Receiver) : State :=
  { State.reset with
    pending := s.pending
    hli := Hli.powerOn rx s.hli.outHold
    lines := Vector.ofFn fun l => Line.powerOn (s.line l).carrier (s.line l).rxLow }

/-- POWER_ON (R16, R30, R56, R75, R97, R119, R136, R148, R164, R180, R181): a frame-enable already asserted leaves the
receiver ignoring that partial frame. -/
def execPowerOn (s : State) : Host.Outcome State Fault Refusal :=
  .next (powerOnState s (if s.hli.rx = .idle then .idle else .ignoring))

/-- INBOUND_FRAME_START (R6): the inbound hold at the rise decides whether the frame is received or is an overrun frame. -/
def execInboundFrameStart (s : State) : Host.Outcome State Fault Refusal :=
  .next (if s.hli.rx = .idle then
    { s with hli := { s.hli with rx := if inboundHold s then .overrun else .receiving } } else s)

/-- The end of a frame that was received (R5): discarded with LINK FRAME, or appended to the inbound queue. -/
def endFrame (s : State) (bytes : List Byte) : State :=
  let s := { s with hli := { s.hli with rx := .idle } }
  match linkCheck bytes with
  | some detail =>
    raiseFault { s with hli := { s.hli with linkFrames := bump s.hli.linkFrames } } .linkFrame none none detail
  | none => { s with hli := { s.hli with inQueue := s.hli.inQueue ++ [frameOf bytes] } }

/-- The end of an overrun frame (R6). -/
def endOverrun (s : State) (bytes : List Byte) : State :=
  raiseFault { s with hli := { s.hli with rx := .idle, overruns := bump s.hli.overruns } } .inboundOverrun none none
    (byteCount bytes)

/-- INBOUND_FRAME_END (R2, R5, R6, R16). -/
def execInboundFrameEnd (bytes : List Byte) (s : State) : Host.Outcome State Fault Refusal :=
  .next (match s.hli.rx with
    | .idle => s
    | .receiving => endFrame s bytes
    | .overrun => endOverrun s bytes
    | .ignoring => { s with hli := { s.hli with rx := .idle } })

/-- The take of a malformed frame (R8): the REPLY with status FORMAT, the counter and MALFORMED. -/
def takeMalformed (s : State) (f : InFrame) (rest : List InFrame) : State :=
  let s := pushPriority (popFrame s rest) (replyFrame f .format)
  let s := { s with hli := { s.hli with formatErrors := bump s.hli.formatErrors } }
  if f.tag < 48 then raiseFault s .malformed (some (lineOf f)) (some f.call) f.code
  else raiseFault s .malformed none none f.code

/-- FRAME_MALFORMED (R8): the head frame is one whose form fails, or may fail where the spec leaves its layout open, and the
priority lane has a place for the REPLY (R7). -/
def execFrameMalformed (s : State) : Host.Outcome State Fault Refusal :=
  .next (match s.hli.inQueue with
    | [] => s
    | f :: rest =>
      if frameForm f ≠ .wellFormed ∧ s.hli.prio.length < Config.priorityDepth then takeMalformed s f rest else s)

/-- A frame that is replied, or may be as malformed, stands at the head of the inbound queue (R14, log entry 9). -/
def requestWaits (s : State) : Bool :=
  match s.hli.inQueue with
  | [] => false
  | f :: _ => mayNeedReply f

/-- The start of a priority frame (R12): the place it leaves is claimed by the wait order's head, or kept for the request at
the head of the inbound queue where that claim is taken first (R14). -/
def startPriority (s : State) (f : OutFrame) (rest : List OutFrame) (requestFirst : Bool) : State :=
  let s := { s with hli := { s.hli with prio := rest, tx := some (f, true) } }
  refillPriority (if requestFirst && requestWaits s then 1 else 0) s

/-- The head of the ordered wait order enters the place freed (R13). -/
def refillOrdered (s : State) : State :=
  match s.hli.ordWait with
  | [] => s
  | f :: rest => enqueueOrdered { s with hli := { s.hli with ordWait := rest } } f

/-- The start of an ordered frame (R12): the wait order's head enters, and a start that leaves 47 frames ends the congestion
and serves the forward wait list (R13, R123). -/
def startOrdered (s : State) (f : OutFrame) (rest : List OutFrame) : State :=
  let s := refillOrdered { s with hli := { s.hli with ord := rest, tx := some (f, true) } }
  if s.hli.ord.length + 1 = Config.congestedAt then serveForward s else s

/-- TRANSMISSION_START (R12, R13, R14, R123). -/
def execTransmissionStart (requestFirst : Bool) (s : State) : Host.Outcome State Fault Refusal :=
  .next (if s.hli.tx.isSome || s.hli.outHold then s
    else
      match s.hli.prio with
      | f :: rest => startPriority s f rest requestFirst
      | [] =>
        match s.hli.ord with
        | f :: rest => startOrdered s f rest
        | [] => s)

/-- A CLOSED has been transmitted: its call's slot is released and its billing record made (R172). That the release's arbiter
run comes before the record is a DESIGN CHOICE (log entry 33). -/
def closedTransmitted (s : State) (l : LineNo) (number : Nat) : State :=
  match s.callOn l with
  | none => s
  | some c =>
    if c.number = number ∧ c.phase = .ending ∧ c.closedSent = true then closeOut (releaseSlot s l) l else s

/-- FRAME_TRANSMITTED (R12, R17, R172). -/
def execFrameTransmitted (s : State) : Host.Outcome State Fault Refusal :=
  .next (match s.hli.tx with
    | none => s
    | some (f, live) =>
      let s := { s with hli := { s.hli with tx := none } }
      match f.msg with
      | .closed _ _ => if live then closedTransmitted s (Fin.ofNat 48 f.tag) f.call else s
      | _ => s)

/-- OUTBOUND_HOLD_CHANGE (R12): the level is sampled at the start of each frame. -/
def execOutboundHoldChange (asserted : Bool) (s : State) : Host.Outcome State Fault Refusal :=
  .next { s with hli := { s.hli with outHold := asserted } }

end Sys2Proof.Machine
end

