-- ==== Sys2Proof/Machine/Wire.lean ====
section
/-! DEFINITION. The bytes of outbound frames, for the bodies whose layout the spec states: the billing record (Table 1.8) and with it
BILL RECORD, CLOSED (R172), CREDIT (R126), ATTENTION (R132) and TERM DATA (R122). The other bodies are given as named
fields only and stay structured (log entry 14). -/

namespace Sys2Proof.Machine

/-- The end-cause codes (Table 1.10). -/
def causeCode : EndCause → Nat
  | .hangup => 0x01 | .hostClose => 0x02 | .allowance => 0x03 | .window => 0x04 | .hours => 0x05 | .idle => 0x06
  | .suspended => 0x07 | .lineDisabled => 0x08 | .serviceEnd => 0x09 | .queueTimeout => 0x0A | .hostDenied => 0x0B
  | .hostTimeout => 0x0C | .attempts => 0x0D | .noResponse => 0x0E | .directoryUnavailable => 0x0F | .refused => 0x10
  | .forcedRestart => 0x11

/-- A bit of the flags byte. -/
def flagBit (b : Bool) (weight : Nat) : Nat := if b then weight else 0

/-- The flags byte of a record (Table 1.8, byte 11). -/
def recordFlags (r : BillRecord) : Nat :=
  flagBit r.warned 1 + flagBit r.graceEntered 2 + flagBit r.tariffChanged 4 + flagBit r.neverConnected 8

/-- A time that rules make present, as day and second of the day; free where it is absent (log entry 12). -/
def presentTime (t : Option DayTime) : List Byte :=
  match t with
  | some t => bytesOf 1 t.day ++ bytesOf 3 t.second
  | none => bytesOf 1 Config.fieldWhenNone ++ bytesOf 3 Config.fieldWhenNone

/-- A time that may be absent: day FFh and second 0 then (Table 1.8). -/
def optionalTime (t : Option DayTime) : List Byte :=
  match t with
  | some t => bytesOf 1 t.day ++ bytesOf 3 t.second
  | none => bytesOf 1 0xFF ++ bytesOf 3 0

/-- The 37 bytes of a billing record (R19, Table 1.8). -/
def recordBytes (r : BillRecord) : List Byte :=
  bytesOf 2 r.number ++ bytesOf 3 r.account ++ bytesOf 1 r.line.val ++ bytesOf 2 r.call ++
  bytesOf 1 ((r.speed.map speedCode).getD Config.fieldWhenNone) ++
  bytesOf 1 ((r.cls.map Fin.val).getD Config.fieldWhenNone) ++
  bytesOf 1 ((r.endCause.map causeCode).getD Config.fieldWhenNone) ++
  bytesOf 1 (recordFlags r) ++ presentTime r.signOn ++ optionalTime r.connectAt ++ bytesOf 4 r.connectSecs ++
  bytesOf 3 r.queueSecs ++ bytesOf 4 r.charge ++ bytesOf 2 r.fadeSecs ++ bytesOf 2 r.residue ++ bytesOf 2 r.generation

/-- The message code of an outbound message (Table 1.3). -/
def messageCode : OutMsg → Nat
  | .reply _ _ => 0x81
  | .bucketFetch _ _ => 0xA1
  | .openRequest _ _ _ => 0xB0
  | .closed _ _ => 0xB1
  | .credit _ => 0xB2
  | .attention => 0xB3
  | .termData _ => 0xB8
  | .signOnFailed _ _ _ _ _ => 0xB9
  | .billRecord _ => 0xC0
  | .faultNotice _ => 0xD0
  | .surveyReport _ => 0xD1
  | .serviceNotice _ => 0xD2

/-- The bytes of a body, where the spec states its layout. -/
def bodyBytes : OutMsg → Option (List Byte)
  | .closed cause charge => some (bytesOf 1 ((cause.map causeCode).getD Config.fieldWhenNone) ++ bytesOf 4 charge)
  | .credit amount => some (bytesOf 2 amount)
  | .attention => some []
  | .termData chars => some chars
  | .billRecord r => some (recordBytes r)
  | .reply _ _ | .bucketFetch _ _ | .openRequest _ _ _ | .signOnFailed _ _ _ _ _ | .faultNotice _ | .surveyReport _
  | .serviceNotice _ => none

/-- The bytes of a whole outbound frame, CRC included, where the spec states its body's layout (R3, R4). -/
def wireBytes (f : OutFrame) : Option (List Byte) :=
  (bodyBytes f.msg).map fun b => frameBytes (messageCode f.msg) f.tag f.call b

end Sys2Proof.Machine
end

