-- ==== Sys2Proof/Machine/Billing.lean ====
section
/-! DEFINITION. The commands of the Billing Store: AUDIT_CLEAR (R179), BILL_READ (R177), BILL_RELEASE (R178, R190). -/

namespace Sys2Proof.Machine

/-- AUDIT_CLEAR (R179). -/
def execAuditClear (s : State) : Host.Outcome State Fault Refusal :=
  .next (takeReplied s 0x09 fun _ s =>
    ({ s with bst := { s.bst with auditCount := 0, auditCharge := 0 } },
      .done (.audit s.bst.auditCount s.bst.auditCharge)))

/-- BILL READ's answer for an index (R177). -/
def readRecord (s : State) (index : Nat) : Answer :=
  match s.bst.store[index]? with
  | some r => .done (.record (recordBytes r))
  | none => .refused .notFound .none

/-- BILL_READ (R177). -/
def execBillRead (index : Nat) (s : State) : Host.Outcome State Fault Refusal :=
  .next (takeReplied s 0x50 fun _ s => checked (firstBad [(0, decide (index ≤ 255))]) s fun s => (s, readRecord s index))

/-- Held calls are placed from the head of the held order, one for each free place; the state and their number (R178). -/
def placeHeld : List LineNo → State → State × Nat
  | [], s => (s, 0)
  | l :: rest, s =>
    if s.bst.store.length < Config.storeDepth then
      let r := placeHeld rest (placeRecord { s with bst := { s.bst with held := rest } } l)
      (r.1, r.2 + 1)
    else (s, 0)

/-- The first `n` records leave the store, with their pins (R178, step 1; R78). -/
def removeRecords (s : State) (n : Nat) : State :=
  let t := { s with bst := { s.bst with store := s.bst.store.drop n } }
  (s.bst.store.take n).foldl (fun s r => releasePins s r.entry) t

/-- BILL RELEASE carried out (R178). -/
def releaseRecords (s : State) (number : Nat) : State × Answer :=
  match s.bst.store.findIdx? fun r => decide (r.number = number) with
  | none => (s, .refused .notFound .none)
  | some i =>
    let t := removeRecords s (i + 1)
    let r := placeHeld t.bst.held t
    (r.1, .done (.released (i + 1) r.2))

/-- BILL_RELEASE (R178, R190). -/
def execBillRelease (number : Nat) (s : State) : Host.Outcome State Fault Refusal :=
  .next (takeReplied s 0x51 fun _ s =>
    checked (firstBad [(0, decide (1 ≤ number) && decide (number ≤ 65535))]) s fun s => releaseRecords s number)

end Sys2Proof.Machine
end

