-- ==== Sys2Proof/Machine/Service.lean ====
section
/-! DEFINITION. The commands of the Service and Fault Unit: SERVICE_OPEN, SERVICE_CLOSE (R181, R182), RESTART (R183, R17, R30),
STATUS_QUERY (R186), LINE_QUERY (R187), SURVEY_SET and SURVEY_TIMER_EXPIRY (R188), FAULT_CLEAR, FAULT_TEST, FAULT_MASK (R185). -/

namespace Sys2Proof.Machine

/-! ### Service state (R181, R182) -/

/-- The service state replaced. -/
def State.setService (s : State) (x : ServiceState) : State := { s with sfu := { s.sfu with service := x } }

/-- SERVICE OPEN carried out (R181): from HALTED only when the part is ready. -/
def openService (s : State) : State × Answer :=
  match s.sfu.service with
  | .opened => (s, .done (.service .opened))
  | .closing _ => (s.setService .opened, .done (.service .opened))
  | .halted =>
    if ready s then (s.setService .opened, .done (.service .opened))
    else (s, .refused .notReady (.notReady (!s.ctu.isSet) (decide (s.ctu.generation = 0)) (decide (s.acc.size = 0))))

/-- SERVICE_OPEN (R181). -/
def execServiceOpen (s : State) : Host.Outcome State Fault Refusal :=
  .next (takeReplied s 0x01 fun _ s => openService s)

/-- What leaving OPEN does to a line (R33): RING returns to IDLE, ANSWER goes to DROP. -/
def leaveOpenLine (s : State) (l : LineNo) : State :=
  match (s.line l).st with
  | .ring => s.modLine l fun x => { x with st := .idle, ringCount := 0, ringGap := none }
  | .answer => dropBare s l
  | _ => s

/-- The closing mode after a SERVICE CLOSE: END stays (R182). -/
def closingMode (was : ServiceState) (mode : CloseMode) : CloseMode :=
  match was with
  | .closing .endCalls => .endCalls
  | _ => mode

/-- The calls that a close in a mode ends: those in LOOKUP or QUEUED, or all (R182). -/
def closeReaches (s : State) (mode : CloseMode) (l : LineNo) : Bool :=
  match mode with
  | .finish => s.phaseIs l .lookup || s.phaseIs l .queued
  | .endCalls => (s.callOn l).isSome

/-- SERVICE CLOSE carried out while OPEN or CLOSING (R182). -/
def closeFrom (s : State) (was : ServiceState) (mode : CloseMode) : State × Answer :=
  let m := closingMode was mode
  let t := if was = .opened then allLines.foldl leaveOpenLine s else s
  let t := t.setService (.closing m)
  let u := haltIfDone (endAll t (allLines.filter fun l => closeReaches t m l) .serviceEnd)
  (u, .done (.closed (endedCount t u) u.sfu.service))

/-- SERVICE CLOSE carried out (R182). -/
def closeService (s : State) (mode : CloseMode) : State × Answer :=
  match s.sfu.service with
  | .halted => (s, .done (.closed 0 .halted))
  | was => closeFrom s was mode

/-- SERVICE_CLOSE (R182). -/
def execServiceClose (mode : CloseMode) (s : State) : Host.Outcome State Fault Refusal :=
  .next (takeReplied s 0x02 fun _ s => closeService s mode)

/-! ### Restart (R17, R30, R183) -/

/-- The call list of a RESTART FORCED (R30). -/
def callList (s : State) : List CallListItem :=
  allLines.filterMap fun l => (s.callOn l).map fun c =>
    { line := l, call := c.number, phase := c.phase, cause := c.endCause.getD .forcedRestart }

/-- RESTART NORMAL may be taken (R183). -/
def mayRestart (s : State) : Bool :=
  decide (s.sfu.service = .halted) && !s.anyCall && s.bst.store.isEmpty

/-- Every block in its power-on state, but for the calendar clock (R148), the frames in transmission and in reception (R17)
and what stands outside the part: the pins and the waiting commands. -/
def restartState (s : State) : State :=
  { State.reset with
    pending := s.pending
    hli := { Hli.powerOn s.hli.rx s.hli.outHold with tx := s.hli.tx.map fun x => (x.1, false) }
    lines := Vector.ofFn fun l => Line.powerOn (s.line l).carrier (s.line l).rxLow
    ctu := { Ctu.powerOn with
      day := s.ctu.day, hour := s.ctu.hour, minute := s.ctu.minute, second := s.ctu.second, isSet := s.ctu.isSet
      minuteDue := s.ctu.minuteDue } }

/-- The detail of a DONE reply to RESTART (R183). -/
def restartDetail (s : State) : Detail :=
  .restarted (callList s).length s.bst.store.length (callList s)

/-- RESTART (R183): its reply is the first frame of the emptied priority lane (R9, R17). -/
def execRestart (mode : RestartMode) (s : State) : Host.Outcome State Fault Refusal :=
  .next (match takeFrame s 0x03 with
    | none => s
    | some (f, t) =>
      if mode = .normal ∧ mayRestart t = false then pushPriority t (replyFrame f (.refused .state .none))
      else pushPriority (restartState t) (replyFrame f (.done (restartDetail t))))

/-! ### Status (R186) -/

/-- The index of a line state in the counts of STATUS QUERY, in the order of Table 3.1. -/
def lineStateIndex : LineState → Fin 8
  | .off => 0 | .idle => 1 | .ring => 2 | .answer => 3 | .speed => 4 | .up => 5 | .fade => 6 | .drop => 7

/-- The sum over all lines of a counter, saturating at 65535 (R55, R135). -/
def lineSum (s : State) (f : Line → Nat) : Nat := min (allLines.map fun l => f (s.line l)).sum Config.counterMax

/-- The part-wide counters of the reply (R186). -/
def counterReport (s : State) : CounterReport :=
  { linkFrames := s.hli.linkFrames, overruns := s.hli.overruns, formatErrors := s.hli.formatErrors
    framesTaken := s.hli.framesTaken, congestions := s.hli.congestions
    lookups := s.acc.lookups, fetches := s.acc.fetches, lateFetches := s.acc.lateFetches
    bucketErrors := s.acc.bucketErrors, fetchTimeouts := s.acc.timeouts
    grants := s.adm.grants, fullRefusals := s.adm.fullRefusals, denials := s.adm.denials
    openTimeouts := s.adm.openTimeouts, queueTimeouts := s.adm.queueTimeouts
    switches := s.ctu.switches, bandChanges := s.ctu.bandChanges, openings := s.ctu.openings
    activations := s.ctu.activations
    warnings := s.mtr.warnings, exhaustions := s.mtr.exhaustions, restorations := s.mtr.restorations
    fadeLumps := s.mtr.fadeLumps, placed := s.bst.placed, heldCount := s.bst.heldCount
    stale := s.stale, textDrops := s.soe.textDrops, faults := s.sfu.faults
    parityErrors := lineSum s fun x => x.ctr.parityErrors
    framingErrors := lineSum s fun x => x.ctr.framingErrors
    receiveOverruns := lineSum s fun x => x.ctr.overruns
    fadeExpiries := lineSum s fun x => x.ctr.fadeExpiries
    excess := lineSum s fun x => x.car.excess }

/-- The detail of the reply to STATUS QUERY, in a state whose priority lane ends with that reply's own place, which the
priority count leaves out (R186, log entry 13). -/
def statusReport (s : State) : StatusReport :=
  { service := s.sfu.service
    linesInState := Vector.ofFn fun i => allLines.countP fun l => decide (lineStateIndex (s.line l).st = i)
    fitted := s.fitted
    queued := Vector.ofFn fun k => s.adm.queues[k].length
    capacity := s.adm.capacity, reserve := s.adm.reserve, inUse := s.adm.inUse
    pinnedFrames := allFrames.countP fun f => decide (0 < (s.frame f).pins)
    busySlots := (List.finRange 4).countP fun i => s.acc.slots[i].isSome
    backlog := s.acc.backlog.length, size := s.acc.size
    storeCount := s.bst.store.length, heldOrder := s.bst.held.length, nextRecord := s.bst.nextRecord
    auditCount := s.bst.auditCount, auditCharge := s.bst.auditCharge
    generation := s.ctu.generation
    pendingTariff := s.ctu.waiting.map fun t => (t.activation, t.actDay, t.actMinute)
    band := s.ctu.band
    windowsOpen := Vector.ofFn fun i => s.ctu.windows[i].isOpen
    barred := s.ctu.barred, clock := s.ctu.now, clockSet := s.ctu.isSet
    inbound := s.hli.inQueue.length, priority := s.hli.prio.length - 1, ordered := s.hli.ord.length
    priorityWait := s.hli.prioWait.length, orderedWait := s.hli.ordWait.length
    forwardWaiting := s.forwardWait.length
    faultFull := s.sfu.record.isSome, mask := s.sfu.mask
    counters := counterReport s }

/-- Every part-wide counter and every per-line counter at 0 (R186). -/
def clearCounters (s : State) : State :=
  { s with
    hli := { s.hli with linkFrames := 0, overruns := 0, formatErrors := 0, framesTaken := 0, congestions := 0 }
    acc := { s.acc with lookups := 0, fetches := 0, lateFetches := 0, bucketErrors := 0, timeouts := 0 }
    adm := { s.adm with grants := 0, fullRefusals := 0, denials := 0, openTimeouts := 0, queueTimeouts := 0 }
    ctu := { s.ctu with switches := 0, bandChanges := 0, openings := 0, activations := 0 }
    mtr := Mtr.powerOn
    bst := { s.bst with placed := 0, heldCount := 0 }
    stale := 0
    soe := { s.soe with textDrops := 0 }
    sfu := { s.sfu with faults := Vector.replicate 8 0 }
    lines := Vector.ofFn fun l => { s.line l with ctr := LineCounters.zero, car := CarriageCounters.zero } }

/-- STATUS_QUERY (R186, R189). -/
def execStatusQuery (clear : Bool) (s : State) : Host.Outcome State Fault Refusal :=
  .next (takeReplied s 0x04 fun _ s => (if clear then clearCounters s else s, .done (.status (statusReport s))))

/-! ### Line query (R187) -/

/-- The place of a line on the forward wait list, from 1 (R135). -/
def forwardPlace (s : State) (l : LineNo) : Option Nat :=
  (s.forwardWait.findIdx? fun m => decide (m = l)).map fun i => i + 1

/-- The carriage state in the summary (R135). -/
def carriageSummary (s : State) (l : LineNo) (c : Call) : CarriageSummary :=
  { batchFill := c.batch.length, transmitFill := c.txBuf.length, credit := c.credit, notices := c.notices.length
    terminalStopped := c.terminalStopped, pendingFlow := c.pendingFlow, outputPaused := c.outputPaused, lastCR := c.lastCR
    forwardPlace := forwardPlace s l }

/-- The call record summary (R187). -/
def callSummary (s : State) (l : LineNo) (c : Call) : CallSummary :=
  { number := c.number, phase := c.phase, speed := c.speed, endCause := c.endCause, nameBuf := c.nameBuf
    attempts := c.attempts, attach := c.attach, cls := c.cls, queuePlace := queuePlace s l, queueSecs := c.queueSecs
    slotHeld := c.slotHeld, openOutstanding := c.openOutstanding
    timers := { queueWait := c.queueWait, announce := c.announce, openWait := c.openWait, drain := c.drain }
    signOn := c.signOn, connectAt := c.connectAt, pend := c.pend, graceEntered := c.graceEntered, meter := c.meter
    idle := c.idle, carriage := carriageSummary s l c, copy := c.copy }

/-- The detail of the reply to LINE QUERY (R187). -/
def lineReport (s : State) (l : LineNo) : LineReport :=
  let x := s.line l
  { st := x.st, disablePending := x.disablePending, fitted := isFitted s l, ringCount := x.ringCount, attempts := x.attempts
    lastWidth := x.lastWidth, settings := x.settings, ctr := x.ctr, car := x.car, call := x.call.map (callSummary s l) }

/-- LINE_QUERY (R187): answered for every line, fitted or not. -/
def execLineQuery (s : State) : Host.Outcome State Fault Refusal :=
  .next (takeReplied s 0x05 fun f s => (s, .done (.line (lineReport s (lineOf f)))))

/-! ### Survey (R188) -/

/-- The frame is a SURVEY REPORT. -/
def isSurvey (f : OutFrame) : Bool :=
  match f.msg with
  | .surveyReport _ => true
  | _ => false

/-- A SURVEY REPORT is produced, unless one already waits in the priority wait order (R188). -/
def produceSurvey (s : State) : State :=
  if s.hli.prioWait.any isSurvey then s else enqueuePriority s (partFrame (.surveyReport []))

/-- SURVEY SET carried out: an empty set stops the survey and withdraws a waiting report (R188). -/
def setSurvey (s : State) (lines : List LineNo) (period : Interval) : State :=
  let set := allLines.filter fun l => decide (l ∈ lines)
  if set = [] then
    { s with
      sfu := { s.sfu with surveyLines := [], surveyPeriod := period, surveyTimer := none }
      hli := { s.hli with prioWait := s.hli.prioWait.filter fun f => !isSurvey f } }
  else
    produceSurvey { s with sfu := { s.sfu with
      surveyLines := set, surveyPeriod := period, surveyTimer := startTimer period } }

/-- SURVEY_SET (R188). -/
def execSurveySet (lines : List LineNo) (period : Interval) (s : State) : Host.Outcome State Fault Refusal :=
  .next (takeReplied s 0x06 fun _ s =>
    checked (firstBad [(1, intervalOk period)]) s fun s => (setSurvey s lines period, .done .none))

/-- SURVEY_TIMER_EXPIRY (R188): a further report, and the timer restarts from the same period. -/
def execSurveyTimerExpiry (s : State) : Host.Outcome State Fault Refusal :=
  .next (if isDue s.sfu.surveyTimer then
    produceSurvey { s with sfu := { s.sfu with surveyTimer := startTimer s.sfu.surveyPeriod } } else s)

/-! ### Faults (R185) -/

/-- FAULT_CLEAR (R185). -/
def execFaultClear (s : State) : Host.Outcome State Fault Refusal :=
  .next (takeReplied s 0x07 fun _ s =>
    ({ s with sfu := { s.sfu with record := none, further := false } },
      .done (.faultRecord s.sfu.record s.sfu.further)))

/-- What a FAULT TEST does in a state (R185). -/
def testOutcome (s : State) (kind : FaultKind) : TestOutcome :=
  if s.sfu.mask[faultIndex kind] then .masked else if s.sfu.record.isSome then .further else .filled

/-- FAULT_TEST (R185). -/
def execFaultTest (kind : FaultKind) (s : State) : Host.Outcome State Fault Refusal :=
  .next (takeReplied s 0x08 fun _ s => (raiseFault s kind none none 0 true, .done (.faultTest (testOutcome s kind))))

/-- The mask that a set of kinds makes. -/
def maskOf (kinds : List FaultKind) : Vector Bool 8 :=
  Vector.ofFn fun i => kinds.any fun k => decide (faultIndex k = i)

/-- FAULT_MASK (R185). -/
def execFaultMask (kinds : List FaultKind) (s : State) : Host.Outcome State Fault Refusal :=
  .next (takeReplied s 0x0A fun _ s => ({ s with sfu := { s.sfu with mask := maskOf kinds } }, .done .none))

end Sys2Proof.Machine
end

