-- ==== Sys2Proof/Machine/LineUnit.lean ====
section
/-! DEFINITION. The commands of the Line Unit that concern a line's state and settings (R31 to R40, R46 to R54): LINE_SET,
LINE_ENABLE, LINE_DISABLE, LINES_FITTED, RING, RING_GAP_EXPIRY, CARRIER_ARRIVAL, ANSWER_WAIT_EXPIRY, WIDTH_MEASURED,
WIDTH_COUNTER_OVERFLOW, SPEED_WAIT_EXPIRY, RECEIVE_DATA_RISE, CARRIER_LOSS, CARRIER_RETURN, HOLDOVER_EXPIRY,
DROP_GUARD_PASSED. -/

namespace Sys2Proof.Machine

/-! ### Settings (R51, R52, R129) -/

/-- The flow control field of a call's copy takes a new value, and the flow state is adjusted (R129). -/
def changeFlow (c : Call) (on : Bool) : Call :=
  if c.copy.flowControl = on then c
  else
    let c := { c with copy := { c.copy with flowControl := on } }
    if on then c
    else
      { c with outputPaused := false, terminalStopped := false
               pendingFlow := if c.terminalStopped then dueFlow c.pendingFlow .xon else c.pendingFlow }

/-- LINE SET carried out on a line below N (R51, R52). -/
def setLineSettings (s : State) (l : LineNo) (settings : LineSettings) : State :=
  (s.modLine l fun x => { x with settings := settings }).modCall l fun c => changeFlow c settings.flowControl

/-- LINE_SET (R51). -/
def execLineSet (settings : LineSettings) (s : State) : Host.Outcome State Fault Refusal :=
  .next (takeReplied s 0x10 fun f s =>
    if isFitted s (lineOf f) then
      checked (lineSetBad settings) s fun s => (setLineSettings s (lineOf f) settings, .done .none)
    else (s, .refused .noLine .none))

/-! ### Enabling and disabling (R32, R53, R54) -/

/-- LINE ENABLE carried out on a line below N (R53). -/
def enableLine (s : State) (l : LineNo) : State :=
  if (s.line l).st = .off then s.modLine l fun x => { x with st := .idle, ringCount := 0 } else s

/-- LINE_ENABLE (R53). -/
def execLineEnable (s : State) : Host.Outcome State Fault Refusal :=
  .next (takeReplied s 0x11 fun f s =>
    if isFitted s (lineOf f) then
      (enableLine s (lineOf f), .done (.lineState ((enableLine s (lineOf f)).line (lineOf f)).st))
    else (s, .refused .noLine .none))

/-- A line with no call record goes OFF at once from IDLE, RING, ANSWER or DROP (R32, R54). -/
def bareOff (s : State) (l : LineNo) : State :=
  if s.callOn l = none then
    match (s.line l).st with
    | .idle | .ring | .answer | .drop => goOff s l
    | .off | .speed | .up | .fade => s
  else s

/-- LINE DISABLE carried out (R54). -/
def disableLine (s : State) (l : LineNo) (mode : DisableMode) : State :=
  match s.callOn l with
  | none => bareOff s l
  | some _ =>
    let s := s.modLine l fun x => { x with disablePending := true }
    match mode with
    | .now => endCall s l .lineDisabled
    | .afterCall => s

/-- LINE_DISABLE (R54): carried out for every line, fitted or not. -/
def execLineDisable (mode : DisableMode) (s : State) : Host.Outcome State Fault Refusal :=
  .next (takeReplied s 0x12 fun f s =>
    (disableLine s (lineOf f) mode, .done (.lineState ((disableLine s (lineOf f) mode).line (lineOf f)).st)))

/-- LINES FITTED carried out for N in range (R32). -/
def setFitted (s : State) (n : Nat) : State :=
  let past := allLines.filter fun l => decide (n ≤ l.val)
  let t := { s with fitted := n }
  if n < s.fitted then endAll (past.foldl bareOff t) past .lineDisabled else t

/-- LINES_FITTED (R32). -/
def execLinesFitted (n : Nat) (s : State) : Host.Outcome State Fault Refusal :=
  .next (takeReplied s 0x13 fun _ s =>
    checked (linesFittedBad n) s fun s => (setFitted s n, .done (.count (endedCount s (setFitted s n)))))

/-! ### Ringing and answering (R34 to R37) -/

/-- The call's copy, every setting of the line but answer-after and answer wait (R52), starts speed measurement or the dialogue,
as its speed setting says (R36, R40, R60). `dataLow` is the
level of receive data at that moment (R38). -/
def carrierInAnswer (s : State) (l : LineNo) (dataLow : Bool) : State :=
  let copy := (s.line l).settings.toCallSettings
  let s := s.modLine l fun x => { x with answerWait := none, carrier := true, rxLow := dataLow, zeroHeld := false }
  match copy.speed with
  | none =>
    createCall (s.modLine l fun x =>
      { x with st := .speed, attempts := 0, speedWait := startTimerAtLeastOne copy.speedWait, rxWait := dataLow })
      l .speed none copy
  | some v => startDialogue (createCall (s.modLine l fun x => { x with st := .up, rxWait := false }) l .name (some v) copy) l

/-- Entry to ANSWER (R34, R36): carrier already active then is carrier arriving, and `dataLow` is the level of receive data. -/
def enterAnswer (s : State) (l : LineNo) (dataLow : Bool) : State :=
  let s := s.modLine l fun x =>
    { x with st := .answer, ringCount := 0, ringGap := none, answerWait := startTimerAtLeastOne x.settings.answerWait }
  let s := s.modCounters l fun k => { k with answers := bump k.answers }
  if (s.line l).carrier then carrierInAnswer s l dataLow else s

/-- A ring counted: the count, the rings counter and the ring gap, then the comparison with answer-after (R34). -/
def countRing (s : State) (l : LineNo) (dataLow : Bool) (count : Nat) : State :=
  let s := s.modLine l fun x => { x with st := .ring, ringCount := count, ringGap := some Config.ringGapSeconds, rxLow := dataLow }
  let s := s.modCounters l fun k => { k with rings := bump k.rings }
  if 1 ≤ (s.line l).settings.answerAfter ∧ (s.line l).settings.answerAfter ≤ count then enterAnswer s l dataLow else s

/-- RING (R33, R34). -/
def execRing (rise : LineRise) (s : State) : Host.Outcome State Fault Refusal :=
  .next (if isFitted s rise.line = false then s
    else
      match (s.line rise.line).st with
      | .idle => if serviceOpen s then countRing s rise.line rise.dataLow 1 else s
      | .ring => countRing s rise.line rise.dataLow (min ((s.line rise.line).ringCount + 1) 15)
      | .off | .answer | .speed | .up | .fade | .drop => s)

/-- RING_GAP_EXPIRY (R35). -/
def execRingGapExpiry (l : LineNo) (s : State) : Host.Outcome State Fault Refusal :=
  .next (if (s.line l).st = .ring ∧ isDue (s.line l).ringGap = true then
    s.modLine l fun x => { x with st := .idle, ringCount := 0, ringGap := none } else s)

/-- ANSWER_WAIT_EXPIRY (R37). -/
def execAnswerWaitExpiry (l : LineNo) (s : State) : Host.Outcome State Fault Refusal :=
  .next (if (s.line l).st = .answer ∧ isDue (s.line l).answerWait = true then
    dropBare (s.modCounters l fun k => { k with answerFailures := bump k.answerFailures }) l else s)

/-! ### Speed measurement (R38 to R40) -/

/-- The nominal bit width of a speed, in sample-clock ticks: floor(153600 / speed) (Table 3.3). -/
def nominalWidth : Speed → Nat
  | .b110 => 1396 | .b150 => 1024 | .b300 => 512 | .b600 => 256 | .b1200 => 128 | .b2400 => 64 | .b4800 => 32 | .b9600 => 16

/-- A speed accepts a width within one eighth of its nominal width (R39). -/
def speedAccepts (width : Nat) (v : Speed) : Bool :=
  decide (((width : Int) - nominalWidth v).natAbs * 8 ≤ nominalWidth v)

/-- The eight speeds. -/
def allSpeeds : List Speed := [.b110, .b150, .b300, .b600, .b1200, .b2400, .b4800, .b9600]

/-- The speed that accepts a width, if one does (R39). -/
def classifyWidth (width : Nat) : Option Speed := allSpeeds.find? (speedAccepts width)

/-- A speed is accepted: the line goes to UP, the call takes the speed and enters NAME (R40, R60). -/
def acceptSpeed (s : State) (l : LineNo) (v : Speed) : State :=
  let s := s.modLine l fun x => { x with st := .up, speedWait := none }
  startDialogue (s.modCall l fun c => { c with speed := some v }) l

/-- A failed attempt; the third ends the call with NO RESPONSE (R40). -/
def failAttempt (s : State) (l : LineNo) : State :=
  let s := s.modLine l fun x => { x with attempts := x.attempts + 1 }
  let s := s.modCounters l fun k => { k with autobaudFailures := bump k.autobaudFailures }
  if 3 ≤ (s.line l).attempts then endCall s l .noResponse else s

/-- A measurement that ended with a width that is no noise: kept as the last width, and classified (R38, R39). -/
def takeWidth (s : State) (l : LineNo) (width : Nat) : State :=
  let s := s.modLine l fun x => { x with lastWidth := width }
  match classifyWidth width with
  | some v => acceptSpeed s l v
  | none => failAttempt s l

/-- WIDTH_MEASURED (R38, R39): a width below 8 is noise. -/
def execWidthMeasured (l : LineNo) (width : Fin 4096) (s : State) : Host.Outcome State Fault Refusal :=
  .next (if (s.line l).st = .speed ∧ (s.line l).rxWait = false then
    let s := s.modLine l fun x => { x with widthCounter := width.val, rxLow := false }
    if width.val < 8 then s else takeWidth s l width.val
  else s)

/-- WIDTH_COUNTER_OVERFLOW (R38): the line waits for receive data to rise, and the overflow is a failed attempt. -/
def execWidthCounterOverflow (l : LineNo) (s : State) : Host.Outcome State Fault Refusal :=
  .next (if (s.line l).st = .speed ∧ (s.line l).rxWait = false then
    failAttempt (s.modLine l fun x =>
      { x with widthCounter := 4095, lastWidth := 4096, rxLow := true, rxWait := true }) l
  else s)

/-- SPEED_WAIT_EXPIRY (R40). -/
def execSpeedWaitExpiry (l : LineNo) (s : State) : Host.Outcome State Fault Refusal :=
  .next (if (s.line l).st = .speed ∧ isDue (s.line l).speedWait = true then endCall s l .noResponse else s)

/-- RECEIVE_DATA_RISE (R38, R43): a wait for a high is over, and a zero character still undecided is no BREAK: it is discarded
and counted as a framing error. -/
def execReceiveDataRise (l : LineNo) (s : State) : Host.Outcome State Fault Refusal :=
  .next (
    let t := s.modLine l fun x => { x with rxWait := false, rxLow := false, zeroHeld := false }
    if (s.line l).st = .up ∧ (s.line l).zeroHeld = true then
      t.modCounters l fun k => { k with framingErrors := bump k.framingErrors }
    else t)

/-! ### Carrier loss, holdover and drop (R46 to R50) -/

/-- A loss of carrier is counted and the pin's level known (R55). -/
def countCarrierLoss (s : State) (l : LineNo) : State :=
  (s.modLine l fun x => { x with carrier := false }).modCounters l fun k => { k with carrierLosses := bump k.carrierLosses }

/-- Entry to FADE (R46, R154). That a zero character still held undecided is discarded uncounted is a DESIGN CHOICE (log entry
42). -/
def enterFade (s : State) (l : LineNo) (holdover : Interval) : State :=
  let s := s.modLine l fun x =>
    { x with st := .fade, holdover := startTimer holdover, rxWait := false, zeroHeld := false }
  let s := s.modCounters l fun k => { k with fades := bump k.fades }
  s.modCall l fun c => { c with meter := { c.meter with fadeSecs := 0 } }

/-- The loss of carrier on a line in SPEED or UP, by the state of its call (R46, R49). -/
def loseCarrier (s : State) (l : LineNo) : State :=
  match s.callOn l with
  | none => dropBare s l
  | some c =>
    if c.endCause.isSome then dropLine s l
    else if c.phase = .connected ∧ (s.line l).st = .up ∧ 0 < c.copy.holdover.count then enterFade s l c.copy.holdover
    else endCallLost s l .hangup

/-- CARRIER_LOSS (R46, R49). A step that is complete but not yet charged is charged first (log entry 4). -/
def execCarrierLoss (l : LineNo) (s : State) : Host.Outcome State Fault Refusal :=
  let s := completeStep endCall s l
  .next (match (s.line l).st with
    | .speed | .up => loseCarrier (countCarrierLoss s l) l
    | .fade => countCarrierLoss s l
    | .off | .idle | .ring | .answer | .drop => s.modLine l fun x => { x with carrier := false })

/-- The fade lump is charged at the frozen rate (R155); the fade seconds are 0 and the connect seconds risen when the charge
is evaluated. -/
def chargeFade (s : State) (l : LineNo) : State :=
  match s.callOn l with
  | none => s
  | some c =>
    let f := c.meter.fadeSecs
    let s := s.modCall l fun c =>
      { c with meter := { c.meter with fadeSecs := 0, connectSecs := c.meter.connectSecs + f } }
    let s := { s with mtr := { s.mtr with fadeLumps := if 1 ≤ f then bump s.mtr.fadeLumps else s.mtr.fadeLumps } }
    chargeUnitSeconds endCall s l (c.meter.stepRate * f)

/-- The return of carrier to a line in FADE (R47, R155). -/
def returnCarrier (s : State) (l : LineNo) (dataLow : Bool) : State :=
  let s := s.modLine l fun x =>
    { x with st := .up, carrier := true, rxLow := dataLow, holdover := none, rxWait := false, zeroHeld := false }
  chargeFade (s.modCounters l fun k => { k with fadeReturns := bump k.fadeReturns }) l

/-- A rise of carrier-detect, by the state that it finds the line in: a call in ANSWER (R36), the return in FADE (R47), and in
OFF, IDLE, RING and DROP the level of the pin, which an entry to ANSWER looks for (R36, R48, R49). In SPEED and UP carrier
is active already (log entry 19). -/
def raiseCarrier (s : State) (l : LineNo) (dataLow : Bool) : State :=
  match (s.line l).st with
  | .answer => carrierInAnswer s l dataLow
  | .fade => returnCarrier s l dataLow
  | .off | .idle | .ring | .drop => s.modLine l fun x => { x with carrier := true, rxLow := dataLow }
  | .speed | .up => s

/-- CARRIER_ARRIVAL (R36): a rise of carrier-detect. -/
def execCarrierArrival (l : LineNo) (dataLow : Bool) (s : State) : Host.Outcome State Fault Refusal :=
  .next (raiseCarrier s l dataLow)

/-- CARRIER_RETURN (R47): a rise of carrier-detect, which a line that has left FADE meanwhile takes as its state says (R48). -/
def execCarrierReturn (rise : LineRise) (s : State) : Host.Outcome State Fault Refusal :=
  .next (raiseCarrier s rise.line rise.dataLow)

/-- HOLDOVER_EXPIRY (R48). -/
def execHoldoverExpiry (l : LineNo) (s : State) : Host.Outcome State Fault Refusal :=
  .next (if (s.line l).st = .fade ∧ isDue (s.line l).holdover = true then
    endCall (s.modCounters l fun k => { k with fadeExpiries := bump k.fadeExpiries }) l .hangup
  else s)

/-- DROP_GUARD_PASSED (R50): the line leaves DROP if its call record is gone. -/
def execDropGuardPassed (l : LineNo) (s : State) : Host.Outcome State Fault Refusal :=
  .next (if (s.line l).st = .drop ∧ isDue (s.line l).dropGuard = true then
    let s := s.modLine l fun x => { x with dropGuard := none }
    if s.callOn l = none then leaveDrop s l else s
  else s)

end Sys2Proof.Machine
end

