-- ==== Sys2Proof/Machine/Dialogue.lean ====
section
/-! DEFINITION. The commands of the Sign-On Engine: TEXT_LOAD (R58), DIALOGUE_SET (R74), FIELD_TIMER_EXPIRY (R66), and what a
character or a BREAK delivered in NAME or PASSWORD does (R61 to R66). -/

namespace Sys2Proof.Machine

/-- The slot number of a TEXT LOAD body (R58, field 0). -/
def textSlot (body : List Byte) : Nat := numberOf (field body 0 1)

/-- The characters of a TEXT LOAD body (R58, field 2); the body's form has checked that they are L many. -/
def textBody (body : List Byte) : List Byte := body.drop 2

/-- TEXT_LOAD (R58). -/
def execTextLoad (s : State) : Host.Outcome State Fault Refusal :=
  .next (takeReplied s 0x14 fun f s =>
    checked (textLoadBad (textSlot f.body) (textBody f.body)) s fun s =>
      ({ s with soe := { s.soe with texts := s.soe.texts.set (Fin.ofNat 24 (textSlot f.body)) (textBody f.body) } },
        .done .none))

/-- DIALOGUE_SET (R74). -/
def execDialogueSet (attemptLimit : Nat) (fieldTimeout drainLimit : Interval) (s : State) :
    Host.Outcome State Fault Refusal :=
  .next (takeReplied s 0x15 fun _ s =>
    checked (dialogueSetBad attemptLimit fieldTimeout drainLimit) s fun s =>
      ({ s with soe := { s.soe with
          attemptLimit := attemptLimit, fieldTimeout := fieldTimeout, drainLimit := drainLimit } }, .done .none))

/-- FIELD_TIMER_EXPIRY (R66). -/
def execFieldTimerExpiry (l : LineNo) (s : State) : Host.Outcome State Fault Refusal :=
  .next (match s.callOn l with
    | none => s
    | some c =>
      if (c.phase = .name ∨ c.phase = .password) ∧ isDue c.fieldTimer = true then endCall s l .noResponse else s)

/-! ### Field input (R61 to R66) -/

/-- The field timer restarts, reading its setting again (R66). -/
def restartField (s : State) (l : LineNo) : State :=
  s.modCall l fun c => { c with fieldTimer := startTimer s.soe.fieldTimeout }

/-- A lower-case letter folded to upper case (Table 4.2). -/
def upperCase (ch : Byte) : Byte := if 0x61 ≤ ch ∧ ch ≤ 0x7A then ch - 0x20 else ch

/-- A character of the field's own text in NAME (Table 4.2). -/
def nameInput (s : State) (l : LineNo) (c : Call) (ch : Byte) : State :=
  if isNameChar (upperCase ch) = true ∧ c.nameBuf.length < 8 then
    placeChars (s.modCall l fun c => { c with nameBuf := c.nameBuf ++ [upperCase ch] }) l [upperCase ch]
  else placeChars s l [chBEL]

/-- A character of the field's own text in PASSWORD (R64). -/
def passwordInput (s : State) (l : LineNo) (c : Call) (ch : Byte) : State :=
  if 0x20 ≤ ch ∧ ch ≤ 0x7E ∧ c.pwBuf.length < 12 then s.modCall l fun c => { c with pwBuf := c.pwBuf ++ [ch] }
  else placeChars s l [chBEL]

/-- CR in NAME (R63). -/
def endName (s : State) (l : LineNo) (c : Call) : State :=
  if c.nameBuf = [] then placeText s l 1
  else placeText (s.modCall l fun c => { c with phase := .password, pwBuf := [] }) l 2

/-- CR in PASSWORD (R65): the lookup, or the end of a call that finds the service not open. -/
def endPassword (s : State) (l : LineNo) (c : Call) : State :=
  let s := s.modCall l fun c => { c with phase := .lookup, fieldTimer := none }
  if serviceOpen s then
    arriveLookup s { line := l, call := c.number, name := padName c.nameBuf, bucket := nameHash c.nameBuf % s.acc.size }
  else endCall (placeText s l 22) l .serviceEnd

/-- BS or DEL in NAME (R62). -/
def eraseName (s : State) (l : LineNo) (c : Call) : State :=
  if c.nameBuf = [] then placeChars s l [chBEL]
  else placeChars (s.modCall l fun c => { c with nameBuf := c.nameBuf.dropLast }) l [chBS, chSpace, chBS]

/-- BS or DEL in PASSWORD (R62). -/
def erasePassword (s : State) (l : LineNo) (c : Call) : State :=
  if c.pwBuf = [] then placeChars s l [chBEL] else s.modCall l fun c => { c with pwBuf := c.pwBuf.dropLast }

/-- CAN or a BREAK in NAME (R62). -/
def clearName (s : State) (l : LineNo) : State := placeText (s.modCall l fun c => { c with nameBuf := [] }) l 1

/-- CAN or a BREAK in PASSWORD (R62). -/
def clearPasswordField (s : State) (l : LineNo) : State := placeText (s.modCall l fun c => { c with pwBuf := [] }) l 2

/-- LF, XON and XOFF are discarded in the dialogue (R62). -/
def isDiscarded (ch : Byte) : Bool := decide (ch = chLF) || decide (ch = chXON) || decide (ch = chXOFF)

/-- A character delivered in NAME (R61 to R63). -/
def nameCharacter (s : State) (l : LineNo) (c : Call) (ch : Byte) : State :=
  let s := restartField s l
  if ch = chCR then endName s l c
  else if isDiscarded ch then s
  else if ch = chBS ∨ ch = chDEL then eraseName s l c
  else if ch = chCAN then clearName s l
  else nameInput s l c ch

/-- A character delivered in PASSWORD (R62, R64, R65). -/
def passwordCharacter (s : State) (l : LineNo) (c : Call) (ch : Byte) : State :=
  let s := restartField s l
  if ch = chCR then endPassword s l c
  else if isDiscarded ch then s
  else if ch = chBS ∨ ch = chDEL then erasePassword s l c
  else if ch = chCAN then clearPasswordField s l
  else passwordInput s l c ch

end Sys2Proof.Machine
end

