-- ==== Sys2Proof/Machine/Carriage.lean ====
section
/-! DEFINITION. The commands that move characters: RECEIVED_CHARACTER, ZERO_CHARACTER_ENDED, BREAK (R41 to R44, R23, R120, R128,
R132), TRANSMITTER_FREE (R45, R127, R131), HOST_DATA (R125), HOST_CLOSE (R133), BATCH_GAP_EXPIRY (R121). -/

namespace Sys2Proof.Machine

/-! ### The receiver (R41 to R43) -/

/-- The data bits of a format, in the character as delivered: seven with the high bit 0, or eight (R41). -/
def dataBits (format : DataFormat) (bits : Byte) : Byte :=
  match format with
  | .none8 => bits
  | .even7 | .odd7 | .mark7 | .space7 => bits &&& 0x7F

/-- The number of ones in a byte. -/
def onesOf (b : Byte) : Nat := (List.finRange 8).countP fun i => b.getLsbD i.val

/-- The parity bit disagrees with the format (R42). -/
def parityWrong (format : DataFormat) (data : Byte) (parity : Bool) : Bool :=
  match format with
  | .even7 => decide ((onesOf data + flagBit parity 1) % 2 = 1)
  | .odd7 => decide ((onesOf data + flagBit parity 1) % 2 = 0)
  | .mark7 => !parity
  | .space7 => parity
  | .none8 => false

/-! ### Delivery to a connected call (R120, R121, R124, R128, R132) -/

/-- The idle timer restarts, reading the class idle limit (R28). -/
def restartIdle (s : State) (l : LineNo) : State :=
  s.modCall l fun c => { c with idle := startTimer s.adm.classes[c.classNow].idleLimit }

/-- The character is a flow command for the call (R120). -/
def isFlowCommand (c : Call) (ch : Byte) : Bool :=
  c.copy.flowControl && (decide (ch = chXON) || decide (ch = chXOFF))

/-- A character is one of the forwarding characters of the copy (R121). -/
def isForwarding (copy : CallSettings) (ch : Byte) : Bool := (copy.forwardChars.toList.take copy.forwardCount).contains ch

/-- A character appended to the batch: the gap restarts, and the flow threshold is tested (R120, R121, R124). -/
def appendBatch (c : Call) (ch : Byte) : Call :=
  let batch := c.batch ++ [ch]
  let stop := c.copy.flowControl && !c.terminalStopped && decide (Config.flowThreshold ≤ batch.length)
  { c with
    batch := batch
    batchGap := if c.forwardDue then none else some c.copy.batchGap
    terminalStopped := c.terminalStopped || stop
    pendingFlow := if stop then dueFlow c.pendingFlow .xoff else c.pendingFlow }

/-- A forwarding condition that an appended character can meet (R121). -/
def meetsForwarding (c : Call) (ch : Byte) : Bool :=
  decide (c.batch.length = c.copy.forwardSize) || isForwarding c.copy ch

/-- A character stored: appended to the batch, which may then become due (R120, R121). -/
def storeCharacter (s : State) (l : LineNo) (c : Call) (ch : Byte) : State :=
  let s := s.modCall l fun c => appendBatch c ch
  if meetsForwarding (appendBatch c ch) ch then batchDue s l else s

/-- A character delivered to a connected call (R120, R28, R128, R44). -/
def connectedCharacter (s : State) (l : LineNo) (c : Call) (ch : Byte) : State :=
  let s := restartIdle s l
  if isFlowCommand c ch then s.modCall l fun c => { c with outputPaused := decide (ch = chXOFF) }
  else if c.batch.length < Config.batchDepth then storeCharacter s l c ch
  else s.modCounters l fun k => { k with overruns := bump k.overruns }

/-- An earlier ATTENTION of the call still waits in the priority wait order (R132). -/
def attentionWaits (s : State) (l : LineNo) (c : Call) : Bool :=
  s.hli.prioWait.any fun f => decide (f = { tag := l.val, call := c.number, msg := .attention })

/-- The attention flush (R132). -/
def attentionFlush (s : State) (l : LineNo) : State :=
  grantTest (s.modCall l fun c => { c with txBuf := [], lastCR := false }) l

/-- A BREAK delivered to a connected call (R132, R28). -/
def connectedBreak (s : State) (l : LineNo) (c : Call) : State :=
  let s := restartIdle s l
  let s := if attentionWaits s l c then s
    else (enqueuePriority s (callFrame s l .attention)).modCarriage l fun k => { k with attentions := bump k.attentions }
  if c.copy.attentionFlush then attentionFlush s l else s

/-! ### Delivery by phase (R23) -/

/-- A character the receiver has produced goes where the phase says (Table 2.5). -/
def deliverCharacter (s : State) (l : LineNo) (ch : Byte) : State :=
  match s.callOn l with
  | none => s
  | some c =>
    match c.phase with
    | .name => nameCharacter s l c ch
    | .password => passwordCharacter s l c ch
    | .connected => connectedCharacter s l c ch
    | .speed | .lookup | .queued | .opening | .ending | .held => s

/-- A BREAK the receiver has produced goes where the phase says (Table 2.5, R62, R66). -/
def deliverBreak (s : State) (l : LineNo) : State :=
  match s.callOn l with
  | none => s
  | some c =>
    match c.phase with
    | .name => clearName (restartField s l) l
    | .password => clearPasswordField (restartField s l) l
    | .connected => connectedBreak s l c
    | .speed | .lookup | .queued | .opening | .ending | .held => s

/-- A framing error is counted (R43). -/
def countFraming (s : State) (l : LineNo) : State :=
  s.modCounters l fun k => { k with framingErrors := bump k.framingErrors }

/-- A character with a high stop bit: replaced by SUB and counted if its parity is wrong, then delivered (R42, R44). -/
def goodStop (s : State) (l : LineNo) (format : DataFormat) (data : Byte) (parity : Bool) : State :=
  if parityWrong format data parity then
    deliverCharacter (s.modCounters l fun k => { k with parityErrors := bump k.parityErrors }) l chSUB
  else deliverCharacter s l data

/-- A character with a low stop bit: held undecided if every data bit is 0, discarded and counted otherwise (R43). -/
def lowStop (s : State) (l : LineNo) (data : Byte) : State :=
  if data = 0 then s.modLine l fun x => { x with zeroHeld := true, rxLow := true }
  else countFraming (s.modLine l fun x => { x with rxLow := true }) l

/-- RECEIVED_CHARACTER (R41 to R44): on a line in UP whose receiver is neither waiting for a high nor holding a zero character. -/
def execReceivedCharacter (l : LineNo) (bits : Byte) (parity stop : Bool) (s : State) :
    Host.Outcome State Fault Refusal :=
  .next (match s.callOn l with
    | none => s
    | some c =>
      if (s.line l).st = .up ∧ (s.line l).rxWait = false ∧ (s.line l).zeroHeld = false then
        if stop then
          goodStop (s.modLine l fun x => { x with rxLow := false }) l c.copy.format (dataBits c.copy.format bits) parity
        else lowStop s l (dataBits c.copy.format bits)
      else s)

/-- ZERO_CHARACTER_ENDED (R43). -/
def execZeroCharacterEnded (l : LineNo) (s : State) : Host.Outcome State Fault Refusal :=
  .next (if (s.line l).st = .up ∧ (s.line l).zeroHeld = true then
    countFraming (s.modLine l fun x => { x with zeroHeld := false, rxLow := false }) l else s)

/-- BREAK (R43, R44): the break event is counted and delivered, and the receiver waits for a rise. -/
def execBreakSeen (l : LineNo) (s : State) : Host.Outcome State Fault Refusal :=
  .next (if (s.line l).st = .up ∧ (s.line l).zeroHeld = true then
    let s := s.modLine l fun x => { x with zeroHeld := false, rxWait := true, rxLow := true }
    deliverBreak (s.modCounters l fun k => { k with breaks := bump k.breaks }) l
  else s)

/-! ### The transmitter (R45, R127, R131) -/

/-- The byte of a flow character (R124). -/
def flowByte : FlowChar → Byte
  | .xon => chXON
  | .xoff => chXOFF

/-- The parity bit sent with the low seven bits of a character; the 8-bit format sends none (R45). -/
def sentParity (format : DataFormat) (data : Byte) : Option Bool :=
  match format with
  | .even7 => some (decide (onesOf data % 2 = 1))
  | .odd7 => some (decide (onesOf data % 2 = 0))
  | .mark7 => some true
  | .space7 => some false
  | .none8 => none

/-- A character in the format of a call's copy (R45). -/
def sentAs (copy : CallSettings) (ch : Byte) : SentChar :=
  { data := dataBits copy.format ch, parity := sentParity copy.format (dataBits copy.format ch), stopBits := copy.stopBits }

/-- The transmitter of line `l` takes a character, and sends it in the format of the call's copy (R45). -/
def transmit (s : State) (l : LineNo) (ch : Byte) : State :=
  s.modLine l fun x => { x with txChar := x.call.map fun c => sentAs c.copy ch }

/-- Case 1 of R127: the pending flow character is taken, an XOFF counted (R124). -/
def offerFlow (s : State) (l : LineNo) (f : FlowChar) : State :=
  let s := transmit (s.modCall l fun c => { c with pendingFlow := none }) l (flowByte f)
  match f with
  | .xoff => s.modCarriage l fun k => { k with xoffSent := bump k.xoffSent }
  | .xon => s

/-- Case 3 of R127: the next character of the text in emission. -/
def offerEmission (s : State) (l : LineNo) (ch : Byte) (rest : List Byte) : State :=
  transmit (s.modCall l fun c => { c with emission := rest }) l ch

/-- Case 4 of R127: the head notice text leaves its queue; its emission is CR, LF, the text, CR, LF, and its end is an
insertion point again (R131). That this one lasts until the next character leaves the buffer, host data or not, is DEDUCED
(log entry 39). -/
def beginEmission (s : State) (l : LineNo) (text : List Byte) (rest : List (List Byte)) : State :=
  transmit (s.modCall l fun c =>
    { c with notices := rest, emission := chLF :: text ++ [chCR, chLF], lineEnd := true }) l chCR

/-- Case 5 of R127: the head character leaves the transmit buffer; in CONNECTED the last-CR flag is updated and the grant
test applied (R126, R131). -/
def offerBuffer (s : State) (l : LineNo) (ch : Byte) (rest : List Byte) : State :=
  let s := s.modCall l fun c =>
    if c.phase = .connected then
      { c with txBuf := rest, lineEnd := c.lastCR && decide (ch = chLF), lastCR := decide (ch = chCR) }
    else { c with txBuf := rest }
  grantTest (transmit s l ch) l

/-- The text in emission is offered in this phase (R127, case 3). -/
def emitting (c : Call) : Bool :=
  (decide (c.phase = .connected) || decide (c.phase = .ending)) && !c.emission.isEmpty

/-- Cases 3 to 6 of R127. -/
def offerText (s : State) (l : LineNo) (c : Call) : State :=
  match emitting c, c.emission with
  | true, ch :: rest => offerEmission s l ch rest
  | _, _ =>
    match decide (c.phase = .connected) && insertionPoint c, c.notices with
    | true, text :: rest => beginEmission s l text rest
    | _, _ =>
      match c.txBuf with
      | ch :: rest => offerBuffer s l ch rest
      | [] => s

/-- What the Carriage Unit offers to a free transmitter (R127). -/
def offerOutput (s : State) (l : LineNo) : State :=
  match s.callOn l with
  | none => s
  | some c =>
    match c.pendingFlow with
    | some f => offerFlow s l f
    | none => if c.outputPaused then s else offerText s l c

/-- TRANSMITTER_FREE (R45, R127, R167, R168): the character in transmission is finished; in UP the next one is offered, and a
drain may go on or be over. -/
def execTransmitterFree (l : LineNo) (s : State) : Host.Outcome State Fault Refusal :=
  let s := s.modLine l fun x => { x with txChar := none }
  .next (if (s.line l).st = .up then drainCheck (offerOutput s l) l else s)

/-! ### From the host (R125, R133) and the batch gap (R121) -/

/-- HOST DATA for a call in CONNECTED (R125). -/
def acceptHostData (s : State) (l : LineNo) (c : Call) (chars : List Byte) : State :=
  let free := Config.transmitDepth - c.txBuf.length
  let excess := chars.length - free
  let s := s.modCarriage l fun k => { k with hostData := bump k.hostData, excess := bumpBy k.excess excess }
  let s := s.modCall l fun c => { c with txBuf := c.txBuf ++ chars.take free, credit := c.credit - chars.length }
  if 0 < excess then
    raiseFault (s.modCall l fun c => { c with credit := 0 }) .creditExceeded (some l) (some c.number) excess
  else s

/-- HOST_DATA (R125, R22). -/
def execHostData (s : State) : Host.Outcome State Fault Refusal :=
  .next (takeSession s 0x38 acceptsCarriage fun f l c s => acceptHostData s l c f.body)

/-- HOST_CLOSE (R133, R22). -/
def execHostClose (s : State) : Host.Outcome State Fault Refusal :=
  .next (takeSession s 0x39 acceptsCarriage fun _ l _ s => endCall s l .hostClose)

/-- BATCH_GAP_EXPIRY (R121): the gap is timed outside the model (log entry 5), so the event is the expiry of a running gap. -/
def execBatchGapExpiry (l : LineNo) (s : State) : Host.Outcome State Fault Refusal :=
  .next (match s.callOn l with
    | none => s
    | some c => if c.phase = .connected ∧ c.batchGap.isSome = true then batchDue s l else s)

end Sys2Proof.Machine
end

