-- ==== Sys2Proof/Machine/Directory.lean ====
section
/-! DEFINITION. The commands of the Account Cache: DIRECTORY_SET (R95), BUCKET_DATA (R85 to R90), BUCKET_INVALIDATE (R92),
ALLOWANCE_ADJUST (R93), ACCOUNT_SUSPEND (R94), DIRECTORY_WAIT_EXPIRY (R91). -/

namespace Sys2Proof.Machine

/-! ### Directory size and wait (R95) -/

/-- Every frame unpinned, every fetch slot free, the backlog empty (R95). -/
def cacheIdle (s : State) : Bool :=
  (allFrames.all fun f => decide ((s.frame f).pins = 0)) && ((List.finRange 4).all fun i => s.acc.slots[i].isNone) &&
  s.acc.backlog.isEmpty

/-- DIRECTORY SET carried out for values in range (R95). That a frame it empties is no longer fresh is a DESIGN CHOICE (log entry
24). -/
def setDirectory (s : State) (size : Nat) (wait : Interval) : State × Answer :=
  if size = s.acc.size then ({ s with acc := { s.acc with wait := wait } }, .done .none)
  else if cacheIdle s then
    ({ s with acc := { s.acc with size := size, wait := wait, frames := Vector.replicate 96 Frame.empty } }, .done .none)
  else (s, .refused .state .none)

/-- DIRECTORY_SET (R95). -/
def execDirectorySet (size : Nat) (wait : Interval) (s : State) : Host.Outcome State Fault Refusal :=
  .next (takeReplied s 0x20 fun _ s => checked (directorySetBad size wait) s fun s => setDirectory s size wait)

/-! ### Filling a frame (R86 to R89) -/

/-- The incoming entries that are not EMPTY, in their incoming order. -/
def presentEntries (entries : Vector (Option Entry) 4) : List Entry := entries.toList.filterMap id

/-- Two of the entries carry the same account number or the same user name (R85). -/
def hasDuplicates (entries : List Entry) : Bool :=
  !decide ((entries.map Entry.account).Nodup ∧ (entries.map Entry.userName).Nodup)

/-- A matched entry takes the incoming static fields, its allowance and live fields kept, and is no longer WITHDRAWN (R87,
step 1). -/
def mergeStatic (old new : Entry) : Entry :=
  { old with
    status := new.status, cls := new.cls, sessionLimit := new.sessionLimit, groups := new.groups
    bandMask := new.bandMask, checkWord := new.checkWord, userName := new.userName, withdrawn := false }

/-- What a merge does to one entry of the frame (R87, steps 1 and 2). -/
def mergeEntry (incoming : List Entry) (e : Entry) : Option Entry :=
  match incoming.find? fun n => decide (n.account = e.account) with
  | some n => some (mergeStatic e n)
  | none => if e.live then some { e with withdrawn := true } else none

/-- New accounts go into the EMPTY slots, lowest first; what finds none is the surplus (R87, step 3; R88). -/
def placeNew : List Entry → Vector (Option Entry) 4 → Vector (Option Entry) 4 × List Entry
  | [], slots => (slots, [])
  | e :: rest, slots =>
    match (List.finRange 4).find? fun i => slots[i].isNone with
    | some i => placeNew rest (slots.set i (some e))
    | none =>
      let r := placeNew rest slots
      (r.1, e :: r.2)

/-- The merge of incoming entries into a frame's entries: the new entries and the surplus (R87, R88). -/
def mergeEntries (old : Vector (Option Entry) 4) (incoming : List Entry) : Vector (Option Entry) 4 × List Entry :=
  let fresh := incoming.filter fun n => (presentEntries old).all fun e => decide (e.account ≠ n.account)
  placeNew fresh (Vector.ofFn fun i => old[i].bind (mergeEntry incoming))

/-- A waiter of a filled fetch is resolved: UNAVAILABLE if its name is in the surplus, by a search of the frame otherwise (R81,
R88, R89). -/
def resolveWaiter (f : FrameNo) (surplus : List Entry) (s : State) (k : Lookup) : State :=
  if surplus.any fun e => decide (e.userName = k.name) then resolveLookup s k .unavailable
  else
    let s := touchFrame s f
    match searchFrame (s.frame f) k.name with
    | some i => resolveLookup s k (.found (f, i))
    | none => resolveLookup s k .unknown

/-- The fetch in slot `i` is filled: its frame stands as filled, the slot becomes free, the waiters are resolved in join
order, and then the backlog is served (R86, R87, R89, R83). -/
def finishFill (s : State) (i : SlotNo) (x : FetchSlot) (surplus : List Entry) : State :=
  let s := (touchFrame s x.frame).setSlot i none
  serveBacklog (x.waiters.foldl (resolveWaiter x.frame surplus) s)

/-- DATA applied whole (R86). -/
def loadFill (s : State) (i : SlotNo) (x : FetchSlot) (entries : Vector (Option Entry) 4) : State :=
  finishFill (s.modFrame x.frame fun y => { y with st := .valid, entries := entries, fresh := true }) i x []

/-- DATA merged into a pinned frame (R87, R88). -/
def mergeFill (s : State) (i : SlotNo) (x : FetchSlot) (entries : Vector (Option Entry) 4) : State :=
  let m := mergeEntries (s.frame x.frame).entries (presentEntries entries)
  let s := s.modFrame x.frame fun y =>
    { y with st := if m.2.isEmpty then .valid else .refreshDue, entries := m.1, fresh := true }
  let s := if m.2.isEmpty then s else { s with acc := { s.acc with bucketErrors := bump s.acc.bucketErrors } }
  finishFill s i x m.2

/-- A matching BUCKET DATA with DATA is tested for duplicates and applied (R85 to R87). -/
def applyData (s : State) (i : SlotNo) (x : FetchSlot) (entries : Vector (Option Entry) 4) : State :=
  if hasDuplicates (presentEntries entries) then
    serveBacklog (failFetch { s with acc := { s.acc with bucketErrors := bump s.acc.bucketErrors } } i x)
  else if x.kind = .merge ∧ 0 < (s.frame x.frame).pins then mergeFill s i x entries
  else loadFill s i x entries

/-- A BUCKET DATA that matches no outstanding fetch (R85). -/
def lateFetch (s : State) : State := { s with acc := { s.acc with lateFetches := bump s.acc.lateFetches } }

/-- A BUCKET DATA is applied to the fetch it matches (R85, R90). -/
def applyBucketData (s : State) (body : List Byte) : State :=
  match s.acc.slots[(Fin.ofNat 4 (dataTag body) : SlotNo)] with
  | none => lateFetch s
  | some x =>
    if x.bucket = dataBucket body then
      match dataEntries body with
      | none => serveBacklog (failFetch s (Fin.ofNat 4 (dataTag body)) x)
      | some entries => applyData s (Fin.ofNat 4 (dataTag body)) x entries
    else lateFetch s

/-- BUCKET_DATA (R85): it gets no reply. -/
def execBucketData (s : State) : Host.Outcome State Fault Refusal :=
  .next (match takeFrame s 0x21 with
    | none => s
    | some (f, t) => applyBucketData t f.body)

/-- DIRECTORY_WAIT_EXPIRY (R91). -/
def execDirectoryWaitExpiry (slot : SlotNo) (s : State) : Host.Outcome State Fault Refusal :=
  .next (match s.acc.slots[slot] with
    | none => s
    | some x =>
      if isDue x.timer then
        let s := failFetch s slot x
        let s := { s with acc := { s.acc with timeouts := bump s.acc.timeouts } }
        serveBacklog (raiseFault s .directoryTimeout none none x.bucket)
      else s)

/-! ### Host commands on the cache (R92 to R94) -/

/-- BUCKET INVALIDATE carried out (Table 5.4). -/
def invalidateBucket (s : State) (bucket : Nat) : State × Answer :=
  match findBucket s bucket with
  | none => (s, .done (.invalidated .notCached))
  | some f =>
    match (s.frame f).st with
    | .empty => (s, .done (.invalidated .notCached))
    | .fetching _ => (s, .done (.invalidated .fetching))
    | .refreshDue => (s, .done (.invalidated .refreshDue))
    | .valid =>
      if (s.frame f).pins = 0 then (emptyFrame s f, .done (.invalidated .freed))
      else (s.modFrame f fun y => { y with st := .refreshDue }, .done (.invalidated .refreshDue))

/-- BUCKET_INVALIDATE (R92). -/
def execBucketInvalidate (bucket : Nat) (s : State) : Host.Outcome State Fault Refusal :=
  .next (takeReplied s 0x22 fun _ s =>
    checked (firstBad [(0, decide (bucket ≤ 16383))]) s fun s => invalidateBucket s bucket)

/-- The frame that host commands search for a bucket: VALID, REFRESH DUE or FETCHING with kind MERGE (R93). -/
def cachedFrame (s : State) (bucket : Nat) : Option FrameNo :=
  match findBucket s bucket with
  | none => none
  | some f =>
    match (s.frame f).st with
    | .empty | .fetching .load => none
    | .fetching .merge | .valid | .refreshDue => some f

/-- The entry slot of an account in a frame, WITHDRAWN entries included (R93). -/
def accountSlot (x : Frame) (account : Nat) : Option EntryNo :=
  (List.finRange 4).find? fun i => decide (x.entries[i].map Entry.account = some account)

/-- A command on an account: NOT CACHED, NOT FOUND, or its effect on the entry found (R93, R94). -/
def onAccount (s : State) (bucket account : Nat) (carry : State → FrameNo × EntryNo → State × Answer) : State × Answer :=
  match cachedFrame s bucket with
  | none => (s, .refused .notCached .none)
  | some f =>
    match accountSlot (s.frame f) account with
    | none => (s, .refused .notFound .none)
    | some i => carry s (f, i)

/-- The allowance after an adjustment: kept within 0 to 16,777,214; no limit stays no limit (R93). -/
def adjustedAllowance (allowance : Option Nat) (delta : Int) : Option Nat :=
  allowance.map fun a => min ((a : Int) + delta).toNat Config.allowanceMax

/-- The detail of an ALLOWANCE ADJUST's reply (R93). -/
def adjustDetail (s : State) (at' : FrameNo × EntryNo) : Detail :=
  match s.entryAt at' with
  | none => .adjusted none 0
  | some e =>
    match e.allowance with
    | none => .adjusted none 0
    | some a => .adjusted (some a) (remainingOf a e.charged)

/-- ALLOWANCE ADJUST carried out on an entry: the allowance, then the re-evaluation (R93, R159). -/
def adjustEntry (delta : Int) (s : State) (at' : FrameNo × EntryNo) : State × Answer :=
  let s := s.modEntry at' fun e => { e with allowance := adjustedAllowance e.allowance delta }
  let s := evaluateAllowance endCall s at'
  (s, .done (adjustDetail s at'))

/-- ALLOWANCE_ADJUST (R93). -/
def execAllowanceAdjust (bucket account : Nat) (delta : Int) (s : State) : Host.Outcome State Fault Refusal :=
  .next (takeReplied s 0x23 fun _ s =>
    checked (adjustBad bucket account delta) s fun s => onAccount s bucket account (adjustEntry delta))

/-- The call on line `l` is attached to the entry. -/
def attachedTo (s : State) (at' : FrameNo × EntryNo) (l : LineNo) : Bool :=
  decide ((s.callOn l).bind Call.attach = some at')

/-- ACCOUNT SUSPEND carried out on an entry (R94). -/
def suspendEntry (s : State) (at' : FrameNo × EntryNo) : State × Answer :=
  let t := s.modEntry at' fun e => { e with status := .suspended }
  let u := endAll t (allLines.filter (attachedTo t at')) .suspended
  (u, .done (.count (endedCount t u)))

/-- ACCOUNT_SUSPEND (R94). -/
def execAccountSuspend (bucket account : Nat) (s : State) : Host.Outcome State Fault Refusal :=
  .next (takeReplied s 0x24 fun _ s =>
    checked (accountBad bucket account) s fun s => onAccount s bucket account suspendEntry)

end Sys2Proof.Machine
end

