-- ==== Sys2Proof/Machine/Admission.lean ====
section
/-! DEFINITION. The commands of the Admission Unit: CAPACITY_SET (R100), CLASS_SET (R99), OPEN_ACCEPT (R110, R115), OPEN_REFUSE
(R111, R112, R116), QUEUE_WAIT_EXPIRY (R104), ANNOUNCEMENT_TIMER_EXPIRY (R105), OPEN_WAIT_EXPIRY (R113, R117). -/

namespace Sys2Proof.Machine

/-! ### Settings -/

/-- CAPACITY SET carried out for values in range (R100). -/
def setCapacity (s : State) (capacity reserve : Nat) (openWait : Interval) : State × Answer :=
  let r := runArbiter { s with adm := { s.adm with capacity := capacity, reserve := reserve, openWait := openWait } }
  (r.1, .done (.count r.2))

/-- CAPACITY_SET (R100). -/
def execCapacitySet (capacity reserve : Nat) (openWait : Interval) (s : State) : Host.Outcome State Fault Refusal :=
  .next (takeReplied s 0x30 fun _ s =>
    checked (capacitySetBad capacity reserve openWait) s fun s => setCapacity s capacity reserve openWait)

/-- A queued call whose announcement timer is not running starts one (R99). -/
def startAnnouncement (period : Interval) (s : State) (l : LineNo) : State :=
  s.modCall l fun c => if c.announce = none then { c with announce := startTimer period } else c

/-- CLASS SET carried out on class `k` (R99). -/
def setClass (s : State) (k : ClassNo) (r : ClassRecord) : State × Answer :=
  let old := s.adm.classes[k]
  let t := { s with adm := { s.adm with classes := s.adm.classes.set k r } }
  let t := if old.announce.count = 0 ∧ 0 < r.announce.count then
      s.adm.queues[k].foldl (startAnnouncement r.announce) t else t
  if r.group = old.group then (t, .done (.count 0))
  else
    let u := runArbiter t
    (u.1, .done (.count u.2))

/-- CLASS_SET (R99). -/
def execClassSet (cls : Nat) (fields : ClassRecord) (s : State) : Host.Outcome State Fault Refusal :=
  .next (takeReplied s 0x31 fun _ s =>
    checked (classSetBad cls fields) s fun s => setClass s (Fin.ofNat 4 cls) fields)

/-! ### The open handshake -/

/-- The open-outstanding flag is cleared, and the open wait timer stops. -/
def clearOpen (s : State) (l : LineNo) : State :=
  s.modCall l fun c => { c with openOutstanding := false, openWait := none }

/-- The session fee is charged: the fee-charged flag, the units, the allowance evaluation (R150, step 2). -/
def chargeFee (s : State) (l : LineNo) (k : ClassNo) : State :=
  let s := s.modCall l fun c => { c with meter := { c.meter with feeCharged := true } }
  evaluateCall endCall (addUnits s l s.adm.classes[k].fee) l

/-- A call accepted to an entry whose warned-at-level flag stands set after the fee's evaluation is warned (R160). -/
def warnAtConnect (s : State) (l : LineNo) : State :=
  match s.entryOfCall l with
  | some e => if e.warnedAtLevel then warnCall s l else s
  | none => s

/-- The rest of the accept, if the fee did not end the call: the warning, the first step, the idle timer, the first credit
(R110, R126, R150, R160, R28). That a call which the fee's evaluation ends at once starts no first step, takes no warning at
connect (its warned flag stays as the evaluation left it) and is produced no CREDIT is a DESIGN CHOICE (log entry 43). -/
def startConnected (s : State) (l : LineNo) : State :=
  if s.phaseIs l .connected then
    let s := startStep (warnAtConnect s l) l
    let s := s.modCall l fun c => { c with idle := startTimer s.adm.classes[c.classNow].idleLimit }
    grantTest s l
  else s

/-- An OPEN ACCEPT for a call in OPENING (R110). "CONNECTED" is queued ahead of any text of the fee's evaluation (R150). -/
def acceptCall (s : State) (l : LineNo) (c : Call) : State :=
  let s := (clearOpen s l).modCall l fun c =>
    { c with connectAt := some s.ctu.now, phase := .connected
             meter := { c.meter with genAtConnect := s.ctu.generation, stepPos := 0, acc := 0 } }
  startConnected (chargeFee (queueNotice s l 10) l c.classNow) l

/-- An OPEN ACCEPT for a call in ENDING, or the expiry of its open wait: CLOSED falls due (R115, R117, R172). -/
def closeLate (s : State) (l : LineNo) : State :=
  settle ((clearOpen s l).modCall l fun c => { c with closedDue := true }) l

/-- OPEN_ACCEPT (R110, R115, R22). -/
def execOpenAccept (s : State) : Host.Outcome State Fault Refusal :=
  .next (takeSession s 0x32 acceptsOpenAnswer fun _ l c s =>
    if c.phase = .opening then acceptCall s l c else closeLate s l)

/-- C takes the value of U if U is below it (R111, step 3). -/
def lowerCapacity (s : State) : State :=
  { s with adm := { s.adm with capacity := min s.adm.capacity s.adm.inUse } }

/-- The full refusals counter and CAPACITY LOWERED (R111, R116). -/
def noteFull (s : State) (l : LineNo) (number : Nat) : State :=
  raiseFault { s with adm := { s.adm with fullRefusals := bump s.adm.fullRefusals } } .capacityLowered (some l)
    (some number) s.adm.capacity

/-- The state is CLOSING with mode FINISH (R182). -/
def closingFinish (s : State) : Bool := decide (s.sfu.service = .closing .finish)

/-- An OPEN REFUSE FULL for a call in OPENING (R111); while CLOSING with FINISH the call ends instead of joining (R182). That
CAPACITY LOWERED is raised after a STORE FULL or a SERVICE NOTICE of that ending is a DESIGN CHOICE (log entry 37). -/
def refuseFull (s : State) (l : LineNo) (c : Call) : State :=
  let s := lowerCapacity (clearSlot (clearOpen s l) l)
  let s := if closingFinish s then endCall s l .serviceEnd else joinHead s l c.classNow
  noteFull (runArbiter s).1 l c.number

/-- The denials counter (R118). -/
def countDenial (s : State) : State := { s with adm := { s.adm with denials := bump s.adm.denials } }

/-- An OPEN REFUSE DENIED for a call in OPENING (R112). That the release's arbiter run comes before the ending, whose record may
be made at once, is a DESIGN CHOICE (log entry 33). -/
def refuseDenied (s : State) (l : LineNo) : State := endCall (countDenial (releaseSlot (clearOpen s l) l)) l .hostDenied

/-- An OPEN REFUSE for a call in ENDING (R116); the call's strand may then be complete (R172). That CAPACITY LOWERED is raised
before a STORE FULL or a SERVICE NOTICE of the record made then, and the release's arbiter run before that record, are DESIGN
CHOICES (log entries 37 and 33). -/
def refuseLate (s : State) (l : LineNo) (c : Call) (reason : RefuseReason) : State :=
  match reason with
  | .full => settle (noteFull (runArbiter (lowerCapacity (clearSlot (clearOpen s l) l))).1 l c.number) l
  | .denied => settle (countDenial (releaseSlot (clearOpen s l) l)) l

/-- OPEN_REFUSE (R111, R112, R116, R22). -/
def execOpenRefuse (reason : RefuseReason) (s : State) : Host.Outcome State Fault Refusal :=
  .next (takeSession s 0x33 acceptsOpenAnswer fun _ l c s =>
    if c.phase = .opening then
      match reason with
      | .full => refuseFull s l c
      | .denied => refuseDenied s l
    else refuseLate s l c reason)

/-! ### Timers -/

/-- QUEUE_WAIT_EXPIRY (R104). -/
def execQueueWaitExpiry (l : LineNo) (s : State) : Host.Outcome State Fault Refusal :=
  .next (match s.callOn l with
    | none => s
    | some c =>
      if c.phase = .queued ∧ isDue c.queueWait = true then
        endCall { s with adm := { s.adm with queueTimeouts := bump s.adm.queueTimeouts } } l .queueTimeout
      else s)

/-- ANNOUNCEMENT_TIMER_EXPIRY (R105): the position is placed again, and the timer restarts from the setting as it stands. -/
def execAnnouncementTimerExpiry (l : LineNo) (s : State) : Host.Outcome State Fault Refusal :=
  .next (match s.callOn l with
    | none => s
    | some c =>
      if c.phase = .queued ∧ isDue c.announce = true then
        (placeText s l 9 ((queuePlace s l).map Prod.snd)).modCall l fun c =>
          { c with announce := startTimer s.adm.classes[c.classNow].announce }
      else s)

/-- The open timeouts counter and OPEN TIMEOUT (R113, R117). -/
def noteOpenTimeout (s : State) (l : LineNo) (c : Call) : State :=
  raiseFault { s with adm := { s.adm with openTimeouts := bump s.adm.openTimeouts } } .openTimeout (some l) (some c.number)
    c.classNow.val

/-- OPEN_WAIT_EXPIRY (R113, R117). -/
def execOpenWaitExpiry (l : LineNo) (s : State) : Host.Outcome State Fault Refusal :=
  .next (match s.callOn l with
    | none => s
    | some c =>
      if isDue c.openWait = false then s
      else if c.phase = .opening then noteOpenTimeout (endCall (clearOpen s l) l .hostTimeout) l c
      else if c.phase = .ending ∧ c.openOutstanding = true then noteOpenTimeout (closeLate s l) l c
      else s)

end Sys2Proof.Machine
end

