-- ==== Sys2Proof/Machine/Calendar.lean ====
section
/-! DEFINITION. The commands of the Calendar and Tariff Unit: CLOCK_SET (R138), TARIFF_LOAD (R140), TARIFF_SWITCH (R141),
WINDOW_SET (R145), MINUTE_CHANGE (R137). -/

namespace Sys2Proof.Machine

/-- CLOCK SET carried out for values in range (R138): the clock, SET, and the minute evaluation at the take. -/
def setClock (s : State) (day hour minute second : Nat) : State × Answer :=
  let s := minuteEvaluation { s with ctu := { s.ctu with
    day := day, hour := hour, minute := minute, second := second, isSet := true, minuteDue := false } }
  (s, .done (.clock s.ctu.band s.ctu.barred))

/-- CLOCK_SET (R138). -/
def execClockSet (day hour minute second : Nat) (s : State) : Host.Outcome State Fault Refusal :=
  .next (takeReplied s 0x40 fun _ s =>
    checked (clockSetBad day hour minute second) s fun s => setClock s day hour minute second)

/-- TARIFF_LOAD (R140). -/
def execTariffLoad (tariff : Tariff) (s : State) : Host.Outcome State Fault Refusal :=
  .next (takeReplied s 0x41 fun _ s =>
    checked (tariffBad tariff) s fun s =>
      ({ s with ctu := { s.ctu with waiting := some tariff } }, .done (.replaced s.ctu.waiting.isSome)))

/-- TARIFF SWITCH carried out (R141). -/
def takeSwitch (s : State) : State × Answer :=
  if s.ctu.waiting.isSome then (switchTariff s, .done (.generation (switchTariff s).ctu.generation))
  else (s, .refused .notReady .none)

/-- TARIFF_SWITCH (R141). -/
def execTariffSwitch (s : State) : Host.Outcome State Fault Refusal :=
  .next (takeReplied s 0x42 fun _ s => takeSwitch s)

/-- WINDOW SET carried out on window `i` (R145): its state is evaluated at once, then the barred class set. -/
def setWindow (s : State) (i : Fin 4) (dayMask : Byte) (start length : Nat) (classMask : Byte) : State × Answer :=
  let w := { s.ctu.windows[i] with
    dayMask := dayMask.setWidth 7, start := start, length := length, classMask := classMask.setWidth 4 }
  let c := evaluateWindow { s.ctu with windows := s.ctu.windows.set i w } i
  let s := evaluateBarred { s with ctu := c }
  (s, .done (.window s.ctu.windows[i].isOpen s.ctu.barred))

/-- WINDOW_SET (R145). -/
def execWindowSet (window : Nat) (dayMask : Byte) (start length : Nat) (classMask : Byte) (s : State) :
    Host.Outcome State Fault Refusal :=
  .next (takeReplied s 0x43 fun _ s =>
    checked (windowSetBad window start length) s fun s =>
      setWindow s (Fin.ofNat 4 window) dayMask start length classMask)

/-- MINUTE_CHANGE (R137): the minute evaluation of a minute change that has come. -/
def execMinuteChange (s : State) : Host.Outcome State Fault Refusal :=
  .next (if s.ctu.minuteDue then minuteEvaluation { s with ctu := { s.ctu with minuteDue := false } } else s)

end Sys2Proof.Machine
end

