-- ==== Sys2Proof/Machine/Clock.lean ====
section
/-! DEFINITION. The 1-second clock and what it brings to calls: ONE_SECOND_EVENT (R1, R26, R28, R76, R102, R137, R153, R154),
STEP_COMPLETION (R153), DEADLINE_EXPIRY (R26), IDLE_TIMER_EXPIRY (R28), DRAIN_LIMIT_EXPIRY (R167). -/

namespace Sys2Proof.Machine

/-! ### The 1-second event -/

/-- The deadlines of a call run in QUEUED, OPENING and CONNECTED (R26). -/
def tickPending (phase : Phase) (p : Pending) : Pending :=
  match phase with
  | .queued | .opening | .connected =>
    { allowance := countDown p.allowance, window := countDown p.window, hours := countDown p.hours }
  | .speed | .name | .password | .lookup | .ending | .held => p

/-- The meter of a call in CONNECTED: it advances in UP (R153) and counts fade seconds in FADE (R154). -/
def tickMeter (line : LineState) (phase : Phase) (m : Meter) : Meter :=
  if phase = .connected then
    match line with
    | .up => { m with stepPos := m.stepPos + 1, connectSecs := m.connectSecs + 1 }
    | .fade => { m with fadeSecs := bump m.fadeSecs }
    | .off | .idle | .ring | .answer | .speed | .drop => m
  else m

/-- A call at a 1-second event: its timers, its queue seconds, its meter (R1, R26, R28, R102, R153, R154). -/
def tickCall (line : LineState) (c : Call) : Call :=
  { c with
    fieldTimer := countDown c.fieldTimer
    queueWait := if c.phase = .queued then countDown c.queueWait else c.queueWait
    announce := countDown c.announce
    openWait := countDown c.openWait
    drain := countDown c.drain
    idle := if c.phase = .connected ∧ line = .up then countDown c.idle else c.idle
    queueSecs := if c.phase = .queued then min (c.queueSecs + 1) Config.queueSecondsMax else c.queueSecs
    pend := tickPending c.phase c.pend
    meter := tickMeter line c.phase c.meter }

/-- A line at a 1-second event (R35, R36, R40, R46, R50). -/
def tickLine (x : Line) : Line :=
  { x with
    ringGap := countDown x.ringGap, answerWait := countDown x.answerWait, speedWait := countDown x.speedWait
    holdover := countDown x.holdover, dropGuard := countDown x.dropGuard, call := x.call.map (tickCall x.st) }

/-- The cache at a 1-second event: fresh markers are cleared and the directory wait timers count (R76, R82). -/
def tickCache (a : Acc) : Acc :=
  { a with
    frames := Vector.ofFn fun f => { a.frames[f] with fresh := false }
    slots := Vector.ofFn fun i => a.slots[i].map fun x => { x with timer := countDown x.timer } }

/-- Steps that are complete but not yet charged are charged before the next second is counted (log entry 4). -/
def settleSteps (s : State) : State := allLines.foldl (fun s l => completeStep endCall s l) s

/-- Every count of a 1-second event: every timer, and the meter of every call. What falls due at the same event (a minute change,
a deadline, an idle limit, a holdover, a queue wait) is taken after these counts, never before them: a DESIGN CHOICE (log
entry 40). -/
def tick (s : State) : State :=
  { s with
    lines := Vector.ofFn fun l => tickLine (s.line l)
    acc := tickCache s.acc
    sfu := { s.sfu with surveyTimer := countDown s.sfu.surveyTimer }
    ctu := tickClock s.ctu }

/-- ONE_SECOND_EVENT (R137, R1). What falls due is taken by the expiry commands (log entry 3). -/
def execOneSecondEvent (s : State) : Host.Outcome State Fault Refusal := .next (tick (settleSteps s))

/-! ### What has come due -/

/-- STEP_COMPLETION (R153). -/
def execStepCompletion (l : LineNo) (s : State) : Host.Outcome State Fault Refusal := .next (completeStep endCall s l)

/-- The cause of the deadlines that have reached 0, the first in the order ALLOWANCE, WINDOW, HOURS (R26). -/
def dueCause (p : Pending) : Option EndCause :=
  if isDue p.allowance then some .allowance
  else if isDue p.window then some .window
  else if isDue p.hours then some .hours
  else none

/-- DEADLINE_EXPIRY (R26). -/
def execDeadlineExpiry (l : LineNo) (s : State) : Host.Outcome State Fault Refusal :=
  .next (match s.callOn l with
    | none => s
    | some c =>
      match dueCause c.pend with
      | none => s
      | some cause =>
        match c.phase with
        | .queued | .opening | .connected => endCall s l cause
        | .speed | .name | .password | .lookup | .ending | .held => s)

/-- IDLE_TIMER_EXPIRY (R28). -/
def execIdleTimerExpiry (l : LineNo) (s : State) : Host.Outcome State Fault Refusal :=
  .next (match s.callOn l with
    | none => s
    | some c =>
      if c.phase = .connected ∧ (s.line l).st = .up ∧ isDue c.idle = true then endCall s l .idle else s)

/-- DRAIN_LIMIT_EXPIRY (R167): what is left is discarded and the line drops. -/
def execDrainLimitExpiry (l : LineNo) (s : State) : Host.Outcome State Fault Refusal :=
  .next (match s.callOn l with
    | none => s
    | some c => if c.phase = .ending ∧ isDue c.drain = true then dropLine s l else s)

end Sys2Proof.Machine
end

