-- ==== Sys2Proof/Machine/Dispatch.lean ====
section
/-! DEFINITION. The command's meaning, one arm for each row of spec/opcode_table.json. -/

namespace Sys2Proof.Machine

def exec (i : Instr) (s : State) : Host.Outcome State Fault Refusal :=
  match i with
  | .powerOn => Sys2Proof.Machine.execPowerOn s
  | .inboundFrameEnd bytes => Sys2Proof.Machine.execInboundFrameEnd bytes s
  | .frameMalformed => Sys2Proof.Machine.execFrameMalformed s
  | .serviceOpen => Sys2Proof.Machine.execServiceOpen s
  | .serviceClose mode => Sys2Proof.Machine.execServiceClose mode s
  | .restart mode => Sys2Proof.Machine.execRestart mode s
  | .statusQuery clear => Sys2Proof.Machine.execStatusQuery clear s
  | .lineQuery => Sys2Proof.Machine.execLineQuery s
  | .surveySet lines period => Sys2Proof.Machine.execSurveySet lines period s
  | .faultClear => Sys2Proof.Machine.execFaultClear s
  | .faultTest kind => Sys2Proof.Machine.execFaultTest kind s
  | .faultMask kinds => Sys2Proof.Machine.execFaultMask kinds s
  | .auditClear => Sys2Proof.Machine.execAuditClear s
  | .lineSet settings => Sys2Proof.Machine.execLineSet settings s
  | .lineEnable => Sys2Proof.Machine.execLineEnable s
  | .lineDisable mode => Sys2Proof.Machine.execLineDisable mode s
  | .linesFitted n => Sys2Proof.Machine.execLinesFitted n s
  | .textLoad => Sys2Proof.Machine.execTextLoad s
  | .dialogueSet attemptLimit fieldTimeout drainLimit => Sys2Proof.Machine.execDialogueSet attemptLimit fieldTimeout drainLimit s
  | .directorySet size wait => Sys2Proof.Machine.execDirectorySet size wait s
  | .bucketData => Sys2Proof.Machine.execBucketData s
  | .bucketInvalidate bucket => Sys2Proof.Machine.execBucketInvalidate bucket s
  | .allowanceAdjust bucket account delta => Sys2Proof.Machine.execAllowanceAdjust bucket account delta s
  | .accountSuspend bucket account => Sys2Proof.Machine.execAccountSuspend bucket account s
  | .capacitySet capacity reserve openWait => Sys2Proof.Machine.execCapacitySet capacity reserve openWait s
  | .classSet cls fields => Sys2Proof.Machine.execClassSet cls fields s
  | .openAccept => Sys2Proof.Machine.execOpenAccept s
  | .openRefuse reason => Sys2Proof.Machine.execOpenRefuse reason s
  | .hostData => Sys2Proof.Machine.execHostData s
  | .hostClose => Sys2Proof.Machine.execHostClose s
  | .clockSet day hour minute second => Sys2Proof.Machine.execClockSet day hour minute second s
  | .tariffLoad tariff => Sys2Proof.Machine.execTariffLoad tariff s
  | .tariffSwitch => Sys2Proof.Machine.execTariffSwitch s
  | .windowSet window dayMask start length classMask => Sys2Proof.Machine.execWindowSet window dayMask start length classMask s
  | .billRead index => Sys2Proof.Machine.execBillRead index s
  | .billRelease number => Sys2Proof.Machine.execBillRelease number s
  | .transmissionStart requestFirst => Sys2Proof.Machine.execTransmissionStart requestFirst s
  | .frameTransmitted => Sys2Proof.Machine.execFrameTransmitted s
  | .ring rise => Sys2Proof.Machine.execRing rise s
  | .ringGapExpiry line => Sys2Proof.Machine.execRingGapExpiry line s
  | .carrierArrival line dataLow => Sys2Proof.Machine.execCarrierArrival line dataLow s
  | .answerWaitExpiry line => Sys2Proof.Machine.execAnswerWaitExpiry line s
  | .widthMeasured line width => Sys2Proof.Machine.execWidthMeasured line width s
  | .widthCounterOverflow line => Sys2Proof.Machine.execWidthCounterOverflow line s
  | .speedWaitExpiry line => Sys2Proof.Machine.execSpeedWaitExpiry line s
  | .receivedCharacter line bits parity stop => Sys2Proof.Machine.execReceivedCharacter line bits parity stop s
  | .zeroCharacterEnded line => Sys2Proof.Machine.execZeroCharacterEnded line s
  | .breakSeen line => Sys2Proof.Machine.execBreakSeen line s
  | .transmitterFree line => Sys2Proof.Machine.execTransmitterFree line s
  | .carrierLoss line => Sys2Proof.Machine.execCarrierLoss line s
  | .carrierReturn rise => Sys2Proof.Machine.execCarrierReturn rise s
  | .holdoverExpiry line => Sys2Proof.Machine.execHoldoverExpiry line s
  | .dropGuardPassed line => Sys2Proof.Machine.execDropGuardPassed line s
  | .fieldTimerExpiry line => Sys2Proof.Machine.execFieldTimerExpiry line s
  | .directoryWaitExpiry slot => Sys2Proof.Machine.execDirectoryWaitExpiry slot s
  | .queueWaitExpiry line => Sys2Proof.Machine.execQueueWaitExpiry line s
  | .announcementTimerExpiry line => Sys2Proof.Machine.execAnnouncementTimerExpiry line s
  | .openWaitExpiry line => Sys2Proof.Machine.execOpenWaitExpiry line s
  | .batchGapExpiry line => Sys2Proof.Machine.execBatchGapExpiry line s
  | .oneSecondEvent => Sys2Proof.Machine.execOneSecondEvent s
  | .minuteChange => Sys2Proof.Machine.execMinuteChange s
  | .stepCompletion line => Sys2Proof.Machine.execStepCompletion line s
  | .deadlineExpiry line => Sys2Proof.Machine.execDeadlineExpiry line s
  | .idleTimerExpiry line => Sys2Proof.Machine.execIdleTimerExpiry line s
  | .drainLimitExpiry line => Sys2Proof.Machine.execDrainLimitExpiry line s
  | .surveyTimerExpiry => Sys2Proof.Machine.execSurveyTimerExpiry s
  | .inboundFrameStart => Sys2Proof.Machine.execInboundFrameStart s
  | .outboundHoldChange asserted => Sys2Proof.Machine.execOutboundHoldChange asserted s
  | .receiveDataRise line => Sys2Proof.Machine.execReceiveDataRise line s

end Sys2Proof.Machine
end

