-- ==== Sys2Proof/Safety.lean ====
section
/-! DEFINITION. The terms in which statements are made: a request or session message that can be taken now, the state once it is
taken and answered, what a call carries after its ending event, and the invariants of the part: the bounds of its queues
and buffers (R6, R11, R59, R120, R130, R175), the call numbers (R21), how lines and calls fit together (R31, Table 2.2) and
the slots in use (R101). -/

namespace Sys2Proof.Machine

/-! ### Commands and their outcome -/

/-- The command completes in state `t`. -/
abbrev Completes (c : Instr) (s t : State) : Prop := exec c s = .next t

/-- The request code of a command that is the take of a replied host message (Table 1.2). -/
def requestCode : Instr → Option Nat
  | .serviceOpen => some 0x01 | .serviceClose _ => some 0x02 | .restart _ => some 0x03 | .statusQuery _ => some 0x04
  | .lineQuery => some 0x05 | .surveySet _ _ => some 0x06 | .faultClear => some 0x07 | .faultTest _ => some 0x08
  | .auditClear => some 0x09 | .faultMask _ => some 0x0A | .lineSet _ => some 0x10 | .lineEnable => some 0x11
  | .lineDisable _ => some 0x12 | .linesFitted _ => some 0x13 | .textLoad => some 0x14 | .dialogueSet _ _ _ => some 0x15
  | .directorySet _ _ => some 0x20 | .bucketInvalidate _ => some 0x22 | .allowanceAdjust _ _ _ => some 0x23
  | .accountSuspend _ _ => some 0x24 | .capacitySet _ _ _ => some 0x30 | .classSet _ _ => some 0x31
  | .clockSet _ _ _ _ => some 0x40 | .tariffLoad _ => some 0x41 | .tariffSwitch => some 0x42
  | .windowSet _ _ _ _ _ => some 0x43 | .billRead _ => some 0x50 | .billRelease _ => some 0x51
  | .powerOn | .inboundFrameEnd _ | .frameMalformed | .bucketData | .openAccept | .openRefuse _ | .hostData | .hostClose
  | .transmissionStart _ | .frameTransmitted | .ring _ | .ringGapExpiry _ | .carrierArrival _ _ | .answerWaitExpiry _
  | .widthMeasured _ _ | .widthCounterOverflow _ | .speedWaitExpiry _ | .receivedCharacter _ _ _ _
  | .zeroCharacterEnded _ | .breakSeen _ | .transmitterFree _ | .carrierLoss _ | .carrierReturn _ | .holdoverExpiry _
  | .dropGuardPassed _ | .fieldTimerExpiry _ | .directoryWaitExpiry _ | .queueWaitExpiry _ | .announcementTimerExpiry _
  | .openWaitExpiry _ | .batchGapExpiry _ | .oneSecondEvent | .minuteChange | .stepCompletion _ | .deadlineExpiry _
  | .idleTimerExpiry _ | .drainLimitExpiry _ | .surveyTimerExpiry | .inboundFrameStart | .outboundHoldChange _
  | .receiveDataRise _ => none

/-- Frame `f` stands at the head of the inbound queue, ahead of `rest`; it is of code `code` and not malformed. -/
structure AtHead (s : State) (code : Nat) (f : InFrame) (rest : List InFrame) : Prop where
  head : s.hli.inQueue = f :: rest
  code_eq : f.code = code
  form : frameForm f ≠ .malformed

/-- A replied request can be taken now: it is at the head and the priority lane has a place for its REPLY (R7). -/
structure Requested (s : State) (code : Nat) (f : InFrame) (rest : List InFrame) : Prop extends AtHead s code f rest where
  room : s.hli.prio.length < 16

/-- The state after a head frame that needs no REPLY is taken off the inbound queue and counted (R7, R15). It claims no place in
the priority lane, so the messages that wait for one enter while there is room (R14; an earlier start of transmission may
have left a place to the frame, log entry 9). -/
def afterTake (s : State) (rest : List InFrame) : State :=
  { s with hli := { s.hli with
      inQueue := rest, framesTaken := min (s.hli.framesTaken + 1) 65535
      prio := s.hli.prio ++ (s.hli.prioWait.take (16 - s.hli.prio.length)).map (fixBody s)
      prioWait := s.hli.prioWait.drop (16 - s.hli.prio.length) } }

/-- The REPLY to a request, headed as the request was (R9). -/
def replyTo (f : InFrame) (a : Answer) : OutFrame := { tag := f.tag, call := f.call, msg := .reply f.code a }

/-- The state after a request is taken and answered, nothing else being changed (R9). -/
def afterReply (s : State) (f : InFrame) (rest : List InFrame) (a : Answer) : State :=
  { s with hli := { s.hli with
      inQueue := rest, framesTaken := min (s.hli.framesTaken + 1) 65535, prio := s.hli.prio ++ [replyTo f a] } }

/-- The command is answered with `a` and changes nothing else. -/
abbrev OnlyAnswers (c : Instr) (s : State) (f : InFrame) (rest : List InFrame) (a : Answer) : Prop :=
  Completes c s (afterReply s f rest a)

/-- A session message can be taken now and names call `c` on line `l` (R22). -/
structure Addressed (s : State) (code : Nat) (f : InFrame) (rest : List InFrame) (l : LineNo) (c : Call) : Prop
    extends AtHead s code f rest where
  line_eq : lineOf f = l
  call_eq : s.callOn l = some c
  number_eq : c.number = f.call

/-- Byte `i` of a run of bytes, as a number. -/
def byteAt (bytes : List Byte) (i : Nat) : Nat := (bytes.getD i 0).toNat

/-- A 16-bit counter one higher, saturating (00_scope.md, Counters). -/
abbrev oneMore (n : Nat) : Nat := min (n + 1) 65535

/-! ### Lines, calls and entries -/

/-- Every line but `l` is as it was. -/
def OtherLinesKept (s t : State) (l : LineNo) : Prop := ∀ m, m ≠ l → t.line m = s.line m

/-- Every block but the lines is as it was. -/
def BlocksKept (s t : State) : Prop := { t with lines := s.lines } = s

/-- Lines `l` and `m` carry calls of the same account entry. -/
def SameAccount (s : State) (l m : LineNo) : Prop :=
  ∃ at', (s.callOn l).bind Call.attach = some at' ∧ (s.callOn m).bind Call.attach = some at'

/-- The call that was `c` carries the end cause, if its record is still on line `l`: the cause set, the phase ENDING (or HELD,
at a full store), no pending cause, no idle timer (R24). -/
def CarriesCause (t : State) (l : LineNo) (c : Call) (cause : EndCause) : Prop :=
  ∀ c', t.callOn l = some c' →
    c'.number = c.number ∧ c'.endCause = some cause ∧ (c'.phase = .ending ∨ c'.phase = .held) ∧
    c'.pend = ⟨none, none, none⟩ ∧ c'.idle = none

/-- The command completes, ends the call `c` on line `l` with the cause, and leaves every line alone that carries no call of
the same account (R24). -/
def EndsCall (cmd : Instr) (s : State) (l : LineNo) (c : Call) (cause : EndCause) : Prop :=
  ∃ t, Completes cmd s t ∧ CarriesCause t l c cause ∧ ∀ m, m ≠ l → ¬ SameAccount s l m → t.line m = s.line m

/-- A call that is attached to an entry with no limit: its charges are not watched (R159). -/
structure Unlimited (s : State) (c : Call) (at' : FrameNo × EntryNo) (e : Entry) : Prop where
  attach_eq : c.attach = some at'
  entry_eq : s.entryAt at' = some e
  no_limit : e.allowance = none

/-- The line's receiver delivers a character to the call `c` on line `l` at its next good stop bit, in whichever format the
call's copy gives (R41 to R44). -/
structure Hears (s : State) (l : LineNo) (c : Call) : Prop where
  call_eq : s.callOn l = some c
  up : (s.line l).st = .up
  no_wait : (s.line l).rxWait = false
  no_zero : (s.line l).zeroHeld = false

/-- The parity bit that came with the data bits disagrees with the format (R42). -/
def parityBad (f : DataFormat) (bits : Byte) (parity : Bool) : Bool :=
  let odd := decide (((List.range 7).countP fun i => bits.getLsbD i) % 2 = 1) != parity
  match f with
  | .even7 => odd
  | .odd7 => !odd
  | .mark7 => !parity
  | .space7 => parity
  | .none8 => false

/-- The character delivered for the bits at a high stop bit: SUB for a parity error, else seven bits or eight (R41, R42). -/
def delivered (f : DataFormat) (bits : Byte) (parity : Bool) : Byte :=
  if parityBad f bits parity = true then 0x1A else if f = .none8 then bits else bits &&& 0x7F

/-- The state once a parity error of the bits, if there is one, is counted on line `l` (R42). -/
def parityCounted (s : State) (l : LineNo) (f : DataFormat) (bits : Byte) (parity : Bool) : State :=
  let x := s.line l
  if parityBad f bits parity = true then
    s.setLine l { x with ctr := { x.ctr with parityErrors := oneMore x.ctr.parityErrors } }
  else s

/-- The state in which a character has come in on line `l` and the call there has become `d`, nothing else being changed. -/
def heard (s : State) (l : LineNo) (d : Call) : State := s.setLine l { s.line l with rxLow := false, call := some d }

/-- Frames placed at the tail of the priority lane (R14). -/
def sendsPriority (s : State) (frames : List OutFrame) : State :=
  { s with hli := { s.hli with prio := s.hli.prio ++ frames } }

/-- A frame placed at the tail of the ordered lane (R13). -/
def sendsOrdered (s : State) (f : OutFrame) : State := { s with hli := { s.hli with ord := s.hli.ord ++ [f] } }

/-- What the characters of a text put into a transmit buffer: CR, LF and themselves, or nothing for an empty text (R59). -/
def placed (chars : List Byte) : List Byte := if chars = [] then [] else 0x0D :: 0x0A :: chars

/-- What a text slot puts into a transmit buffer (R59). -/
def slotText (s : State) (slot : Fin 24) : List Byte := placed s.soe.texts[slot]

/-- The characters of a text slot with a number in the place of its mark (R57). -/
def numbered (s : State) (slot : Fin 24) (n : Nat) : List Byte := substituteHash (decimal n) s.soe.texts[slot]

/-- The whole minutes of a count of seconds, rounded up, as a text shows them (R25). -/
def wholeMinutes (secs : Nat) : Nat := (secs + 59) / 60

/-- The call after texts are sent to it, each finding room: in CONNECTED they join the notice-text queue, and in QUEUED and
OPENING they go into the transmit buffer; an empty text leaves nothing (R25, R59, R130). -/
def sentTexts (d : Call) (texts : List (List Byte)) : Call :=
  if d.phase = .connected then { d with notices := d.notices ++ texts.filter (· ≠ []) }
  else { d with txBuf := d.txBuf ++ (texts.map placed).flatten }

/-- The notice-text queue, or the transmit buffer, has room for the texts (R59, R130). -/
def HasRoom (d : Call) (texts : List (List Byte)) : Prop :=
  if d.phase = .connected then d.notices.length + (texts.filter (· ≠ [])).length ≤ 4
  else d.txBuf.length + (texts.map placed).flatten.length ≤ 256

/-- The call is attached and in a phase in which pending causes and allowance evaluations reach it (R25, R159). -/
structure Reached (s : State) (l : LineNo) (d : Call) (at' : FrameNo × EntryNo) : Prop where
  call_eq : s.callOn l = some d
  attach_eq : d.attach = some at'
  phase : d.phase = .queued ∨ d.phase = .opening ∨ d.phase = .connected

/-- The bucket of the name that the call `c` has typed (R67). -/
def typedBucket (s : State) (c : Call) : Nat := nameHash c.nameBuf % s.acc.size

/-- A CR from the line ends the password of the call `c` while the service is open, and its bucket stands, searchable, in frame
`f` alone (R65, R76, R80). -/
structure LooksUp (s : State) (l : LineNo) (c : Call) (f : FrameNo) : Prop extends Hears s l c where
  phase : c.phase = .password
  service : s.sfu.service = .opened
  no_fetch : ∀ (i : SlotNo) x, s.acc.slots[i] = some x → x.bucket ≠ typedBucket s c
  bucket : (s.frame f).bucket = some (typedBucket s c)
  alone : ∀ g, (s.frame g).bucket = some (typedBucket s c) → g = f
  valid : (s.frame f).st = .valid

/-- The lookup finds entry `e` in slot `i` of frame `f`, and no other searchable entry there carries the name (R81). -/
structure Finds (s : State) (l : LineNo) (c : Call) (f : FrameNo) (i : EntryNo) (e : Entry) : Prop
    extends LooksUp s l c f where
  entry : s.entryAt (f, i) = some e
  searchable : e.withdrawn = false
  name : e.userName = padName c.nameBuf
  only : ∀ j d, j ≠ i → s.entryAt (f, j) = some d → d.withdrawn = false → d.userName ≠ padName c.nameBuf

/-- The eight sign-on checks of Table 4.6 in their order, each with whether it fails and its reason (R72). -/
def checkTable (s : State) (c : Call) (e : Entry) : List (Prop × SignOnReason) :=
  let r := s.adm.classes[e.cls]
  [(e.status ≠ .opened, .suspended),
   (e.groups.getLsbD (match c.copy.group with | .a => 0 | .b => 1 | .c => 2 | .d => 3) = false, .line),
   (s.ctu.barred.getLsbD e.cls.val = true, .window),
   (∀ b, s.ctu.band = some b → e.bandMask.getLsbD b.val = false, .band),
   (e.sessionLimit ≤ e.attached, .sessions),
   (∃ a, e.allowance = some a ∧
      (remainingOf a e.charged ≤ 0 ∨ remainingOf a e.charged < (r.fee : Int) ∨ e.exhausted = true), .allowance),
   (32 ≤ s.bst.store.length, .accounting),
   (slotFree s e.cls = false ∧ r.queueLimit ≤ (s.adm.queues[e.cls]).length, .noPort)]

/-- A load fetch takes frame `f`: the lowest EMPTY one or, where none is EMPTY, the first in the order of use, from the least
recently used, that is VALID with no pins (R79). -/
def LoadTakes (s : State) (f : FrameNo) : Prop :=
  ((s.frame f).st = .empty ∧ ∀ g, g < f → (s.frame g).st ≠ .empty) ∨
  ((∀ g, (s.frame g).st ≠ .empty) ∧ (s.frame f).st = .valid ∧ (s.frame f).pins = 0 ∧
    ∃ before after, s.acc.order = before ++ f :: after ∧
      ∀ g ∈ before, (s.frame g).st = .valid → 1 ≤ (s.frame g).pins)

/-- No frame can be taken by a load fetch: none is EMPTY, and each VALID one in the order of use has a pin (R79; by its bound of
84 frames pinned or under fetch, in no run). -/
def NoneToTake (s : State) : Prop :=
  (∀ g, (s.frame g).st ≠ .empty) ∧ ∀ g ∈ s.acc.order, (s.frame g).st = .valid → 1 ≤ (s.frame g).pins

/-- Bucket `b` is held by frame `g` and by no other (R76). -/
structure HeldBy (s : State) (b : Nat) (g : FrameNo) : Prop where
  holds : (s.frame g).bucket = some b
  alone : ∀ h, (s.frame h).bucket = some b → h = g

/-- The account's entry `e` stands in slot `i` of frame `g`, which holds the bucket and is searched by account (R93). -/
structure FindsAccount (s : State) (b account : Nat) (g : FrameNo) (i : EntryNo) (e : Entry) : Prop extends HeldBy s b g where
  cached : (s.frame g).st = .valid ∨ (s.frame g).st = .refreshDue ∨ (s.frame g).st = .fetching .merge
  entry : s.entryAt (g, i) = some e
  account_eq : e.account = account
  only : ∀ j d, j ≠ i → s.entryAt (g, j) = some d → d.account ≠ account

/-- The meter's settings of a step that starts now: a tariff is current, a band is current, the call has a class and a speed
(R151). -/
structure Rated (s : State) (c : Call) (tariff : Tariff) (band : BandNo) (k : ClassNo) (v : Speed) : Prop where
  tariff_eq : s.ctu.current = some tariff
  band_eq : s.ctu.band = some band
  class_eq : c.cls = some k
  speed_eq : c.speed = some v

/-- What an event that leaves the current band as in `t` does to every call whose charges are not watched: nothing where the band
stands or is none; where it changes, HOURS is removed from a call whose entry admits the new band, and one that the entry
excludes takes HOURS, with its grace, its deadline kept where it runs already, and the text, or ends at once under a grace
of 0 (R142, R143, R25, R27). -/
def HoursFollowBand (s t : State) : Prop :=
  ∀ l d at' e (k : ClassNo), Reached s l d at' → Unlimited s d at' e → d.cls = some k → d.endCause = none →
    stepDue s l = false →
    let grace := s.adm.classes[k].hoursGrace
    let left := d.pend.hours.getD (intervalSecs grace)
    let text := [numbered s 13 (wholeMinutes left)]
    ((t.ctu.band = s.ctu.band ∨ t.ctu.band = none) → t.line l = s.line l) ∧
    ∀ b, t.ctu.band = some b → s.ctu.band ≠ some b →
      (e.bandMask.getLsbD b.val = true →
        t.line l = { s.line l with call := some { d with pend := { d.pend with hours := none } } }) ∧
      (e.bandMask.getLsbD b.val = false → grace.count = 0 → CarriesCause t l d .hours) ∧
      (e.bandMask.getLsbD b.val = false → 1 ≤ grace.count → HasRoom d text →
        t.line l = { s.line l with call := some (sentTexts { d with
          pend := { d.pend with hours := some left }, graceEntered := d.graceEntered || d.pend.hours.isNone } text) })

/-- No class with a queued call may be granted a slot (R107). -/
def NoneEligible (s : State) : Prop := ∀ k : ClassNo, s.adm.queues[k] ≠ [] → slotFree s k = false

/-! ### Invariants -/

/-- The bounds of the host link (R6, R11, R13): the inbound queue, kept below full while a frame is received; both lanes; and a
message waits for the ordered lane only while that lane is full. -/
structure LinkBounds (s : State) : Prop where
  inbound : s.hli.inQueue.length ≤ 8
  receiving : s.hli.rx = .receiving → s.hli.inQueue.length < 8
  priority : s.hli.prio.length ≤ 16
  ordered : s.hli.ord.length ≤ 64
  waiting : s.hli.ordWait ≠ [] → s.hli.ord.length = 64

/-- The bounds of the Billing Store (R175, R176, R178): at most 32 records; a call is held only while the store is full; the next
record number is a record number. -/
structure StoreBounds (s : State) : Prop where
  store : s.bst.store.length ≤ 32
  held : s.bst.held ≠ [] → s.bst.store.length = 32
  next : 1 ≤ s.bst.nextRecord ∧ s.bst.nextRecord ≤ 65535

/-- The bounds of a call's buffers and of its accumulator (R61, R64, R59, R120, R130, R152). -/
structure CallBounds (c : Call) : Prop where
  name : c.nameBuf.length ≤ 8
  password : c.pwBuf.length ≤ 12
  transmit : c.txBuf.length ≤ 256
  batch : c.batch.length ≤ 64
  notices : c.notices.length ≤ 4
  accumulator : c.meter.acc < 3600

/-- Every call record keeps the bounds. -/
def BuffersBounded (s : State) : Prop := ∀ l c, s.callOn l = some c → CallBounds c

/-- Credit is granted from free space alone: what stands in a call's transmit buffer and its outstanding credit never exceed
256 together, and only a call in CONNECTED has credit (R126, R134). -/
def CreditBounded (s : State) : Prop :=
  ∀ l c, s.callOn l = some c → c.txBuf.length + c.credit ≤ 256 ∧ (c.phase ≠ .connected → c.credit = 0)

/-- Call numbers are 1 to 65535 and no two records hold the same (R21). -/
structure NumbersDistinct (s : State) : Prop where
  next : 1 ≤ s.nextCall ∧ s.nextCall ≤ 65535
  range : ∀ l c, s.callOn l = some c → 1 ≤ c.number ∧ c.number ≤ 65535
  distinct : ∀ l m c d, s.callOn l = some c → s.callOn m = some d → c.number = d.number → l = m

/-- The line state that a call's phase goes with, and an end cause in ENDING and HELD only (Table 2.2, Table 3.1, R24, R31). -/
def phaseFits (st : LineState) (c : Call) : Bool :=
  match c.phase with
  | .speed => decide (st = .speed) && c.endCause.isNone
  | .name | .password | .lookup | .queued | .opening => decide (st = .up) && c.endCause.isNone
  | .connected => (decide (st = .up) || decide (st = .fade)) && c.endCause.isNone
  | .ending => (decide (st = .up) || decide (st = .drop)) && c.endCause.isSome
  | .held => decide (st = .drop) && c.endCause.isSome

/-- A line's state goes with its call record, or with having none (R31). -/
def Line.fits (x : Line) : Bool :=
  match x.call with
  | none => (match x.st with | .off | .idle | .ring | .answer | .drop => true | .speed | .up | .fade => false)
  | some c => phaseFits x.st c

/-- Every line goes with its call record (R31). -/
def LinesFit (s : State) : Prop := ∀ l, (s.line l).fits = true

/-- The call on line `l` holds a host slot. -/
def holdsSlot (s : State) (l : LineNo) : Bool :=
  match s.callOn l with
  | some c => c.slotHeld
  | none => false

/-- The slots in use are the calls whose slot-held flag is set, at most 32; the flag is set only on an attached call in OPENING,
CONNECTED or ENDING; a call in QUEUED or OPENING is attached, one in SPEED, NAME, PASSWORD or LOOKUP is not; a queued line
carries a call in QUEUED and a line of the held order, where it stands once, one in HELD (R73, R101, R102, R176, Table 2.2). -/
structure SlotsCounted (s : State) : Prop where
  count : s.adm.inUse = allLines.countP (holdsSlot s)
  most : s.adm.inUse ≤ 32
  capacity : s.adm.capacity ≤ 32
  flag : ∀ l c, s.callOn l = some c → c.slotHeld = true →
    c.attach.isSome = true ∧ (c.phase = .opening ∨ c.phase = .connected ∨ c.phase = .ending)
  attached : ∀ l c, s.callOn l = some c → (c.phase = .queued ∨ c.phase = .opening) → c.attach.isSome = true
  unattached : ∀ l c, s.callOn l = some c →
    (c.phase = .speed ∨ c.phase = .name ∨ c.phase = .password ∨ c.phase = .lookup) → c.attach = none
  queued : ∀ (k : ClassNo) l, l ∈ s.adm.queues[k] → s.phaseIs l .queued = true
  held : ∀ l, l ∈ s.bst.held → s.phaseIs l .held = true
  once : s.bst.held.Nodup

end Sys2Proof.Machine
end

