-- ==== Sys2Proof/Certificates/Slice0/Obligations.lean ====
section
/-! DEFINITION. The statements for the provers, by chapter of the manual. Each docstring names the rules it formalises. -/

open Sys2Proof Sys2Proof.Machine

/-! ### The queue of commands and the host link (R2 to R17) -/

/-- The command at the front of the queue runs on the state with the queue's rest; with none waiting the part idles (the
interface of this model, log entry 7). -/
def Obligations.StepTakesFrontCommand : Prop :=
  (∀ s, s.pending = [] → step s = .next s) ∧
  ∀ s c rest, s.pending = c :: rest → step s = exec c { s with pending := rest }

/-- R7, R9: a replied request is taken only at the head, well formed and with a place for its REPLY; its REPLY then has
the next place of the priority lane, ahead of all else the take produces. R9, R10: one that is answered REFUSED has no
other effect. RESTART, whose lane is emptied, is stated apart. That a take which cannot be made changes nothing is the
model's choice (log entry 2). -/
def Obligations.EveryReplyTakesItsPlaceAtTheTake : Prop :=
  (∀ c code s, requestCode c = some code → (∀ m, c ≠ .restart m) →
     ((∀ f rest, ¬ Requested s code f rest) → Completes c s s) ∧
     ∀ f rest, Requested s code f rest →
       ∃ t a later, Completes c s t ∧ t.hli.inQueue = rest ∧ t.hli.prio = s.hli.prio ++ replyTo f a :: later) ∧
  ∀ c code s f rest t r d, requestCode c = some code → Requested s code f rest → Completes c s t →
    t.hli.prio[s.hli.prio.length]? = some (replyTo f (.refused r d)) → t = afterReply s f rest (.refused r d)

/-- R5: a received frame is checked in the order of Table 1.1 and queued, or discarded, counted and reported. -/
def Obligations.InboundFrameIsCheckedAndQueued : Prop :=
  ∀ s bytes, s.hli.rx = .receiving →
    let n := 256 * byteAt bytes 4 + byteAt bytes 5
    let bad := fun detail => raiseFault { s with hli := { s.hli with rx := .idle, linkFrames := oneMore s.hli.linkFrames } }
      .linkFrame none none detail
    let sent := 256 * byteAt bytes (6 + n) + byteAt bytes (7 + n)
    (bytes.length < 8 → Completes (.inboundFrameEnd bytes) s (bad 1)) ∧
    (8 ≤ bytes.length → 288 < n → Completes (.inboundFrameEnd bytes) s (bad 2)) ∧
    (8 ≤ bytes.length → n ≤ 288 → bytes.length ≠ 8 + n → Completes (.inboundFrameEnd bytes) s (bad 3)) ∧
    (n ≤ 288 → bytes.length = 8 + n → (crc (bytes.take (6 + n))).toNat ≠ sent →
      Completes (.inboundFrameEnd bytes) s (bad 4)) ∧
    (n ≤ 288 → bytes.length = 8 + n → (crc (bytes.take (6 + n))).toNat = sent →
      Completes (.inboundFrameEnd bytes) s { s with hli := { s.hli with
        rx := .idle
        inQueue := s.hli.inQueue ++ [{ code := byteAt bytes 0, tag := byteAt bytes 1
                                       call := 256 * byteAt bytes 2 + byteAt bytes 3, body := (bytes.drop 6).take n }] } })

/-- R6, R16: the hold at the rise decides whether a frame is received; an overrun frame is counted and reported at its
end; the partial frame at power-on is ignored. That a command whose event cannot come in a state changes nothing is the
model's choice (log entry 2). -/
def Obligations.FrameBegunUnderHoldIsAnOverrun : Prop :=
  ∀ s bytes,
    (s.hli.rx = .idle → s.hli.inQueue.length < 8 →
      Completes .inboundFrameStart s { s with hli := { s.hli with rx := .receiving } }) ∧
    (s.hli.rx = .idle → 8 ≤ s.hli.inQueue.length →
      Completes .inboundFrameStart s { s with hli := { s.hli with rx := .overrun } }) ∧
    (s.hli.rx ≠ .idle → Completes .inboundFrameStart s s) ∧
    (s.hli.rx = .overrun → Completes (.inboundFrameEnd bytes) s
      (raiseFault { s with hli := { s.hli with rx := .idle, overruns := oneMore s.hli.overruns } } .inboundOverrun none none
        (min bytes.length 65535))) ∧
    (s.hli.rx = .ignoring → Completes (.inboundFrameEnd bytes) s { s with hli := { s.hli with rx := .idle } }) ∧
    (s.hli.rx = .idle → Completes (.inboundFrameEnd bytes) s s)

/-- R3, R4, R5: the CRC register takes a frame and its own check bytes, high byte first, to 0, and gives the manual's
check value; a frame built from header and body passes the link checks and is read back as it was built. -/
def Obligations.FrameBytesAreReadBack : Prop :=
  ((∀ bytes : List Byte, crc (bytes ++ bytesOf 2 (crc bytes).toNat) = 0) ∧ crc (ascii "123456789") = 0x29B1) ∧
  ∀ code tag call (body : List Byte), code < 256 → tag < 256 → call < 65536 → body.length ≤ 288 →
    linkCheck (frameBytes code tag call body) = none ∧
    frameOf (frameBytes code tag call body) = { code := code, tag := tag, call := call, body := body } ∧
    (frameBytes code tag call body).length = 8 + body.length

/-- R8: a malformed head frame is answered FORMAT, counted and reported, and reaches no other block; it waits for a
place in the priority lane. A head frame that is certainly well formed is not taken so. Table 1.2: a code outside it,
and a tag or a call number against the row's requirement, make a frame malformed. That the take waits, and that a
well-formed frame is not taken so, are written as no change (log entry 2). -/
def Obligations.MalformedFrameIsAnsweredFormat : Prop :=
  (∀ s f rest, s.hli.inQueue = f :: rest →
     let t := { afterReply s f rest .format with hli := { (afterReply s f rest .format).hli with
       formatErrors := oneMore s.hli.formatErrors } }
     (frameForm f = .malformed → s.hli.prio.length < 16 → f.tag < 48 →
       Completes .frameMalformed s (raiseFault t .malformed (some (Fin.ofNat 48 f.tag)) (some f.call) f.code)) ∧
     (frameForm f = .malformed → s.hli.prio.length < 16 → 48 ≤ f.tag →
       Completes .frameMalformed s (raiseFault t .malformed none none f.code)) ∧
     (16 ≤ s.hli.prio.length → Completes .frameMalformed s s) ∧
     (frameForm f = .wellFormed → Completes .frameMalformed s s)) ∧
  ∀ f : InFrame,
    ((∀ r ∈ catalogue, r.code ≠ f.code) → frameForm f = .malformed) ∧
    ∀ r ∈ catalogue, r.code = f.code →
      ((r.line = true → 48 ≤ f.tag → frameForm f = .malformed) ∧ (r.line = false → f.tag ≠ 255 → frameForm f = .malformed) ∧
       (r.call = true → f.call = 0 → frameForm f = .malformed) ∧ (r.call = false → f.call ≠ 0 → frameForm f = .malformed))

/-- R12: a frame starts only between frames and with the hold down, from the priority lane first; the hold is what the
host drives. R13, R14: the place freed in a full lane goes to the head of that lane's wait order or, in the priority
lane, is left to a frame at the head of the inbound queue that needs a REPLY, or may need one as malformed, where that
claim is taken first. That a command whose event cannot come in a state changes nothing is the model's choice (log
entry 2). The command names which of the two claims is taken first (log entry 9). -/
def Obligations.TransmissionStartTakesThePriorityLaneFirst : Prop :=
  (∀ s first f rest level,
     (s.hli.tx.isSome = true ∨ s.hli.outHold = true → Completes (.transmissionStart first) s s) ∧
     (s.hli.prio = [] → s.hli.ord = [] → Completes (.transmissionStart first) s s) ∧
     (s.hli.tx = none → s.hli.outHold = false → s.hli.prio = f :: rest → s.hli.prioWait = [] →
       Completes (.transmissionStart first) s { s with hli := { s.hli with prio := rest, tx := some (f, true) } }) ∧
     (s.hli.tx = none → s.hli.outHold = false → s.hli.prio = [] → s.hli.ord = f :: rest → s.hli.ordWait = [] →
       rest.length ≠ 47 →
       Completes (.transmissionStart first) s { s with hli := { s.hli with ord := rest, tx := some (f, true) } }) ∧
     Completes (.outboundHoldChange level) s { s with hli := { s.hli with outHold := level } }) ∧
  ∀ s first f rest w ws, s.hli.tx = none → s.hli.outHold = false →
    (s.hli.prio = f :: rest → rest.length = 15 → s.hli.prioWait = w :: ws →
      (first = false ∨ ∀ q qs, s.hli.inQueue = q :: qs → isReplied q.code = false ∧ frameForm q = .wellFormed) →
      Completes (.transmissionStart first) s { s with hli := { s.hli with
        prio := rest ++ [fixBody s w], prioWait := ws, tx := some (f, true) } }) ∧
    (∀ q qs, s.hli.prio = f :: rest → rest.length = 15 → first = true → s.hli.inQueue = q :: qs →
      (isReplied q.code = true ∨ frameForm q ≠ .wellFormed) →
      Completes (.transmissionStart first) s { s with hli := { s.hli with prio := rest, tx := some (f, true) } }) ∧
    (s.hli.prio = [] → s.hli.ord = f :: rest → rest.length = 63 → s.hli.ordWait = w :: ws →
      Completes (.transmissionStart first) s { s with hli := { s.hli with
        ord := rest ++ [w], ordWait := ws, tx := some (f, true) } })

/-- R123: a start that leaves 47 frames serves the head of the forward wait list: its whole batch becomes one TERM DATA,
and the lane is congested again. The call there is CONNECTED with a batch, and nothing waits for the ordered lane. -/
def Obligations.EndOfCongestionServesTheForwardHead : Prop :=
  ∀ s first f rest l ls c, s.hli.tx = none → s.hli.outHold = false → s.hli.prio = [] → s.hli.ord = f :: rest →
    rest.length = 47 → s.hli.ordWait = [] → s.forwardWait = l :: ls → s.callOn l = some c → c.phase = .connected →
    c.batch ≠ [] →
    Completes (.transmissionStart first) s
      (({ s with
        hli := { s.hli with
          ord := rest ++ [{ tag := l.val, call := c.number, msg := .termData c.batch }]
          tx := some (f, true), congestions := oneMore s.hli.congestions }
        forwardWait := ls } : State).setLine l
        { s.line l with
          car := { (s.line l).car with termData := oneMore (s.line l).car.termData }
          call := some { c with
            batch := [], forwardDue := false, batchGap := none, terminalStopped := false
            pendingFlow := if c.terminalStopped = true then (if c.pendingFlow = some .xoff then none else some .xon)
              else c.pendingFlow } })

/-- R12, R17: the completion of a frame acts on a block only for a CLOSED whose call still waits for it; a frame from
before a restart acts on none. R172, R174, R175, R101, R78: a CLOSED transmitted gives the slot back, makes and places
the billing record, passes the pin to it and removes the call record. R50, R173, R52: a line in DROP stays until its
guard has passed, or leaves; a line in UP signs on again with a new call, at the speed and format of the old one, if
it is enabled and fitted, and drops otherwise (the speed field of the copy: log entry 41). That a line going OFF keeps
no ring count is the model's choice (log entry 36). A zero character held at the drop is discarded uncounted: the
model's choice (log entry 42). The queues are empty there, so the arbiter grants nothing, the store does not fill, and
the service is OPEN. That a command whose event cannot come in a state changes nothing is the model's choice (log
entry 2). -/
def Obligations.ClosedTransmittedReleasesTheSlotAndBills : Prop :=
  (∀ s f live,
     (s.hli.tx = none → Completes .frameTransmitted s s) ∧
     (s.hli.tx = some (f, live) → (live = false ∨ ∀ cause charge, f.msg ≠ .closed cause charge) →
       Completes .frameTransmitted s { s with hli := { s.hli with tx := none } }) ∧
     (∀ l c cause charge, s.hli.tx = some ({ tag := l.val, call := c.number, msg := .closed cause charge }, live) →
       s.callOn l = some c → (c.phase ≠ .ending ∨ c.closedSent = false) →
       Completes .frameTransmitted s { s with hli := { s.hli with tx := none } })) ∧
  ∀ s l c cause charge fr sl e,
    s.hli.tx = some ({ tag := l.val, call := c.number, msg := .closed cause charge }, true) → s.callOn l = some c →
    c.phase = .ending → c.closedSent = true → c.slotHeld = true → c.attach = some (fr, sl) → s.entryAt (fr, sl) = some e →
    (∀ k : ClassNo, s.adm.queues[k] = []) → s.bst.store.length < 31 → s.sfu.service = .opened →
    s.hli.ord.length < 47 →
    let r : BillRecord :=
      { number := s.bst.nextRecord, account := e.account, line := l, call := c.number, speed := c.speed, cls := c.cls
        endCause := c.endCause, warned := c.meter.warned, graceEntered := c.graceEntered
        tariffChanged := decide (c.genAtEnd ≠ c.meter.genAtConnect), neverConnected := c.connectAt.isNone
        signOn := c.signOn, connectAt := c.connectAt, connectSecs := c.meter.connectSecs
        queueSecs := min c.queueSecs 16777215, charge := c.meter.charge, fadeSecs := c.meter.fadeSecs
        residue := min c.residue 65535, generation := c.genAtEnd, entry := (fr, sl) }
    let x := s.line l
    let billed := fun (t : State) => Completes .frameTransmitted s t ∧ OtherLinesKept s t l ∧
      t.adm = { s.adm with inUse := s.adm.inUse - 1 } ∧
      t.bst = { s.bst with
        store := s.bst.store ++ [r], nextRecord := if s.bst.nextRecord ≥ 65535 then 1 else s.bst.nextRecord + 1
        auditCount := s.bst.auditCount + 1, auditCharge := s.bst.auditCharge + BitVec.ofNat 32 c.meter.charge
        placed := oneMore s.bst.placed } ∧
      t.hli = { s.hli with tx := none, ord := s.hli.ord ++ [{ tag := l.val, call := c.number, msg := .billRecord r }] } ∧
      t.entryAt (fr, sl) = some { e with attached := e.attached - 1, stored := e.stored + 1 } ∧
      (∀ at', at' ≠ (fr, sl) → t.entryAt at' = s.entryAt at') ∧ (∀ g, (t.frame g).pins = (s.frame g).pins) ∧
      t.soe = s.soe ∧ t.ctu = s.ctu ∧ t.mtr = s.mtr ∧ t.sfu = s.sfu
    let becomes := fun (y : Line) => ∃ t, billed t ∧ t.line l = { y with call := none } ∧ t.nextCall = s.nextCall
    let closed := x.disablePending = true ∨ s.fitted ≤ l.val
    (x.st = .drop → x.dropGuard.isSome = true → becomes x) ∧
    (x.st = .drop → x.dropGuard = none → ¬ closed → becomes { x with st := .idle, ringCount := 0 }) ∧
    (x.st = .drop → x.dropGuard = none → closed →
      becomes { x with st := .off, ringCount := 0, ringGap := none, answerWait := none, disablePending := false }) ∧
    (x.st = .up → closed → becomes { x with
      st := .drop, ringGap := none, answerWait := none, speedWait := none, holdover := none, dropGuard := some 2
      rxWait := false, zeroHeld := false, ctr := { x.ctr with drops := oneMore x.ctr.drops } }) ∧
    (x.st = .up → ¬ closed → (slotText s 0).length + (slotText s 1).length ≤ 256 → ∃ t d, billed t ∧
      t.line l = { x with ctr := { x.ctr with callsCreated := oneMore x.ctr.callsCreated }, call := some d } ∧
      (∀ m o, m ≠ l → s.callOn m = some o → o.number ≠ d.number) ∧ t.nextCall = advanceNumber d.number ∧
      d.phase = .name ∧ d.speed = c.speed ∧
      d.copy = { x.settings.toCallSettings with
        speed := c.copy.speed, format := c.copy.format, stopBits := c.copy.stopBits } ∧
      d.txBuf = slotText s 0 ++ slotText s 1 ∧ d.fieldTimer = startTimer s.soe.fieldTimeout ∧ d.attempts = 0 ∧
      d.attach = none ∧ d.cls = none ∧ d.slotHeld = false ∧ d.endCause = none ∧ d.nameBuf = [] ∧ d.pwBuf = [] ∧
      d.meter = ⟨0, 0, 0, 0, 0, 0, 0, false, false, 0⟩)

/-! ### Power-on, restart and service (R16, R30, R181 to R183) -/

/-- R16, R30, R56, R75, R97, R119, R136, R148, R164, R180, R181, R183: what release of the power-on reset leaves, in
every block: the state of a reset part but for the waiting commands, the receiver and the pins, and the values that the
rules and tables name. The waiting commands and the levels of the pins are kept (log entries 10, 18 and 32); the
receiver's fields of a line, the unit of the idle limit and of the survey period, and the unused forwarding characters
are the model's (log entries 11, 34 and 38). -/
def Obligations.PowerOnLeavesEveryBlockAtItsStart : Prop :=
  ∀ s, ∃ t, Completes .powerOn s t ∧
    t = { State.reset with
      pending := s.pending
      hli := { State.reset.hli with rx := if s.hli.rx = .idle then .idle else .ignoring, outHold := s.hli.outHold }
      lines := Vector.ofFn fun l => Line.powerOn (s.line l).carrier (s.line l).rxLow } ∧
    t.hli.inQueue = [] ∧ t.hli.prio = [] ∧ t.hli.ord = [] ∧ t.hli.prioWait = [] ∧ t.hli.ordWait = [] ∧ t.hli.tx = none ∧
    t.hli.linkFrames = 0 ∧ t.hli.overruns = 0 ∧ t.hli.formatErrors = 0 ∧ t.hli.framesTaken = 0 ∧ t.hli.congestions = 0 ∧
    t.fitted = 48 ∧ t.nextCall = 1 ∧ t.stale = 0 ∧ t.forwardWait = [] ∧
    (∀ l, let x := t.line l
      x.st = .idle ∧ x.call = none ∧ x.ringCount = 0 ∧ x.attempts = 0 ∧ x.lastWidth = 0 ∧ x.disablePending = false ∧
      x.ringGap = none ∧ x.answerWait = none ∧ x.speedWait = none ∧ x.holdover = none ∧ x.dropGuard = none ∧
      x.ctr = ⟨0, 0, 0, 0, 0, 0, 0, 0, 0, 0, 0, 0, 0, 0⟩ ∧ x.car = ⟨0, 0, 0, 0, 0⟩ ∧
      x.settings = { x.settings with
        group := .a, answerAfter := 2, speed := none, format := .even7, stopBits := .one
        answerWait := ⟨30, .seconds⟩, speedWait := ⟨30, .seconds⟩, holdover := ⟨10, .seconds⟩
        forwardCount := 1, forwardSize := 64, batchGap := 2, flowControl := true, attentionFlush := false
        afterClose := .resign } ∧
      x.settings.forwardChars[0] = 0x0D) ∧
    t.soe.texts = Soe.defaultTexts ∧ t.soe.attemptLimit = 3 ∧ t.soe.fieldTimeout = ⟨60, .seconds⟩ ∧
    t.soe.drainLimit = ⟨30, .seconds⟩ ∧ t.soe.textDrops = 0 ∧
    (∀ f, (t.frame f).st = .empty ∧ (t.frame f).pins = 0 ∧ (t.frame f).fresh = false ∧ ∀ i, t.entryAt (f, i) = none) ∧
    t.acc.order = allFrames ∧ (∀ i : SlotNo, t.acc.slots[i] = none) ∧ t.acc.backlog = [] ∧ t.acc.size = 0 ∧
    t.acc.wait = ⟨5, .seconds⟩ ∧ t.acc.lookups = 0 ∧ t.acc.fetches = 0 ∧ t.acc.lateFetches = 0 ∧ t.acc.bucketErrors = 0 ∧
    t.acc.timeouts = 0 ∧
    (∀ k : ClassNo, t.adm.classes[k] = { t.adm.classes[k] with
      group := if k = 0 then .high else .low, queueLimit := 48, queueWait := ⟨30, .minutes⟩, announce := ⟨1, .minutes⟩
      fee := 0, rateAdjust := 0, warningLevel := 0, allowanceGrace := ⟨2, .minutes⟩, hoursGrace := ⟨5, .minutes⟩ } ∧
      t.adm.classes[k].idleLimit.count = 0 ∧ t.adm.queues[k] = []) ∧
    t.adm.capacity = 0 ∧ t.adm.reserve = 0 ∧ t.adm.inUse = 0 ∧ t.adm.openWait = ⟨20, .seconds⟩ ∧ t.adm.upper = 4 ∧
    t.adm.low = 3 ∧ t.adm.grants = 0 ∧ t.adm.fullRefusals = 0 ∧ t.adm.denials = 0 ∧ t.adm.openTimeouts = 0 ∧
    t.adm.queueTimeouts = 0 ∧
    t.ctu.isSet = false ∧ t.ctu.now = ⟨0, 0⟩ ∧ t.ctu.current = none ∧ t.ctu.waiting = none ∧ t.ctu.generation = 0 ∧
    t.ctu.band = none ∧ t.ctu.barred = 0 ∧ (∀ i : Fin 4, t.ctu.windows[i] = ⟨0, 0, 0, 0, false⟩) ∧ t.ctu.switches = 0 ∧
    t.ctu.bandChanges = 0 ∧ t.ctu.openings = 0 ∧ t.ctu.activations = 0 ∧ t.mtr = ⟨0, 0, 0, 0⟩ ∧
    t.bst.store = [] ∧ t.bst.held = [] ∧ t.bst.nextRecord = 1 ∧ t.bst.auditCount = 0 ∧ t.bst.auditCharge = 0 ∧
    t.bst.placed = 0 ∧ t.bst.heldCount = 0 ∧
    t.sfu.service = .halted ∧ t.sfu.record = none ∧ t.sfu.further = false ∧ (∀ i : Fin 8, t.sfu.mask[i] = false) ∧
    (∀ i : Fin 8, t.sfu.faults[i] = 0) ∧ t.sfu.surveyLines = [] ∧ t.sfu.surveyPeriod.count = 0 ∧ t.sfu.surveyTimer = none

/-- R183, R17, R30, R148: a RESTART that may not be taken is refused STATE; one that is taken leaves what power-on
leaves, but for the calendar clock, the frame in transmission, whose completion has no effect, and the frame in
reception; its REPLY is the first frame of the emptied lane, with the calls and records discarded. The REPLY is placed
last (log entry 15), a minute change that has fallen due stays due (log entry 3), the transmitters are at mark (log
entry 30), the receiver's fields of a line are as after power-on (log entry 11), and the waiting commands and the levels
of the pins are kept (log entry 32). -/
def Obligations.RestartReturnsToPowerOnButForTheClock : Prop :=
  ∀ s f rest, AtHead s 0x03 f rest → s.hli.prio.length < 16 →
    let may := s.sfu.service = .halted ∧ (∀ l, s.callOn l = none) ∧ s.bst.store = []
    let fresh : List CallListItem → State := fun list => { State.reset with
      pending := s.pending
      hli := { Hli.powerOn s.hli.rx s.hli.outHold with
        tx := s.hli.tx.map fun x => (x.1, false)
        prio := [replyTo f (.done (.restarted list.length s.bst.store.length list))] }
      lines := Vector.ofFn fun l => Line.powerOn (s.line l).carrier (s.line l).rxLow
      ctu := { Ctu.powerOn with
        day := s.ctu.day, hour := s.ctu.hour, minute := s.ctu.minute, second := s.ctu.second, isSet := s.ctu.isSet
        minuteDue := s.ctu.minuteDue } }
    (¬ may → OnlyAnswers (.restart .normal) s f rest (.refused .state .none)) ∧
    (may → Completes (.restart .normal) s (fresh [])) ∧
    ∃ list, Completes (.restart .forced) s (fresh list) ∧ (list.map CallListItem.line).Pairwise (· < ·) ∧
      ∀ item, item ∈ list ↔ ∃ c, s.callOn item.line = some c ∧ item.call = c.number ∧ item.phase = c.phase ∧
        item.cause = c.endCause.getD .forcedRestart

/-- R181: SERVICE OPEN in each service state. R182, R33: SERVICE CLOSE. HALTED: nothing. From OPEN, lines in RING and
ANSWER leave; FINISH ends exactly the calls in LOOKUP and QUEUED, END every call that has no end cause; END stays; the
part is HALTED once no call record exists. No step is complete and uncharged at the close (log entry 4). -/
def Obligations.ServiceIsOpenedAndClosed : Prop :=
  (∀ s f rest, Requested s 0x01 f rest →
     let opened := { afterReply s f rest (.done (.service .opened)) with sfu := { s.sfu with service := .opened } }
     (s.sfu.service = .opened ∨ (∃ m, s.sfu.service = .closing m) → Completes .serviceOpen s opened) ∧
     (s.sfu.service = .halted → s.ctu.isSet = true → s.ctu.generation ≠ 0 → 1 ≤ s.acc.size →
       Completes .serviceOpen s opened) ∧
     (s.sfu.service = .halted → (s.ctu.isSet = false ∨ s.ctu.generation = 0 ∨ s.acc.size = 0) →
       OnlyAnswers .serviceOpen s f rest (.refused .notReady
         (.notReady (!s.ctu.isSet) (decide (s.ctu.generation = 0)) (decide (s.acc.size = 0)))))) ∧
  ∀ s f rest mode, Requested s 0x02 f rest →
    (s.sfu.service = .halted → OnlyAnswers (.serviceClose mode) s f rest (.done (.closed 0 .halted))) ∧
    (s.sfu.service ≠ .halted → (∀ l, stepDue s l = false) →
      let m := if s.sfu.service = .closing .endCalls then .endCalls else mode
      ∃ t, Completes (.serviceClose mode) s t ∧
        ((∀ l, t.callOn l = none) → t.sfu.service = .halted) ∧
        ((∃ l, (t.callOn l).isSome = true) → t.sfu.service = .closing m) ∧
        (s.sfu.service = .opened → ∀ l, (t.line l).st ≠ .ring ∧ (t.line l).st ≠ .answer) ∧
        (∀ l c, s.callOn l = some c → c.endCause = none → (m = .endCalls ∨ c.phase = .lookup ∨ c.phase = .queued) →
          CarriesCause t l c .serviceEnd) ∧
        (m = .finish → ∀ l, s.phaseIs l .lookup = false → s.phaseIs l .queued = false → t.callOn l = s.callOn l))

/-! ### Status, faults and survey (R184 to R188) -/

/-- R186: STATUS QUERY reports the values as they stand at its take, its own take counted; with KEEP nothing else
changes, with CLEAR every part-wide counter and every counter of every line is then 0 and nothing else changes. R187:
LINE QUERY is answered for every line with the line's state, settings, counters and its call's fields, timers and
places, and changes nothing. That the priority count leaves out the REPLY itself is the model's choice (log entry 13);
the place of a line on the forward wait list counts from 1 (log entry 27). -/
def Obligations.QueriesReportWhatStands : Prop :=
  (∀ s f rest, Requested s 0x04 f rest →
     ∃ r, OnlyAnswers (.statusQuery false) s f rest (.done (.status r)) ∧
       Completes (.statusQuery true) s
         (let t := afterReply s f rest (.done (.status r))
         { t with
           hli := { t.hli with linkFrames := 0, overruns := 0, formatErrors := 0, framesTaken := 0, congestions := 0 }
           acc := { t.acc with lookups := 0, fetches := 0, lateFetches := 0, bucketErrors := 0, timeouts := 0 }
           adm := { t.adm with grants := 0, fullRefusals := 0, denials := 0, openTimeouts := 0, queueTimeouts := 0 }
           ctu := { t.ctu with switches := 0, bandChanges := 0, openings := 0, activations := 0 }
           mtr := { warnings := 0, exhaustions := 0, restorations := 0, fadeLumps := 0 }
           bst := { t.bst with placed := 0, heldCount := 0 }
           stale := 0
           soe := { t.soe with textDrops := 0 }
           sfu := { t.sfu with faults := Vector.replicate 8 0 }
           lines := Vector.ofFn fun l => { t.line l with ctr := LineCounters.zero, car := CarriageCounters.zero } }) ∧
       r.service = s.sfu.service ∧
       (∀ i, r.linesInState[i] = allLines.countP fun l => decide (lineStateIndex (s.line l).st = i)) ∧
       r.fitted = s.fitted ∧ (∀ k : ClassNo, r.queued[k] = (s.adm.queues[k]).length) ∧
       r.capacity = s.adm.capacity ∧ r.reserve = s.adm.reserve ∧ r.inUse = s.adm.inUse ∧
       r.pinnedFrames = (allFrames.countP fun g => decide (0 < (s.frame g).pins)) ∧
       r.busySlots = ((List.finRange 4).countP fun i => (s.acc.slots[i]).isSome) ∧ r.backlog = s.acc.backlog.length ∧
       r.size = s.acc.size ∧ r.storeCount = s.bst.store.length ∧ r.heldOrder = s.bst.held.length ∧
       r.nextRecord = s.bst.nextRecord ∧ r.auditCount = s.bst.auditCount ∧ r.auditCharge = s.bst.auditCharge ∧
       r.generation = s.ctu.generation ∧
       r.pendingTariff = (s.ctu.waiting.map fun p => (p.activation, p.actDay, p.actMinute)) ∧
       (∀ i : Fin 4, r.windowsOpen[i] = s.ctu.windows[i].isOpen) ∧ r.band = s.ctu.band ∧
       r.barred = s.ctu.barred ∧ r.clock = s.ctu.now ∧
       r.clockSet = s.ctu.isSet ∧ r.inbound = rest.length ∧ r.priority = s.hli.prio.length ∧ r.ordered = s.hli.ord.length ∧
       r.priorityWait = s.hli.prioWait.length ∧ r.orderedWait = s.hli.ordWait.length ∧
       r.forwardWaiting = s.forwardWait.length ∧ r.faultFull = s.sfu.record.isSome ∧ r.mask = s.sfu.mask ∧
       let overLines := fun (count : Line → Nat) => min (allLines.map fun l => count (s.line l)).sum 65535
       r.counters =
         { linkFrames := s.hli.linkFrames, overruns := s.hli.overruns, formatErrors := s.hli.formatErrors
           framesTaken := oneMore s.hli.framesTaken, congestions := s.hli.congestions, lookups := s.acc.lookups
           fetches := s.acc.fetches, lateFetches := s.acc.lateFetches, bucketErrors := s.acc.bucketErrors
           fetchTimeouts := s.acc.timeouts, grants := s.adm.grants, fullRefusals := s.adm.fullRefusals
           denials := s.adm.denials, openTimeouts := s.adm.openTimeouts, queueTimeouts := s.adm.queueTimeouts
           switches := s.ctu.switches, bandChanges := s.ctu.bandChanges, openings := s.ctu.openings
           activations := s.ctu.activations, warnings := s.mtr.warnings, exhaustions := s.mtr.exhaustions
           restorations := s.mtr.restorations, fadeLumps := s.mtr.fadeLumps, placed := s.bst.placed
           heldCount := s.bst.heldCount, stale := s.stale, textDrops := s.soe.textDrops, faults := s.sfu.faults
           parityErrors := overLines fun x => x.ctr.parityErrors, framingErrors := overLines fun x => x.ctr.framingErrors
           receiveOverruns := overLines fun x => x.ctr.overruns, fadeExpiries := overLines fun x => x.ctr.fadeExpiries
           excess := overLines fun x => x.car.excess }) ∧
  ∀ s f rest, Requested s 0x05 f rest →
    ∃ r, OnlyAnswers .lineQuery s f rest (.done (.line r)) ∧
      let x := s.line (lineOf f)
      r.st = x.st ∧ r.disablePending = x.disablePending ∧ r.fitted = decide ((lineOf f).val < s.fitted) ∧
      r.ringCount = x.ringCount ∧ r.attempts = x.attempts ∧ r.lastWidth = x.lastWidth ∧ r.settings = x.settings ∧
      r.ctr = x.ctr ∧ r.car = x.car ∧ (x.call = none → r.call = none) ∧
      ∀ c, x.call = some c → ∃ y, r.call = some y ∧
        y = { number := c.number, phase := c.phase, speed := c.speed, endCause := c.endCause, nameBuf := c.nameBuf
              attempts := c.attempts, attach := c.attach, cls := c.cls, queuePlace := y.queuePlace, queueSecs := c.queueSecs
              slotHeld := c.slotHeld, openOutstanding := c.openOutstanding
              timers := { queueWait := c.queueWait, announce := c.announce, openWait := c.openWait, drain := c.drain }
              signOn := c.signOn, connectAt := c.connectAt, pend := c.pend, graceEntered := c.graceEntered, meter := c.meter
              idle := c.idle, copy := c.copy
              carriage :=
                { batchFill := c.batch.length, transmitFill := c.txBuf.length, credit := c.credit
                  notices := c.notices.length, terminalStopped := c.terminalStopped, pendingFlow := c.pendingFlow
                  outputPaused := c.outputPaused, lastCR := c.lastCR, forwardPlace := y.carriage.forwardPlace } } ∧
        ((∀ k : ClassNo, lineOf f ∉ s.adm.queues[k]) → y.queuePlace = none) ∧
        (∀ (k : ClassNo) ahead behind, s.adm.queues[k] = ahead ++ lineOf f :: behind → lineOf f ∉ ahead →
          (∀ j : ClassNo, j ≠ k → lineOf f ∉ s.adm.queues[j]) → y.queuePlace = some (k, ahead.length + 1)) ∧
        (lineOf f ∉ s.forwardWait → y.carriage.forwardPlace = none) ∧
        ∀ ahead behind, s.forwardWait = ahead ++ lineOf f :: behind → lineOf f ∉ ahead →
          y.carriage.forwardPlace = some (ahead.length + 1)

/-- R188: SURVEY SET replaces the settings and produces a report after its REPLY; an empty set stops the survey and
withdraws a waiting report; a count above 63 changes nothing; an expiry produces a further report, unless one waits, and
restarts the timer from the same period. That a command whose event cannot come in a state changes nothing is the
model's choice (log entry 2). The expiry acts when it is due (log entry 3). -/
def Obligations.SurveyReportsFollowTheirSettings : Prop :=
  ∀ s f rest lines period, Requested s 0x06 f rest →
    let set := allLines.filter fun l => decide (l ∈ lines)
    let asked := { afterReply s f rest (.done .none) with sfu := { s.sfu with
      surveyLines := set, surveyPeriod := period, surveyTimer := startTimer period } }
    (63 < period.count → OnlyAnswers (.surveySet lines period) s f rest (.refused .badValue (.index 1))) ∧
    (period.count ≤ 63 → lines = [] →
      Completes (.surveySet lines period) s
        { afterReply s f rest (.done .none) with
          sfu := { s.sfu with surveyLines := [], surveyPeriod := period, surveyTimer := none }
          hli := { (afterReply s f rest (.done .none)).hli with
            prioWait := s.hli.prioWait.filter fun g => !isSurvey g } }) ∧
    (period.count ≤ 63 → lines ≠ [] → s.hli.prioWait = [] → s.hli.prio.length < 15 →
      Completes (.surveySet lines period) s { asked with hli := { asked.hli with
        prio := asked.hli.prio ++ [{ tag := 255, call := 0, msg := .surveyReport (surveyItems asked) }] } }) ∧
    (period.count ≤ 63 → lines ≠ [] → s.hli.prioWait.any isSurvey = true → Completes (.surveySet lines period) s asked) ∧
    (s.sfu.surveyTimer ≠ some 0 → Completes .surveyTimerExpiry s s) ∧
    (s.sfu.surveyTimer = some 0 →
      let again := { s with sfu := { s.sfu with surveyTimer := startTimer s.sfu.surveyPeriod } }
      (s.hli.prioWait.any isSurvey = true → Completes .surveyTimerExpiry s again) ∧
      (s.hli.prioWait = [] → s.hli.prio.length < 16 →
        Completes .surveyTimerExpiry s { again with hli := { again.hli with
          prio := again.hli.prio ++ [{ tag := 255, call := 0, msg := .surveyReport (surveyItems again) }] } }))

/-- R184: a raised fault counts; a masked kind does nothing more; the first unmasked one fills the record and sends
FAULT NOTICE, later ones only set further-faults. R185: FAULT CLEAR reports and empties the record; FAULT MASK replaces
the mask; FAULT TEST raises a marked fault after its REPLY and reports what it did. -/
def Obligations.FaultRecordTakesTheFirstUnmasked : Prop :=
  (∀ s kind line call detail test,
     let i := faultIndex kind
     let counted := s.sfu.faults.set i (oneMore s.sfu.faults[i])
     let r : FaultRecord :=
       { kind := kind, line := line, call := call, detail := detail, test := test
         time := if s.ctu.isSet = true then some s.ctu.now else none }
     let notice : OutFrame := { tag := (line.map Fin.val).getD 255, call := call.getD 0, msg := .faultNotice r }
     let full := { s with sfu := { s.sfu with faults := counted, record := some r, further := false } }
     (s.sfu.mask[i] = true →
       raiseFault s kind line call detail test = { s with sfu := { s.sfu with faults := counted } }) ∧
     (s.sfu.mask[i] = false → s.sfu.record.isSome = true →
       raiseFault s kind line call detail test = { s with sfu := { s.sfu with faults := counted, further := true } }) ∧
     (s.sfu.mask[i] = false → s.sfu.record = none → s.hli.prio.length < 16 → s.hli.prioWait = [] →
       raiseFault s kind line call detail test = { full with hli := { s.hli with prio := s.hli.prio ++ [notice] } }) ∧
     (s.sfu.mask[i] = false → s.sfu.record = none → 16 ≤ s.hli.prio.length →
       raiseFault s kind line call detail test = { full with hli := { s.hli with prioWait := s.hli.prioWait ++ [notice] } })) ∧
  (∀ s f rest, Requested s 0x07 f rest →
    Completes .faultClear s
      { afterReply s f rest (.done (.faultRecord s.sfu.record s.sfu.further)) with
        sfu := { s.sfu with record := none, further := false } }) ∧
  (∀ s f rest kinds, Requested s 0x0A f rest →
    ∃ mask, (∀ k, mask[faultIndex k] = decide (k ∈ kinds)) ∧
      Completes (.faultMask kinds) s
        { afterReply s f rest (.done .none) with sfu := { s.sfu with mask := mask } }) ∧
  ∀ s f rest kind, Requested s 0x08 f rest →
    let i := faultIndex kind
    let did := if s.sfu.mask[i] = true then TestOutcome.masked else if s.sfu.record.isSome = true then .further else .filled
    Completes (.faultTest kind) s (raiseFault (afterReply s f rest (.done (.faultTest did))) kind none none 0 true)

/-! ### The Billing Store (R175 to R180) -/

/-- R19, Table 1.8, R177, R179: the 37 bytes of a record, field by field; BILL READ answers with those of the record at
an index, or NOT FOUND, and changes nothing; AUDIT CLEAR reports both totals and zeroes them, and changes nothing else.
R178, step 1, and R78: BILL RELEASE removes the named record and every record ahead of it; 0 is a bad value and an
unknown number is NOT FOUND. No call is held there. -/
def Obligations.BillingStoreAnswersTheHost : Prop :=
  (∀ s f rest index,
     (Requested s 0x50 f rest → index ≤ 255 →
       (∀ r, s.bst.store[index]? = some r →
         OnlyAnswers (.billRead index) s f rest (.done (.record (recordBytes r)))) ∧
       (s.bst.store.length ≤ index → OnlyAnswers (.billRead index) s f rest (.refused .notFound .none))) ∧
     (Requested s 0x09 f rest →
       Completes .auditClear s
         { afterReply s f rest (.done (.audit s.bst.auditCount s.bst.auditCharge)) with
           bst := { s.bst with auditCount := 0, auditCharge := 0 } })) ∧
  (∀ r : BillRecord,
     let field := fun (at' n : Nat) => (List.range n).foldl (fun v j => 256 * v + byteAt (recordBytes r) (at' + j)) 0
     let speedCodes : Speed → Nat := fun v => match v with
       | .b110 => 0 | .b150 => 1 | .b300 => 2 | .b600 => 3 | .b1200 => 4 | .b2400 => 5 | .b4800 => 6 | .b9600 => 7
     let causeCodes : EndCause → Nat := fun v => match v with
       | .hangup => 0x01 | .hostClose => 0x02 | .allowance => 0x03 | .window => 0x04 | .hours => 0x05 | .idle => 0x06
       | .suspended => 0x07 | .lineDisabled => 0x08 | .serviceEnd => 0x09 | .queueTimeout => 0x0A | .hostDenied => 0x0B
       | .hostTimeout => 0x0C | .attempts => 0x0D | .noResponse => 0x0E | .directoryUnavailable => 0x0F | .refused => 0x10
       | .forcedRestart => 0x11
     (recordBytes r).length = 37 ∧ field 0 2 = r.number % 2 ^ 16 ∧ field 2 3 = r.account % 2 ^ 24 ∧ field 5 1 = r.line.val ∧
     field 6 2 = r.call % 2 ^ 16 ∧ (∀ v, r.speed = some v → field 8 1 = speedCodes v) ∧
     (∀ k, r.cls = some k → field 9 1 = k.val) ∧ (∀ v, r.endCause = some v → field 10 1 = causeCodes v) ∧
     field 11 1 = (if r.warned = true then 1 else 0) + (if r.graceEntered = true then 2 else 0) +
       (if r.tariffChanged = true then 4 else 0) + (if r.neverConnected = true then 8 else 0) ∧
     (∀ d, r.signOn = some d → field 12 1 = d.day % 2 ^ 8 ∧ field 13 3 = d.second % 2 ^ 24) ∧
     (∀ d, r.connectAt = some d → field 16 1 = d.day % 2 ^ 8 ∧ field 17 3 = d.second % 2 ^ 24) ∧
     (r.connectAt = none → field 16 1 = 0xFF ∧ field 17 3 = 0) ∧ field 20 4 = r.connectSecs % 2 ^ 32 ∧
     field 24 3 = r.queueSecs % 2 ^ 24 ∧ field 27 4 = r.charge % 2 ^ 32 ∧ field 31 2 = r.fadeSecs % 2 ^ 16 ∧
     field 33 2 = r.residue % 2 ^ 16 ∧ field 35 2 = r.generation % 2 ^ 16) ∧
  ∀ s f rest number, Requested s 0x51 f rest →
    (number = 0 → OnlyAnswers (.billRelease number) s f rest (.refused .badValue (.index 0))) ∧
    (1 ≤ number → number ≤ 65535 → (∀ r ∈ s.bst.store, r.number ≠ number) →
      OnlyAnswers (.billRelease number) s f rest (.refused .notFound .none)) ∧
    ∀ ahead r behind, 1 ≤ number → number ≤ 65535 → s.bst.store = ahead ++ r :: behind → r.number = number →
      (∀ x ∈ ahead, x.number ≠ number) → s.bst.held = [] →
      ∃ t, Completes (.billRelease number) s t ∧
        t.hli = (afterReply s f rest (.done (.released (ahead.length + 1) 0))).hli ∧
        t.bst = { s.bst with store := behind } ∧ t.lines = s.lines ∧ t.adm = s.adm ∧ t.sfu = s.sfu ∧ t.ctu = s.ctu ∧
        (∀ g, (∀ x ∈ ahead ++ [r], x.entry.1 ≠ g) → t.frame g = s.frame g) ∧
        (∀ e, ahead = [] → s.entryAt r.entry = some e → e.withdrawn = false → (s.frame r.entry.1).st = .valid →
          t.entryAt r.entry = some { e with stored := e.stored - 1 } ∧
          (t.frame r.entry.1).pins = (s.frame r.entry.1).pins - 1 ∧ (t.frame r.entry.1).st = .valid)

/-- R176, R178, step 2: a BILL RELEASE hands the places it frees to the held order, from its head, until that order is
empty or the store is full again. -/
def Obligations.FreedPlacesGoToTheHeldOrder : Prop :=
  ∀ s f rest number r ahead behind, Requested s 0x51 f rest → 1 ≤ number → number ≤ 65535 →
    s.bst.store = ahead ++ r :: behind → r.number = number → (∀ x ∈ ahead, x.number ≠ number) →
    s.bst.store.length ≤ 32 → (∀ l ∈ s.bst.held, ∃ c, s.callOn l = some c ∧ c.attach.isSome = true) → s.bst.held.Nodup →
    ∃ t n, Completes (.billRelease number) s t ∧
      t.hli.prio[s.hli.prio.length]? = some (replyTo f (.done (.released (ahead.length + 1) n))) ∧
      t.bst.held = s.bst.held.drop n ∧ t.bst.store.length = behind.length + n ∧ behind <+: t.bst.store ∧
      (t.bst.held = [] ∨ t.bst.store.length = 32) ∧ t.bst.store.length ≤ 32 ∧
      (∀ l ∈ s.bst.held.take n, (s.line l).st = .drop → t.callOn l = none) ∧
      (∀ l, l ∉ s.bst.held → t.line l = s.line l)

/-! ### Lines (R31 to R56) -/

/-- R51, R52, R129: LINE SET is refused at or above N and for the first field out of range; otherwise it replaces the
line's settings and, of the call's copy, the flow control field, turning the flow state off with it. -/
def Obligations.LineSetLeavesTheCallsCopyButForFlowControl : Prop :=
  ∀ s f rest new, Requested s 0x10 f rest →
    let l := lineOf f
    let good : Nat → Prop := fun i => match i with
      | 1 => new.answerAfter ≤ 15
      | 5 => new.answerWait.count ≤ 63
      | 6 => new.speedWait.count ≤ 63
      | 7 => new.holdover.count ≤ 63
      | 8 => new.forwardCount ≤ 4
      | 9 => 1 ≤ new.forwardSize ∧ new.forwardSize ≤ 64
      | 10 => 1 ≤ new.batchGap ∧ new.batchGap ≤ 25
      | _ => True
    (s.fitted ≤ l.val → OnlyAnswers (.lineSet new) s f rest (.refused .noLine .none)) ∧
    (l.val < s.fitted → ∀ i, ¬ good i → (∀ j, j < i → good j) →
      OnlyAnswers (.lineSet new) s f rest (.refused .badValue (.index i))) ∧
    (l.val < s.fitted → (∀ i, good i) →
      (s.callOn l = none →
        Completes (.lineSet new) s ((afterReply s f rest (.done .none)).setLine l { s.line l with settings := new })) ∧
      ∀ c, s.callOn l = some c →
        Completes (.lineSet new) s ((afterReply s f rest (.done .none)).setLine l
          { s.line l with
            settings := new
            call := some { c with
              copy := { c.copy with flowControl := new.flowControl }
              outputPaused := if c.copy.flowControl = true ∧ new.flowControl = false then false else c.outputPaused
              terminalStopped := if c.copy.flowControl = true ∧ new.flowControl = false then false else c.terminalStopped
              pendingFlow := if c.copy.flowControl = true ∧ new.flowControl = false ∧ c.terminalStopped = true then
                  (if c.pendingFlow = some .xoff then none else some .xon) else c.pendingFlow } }))

/-- R53, R54: LINE ENABLE and LINE DISABLE, with the line state after the take as the detail; a disable with a call on the
line marks it, and NOW ends the call. R32: LINES FITTED. Outside 1 to 48 it is refused; raising N keeps every line;
lowering it puts the lines past N with no call OFF and ends the calls of the others. R32 and R54 do not name the ring
count of a line that goes OFF from RING: that it is 0 is the model's choice (log entry 36). -/
def Obligations.LinesAreEnabledDisabledAndFitted : Prop :=
  (∀ s f rest l mode, lineOf f = l →
     (Requested s 0x11 f rest → s.fitted ≤ l.val → OnlyAnswers .lineEnable s f rest (.refused .noLine .none)) ∧
     (Requested s 0x11 f rest → l.val < s.fitted → (s.line l).st = .off →
       Completes .lineEnable s ((afterReply s f rest (.done (.lineState .idle))).setLine l
         { s.line l with st := .idle, ringCount := 0 })) ∧
     (Requested s 0x11 f rest → l.val < s.fitted → (s.line l).st ≠ .off →
       OnlyAnswers .lineEnable s f rest (.done (.lineState (s.line l).st))) ∧
     (Requested s 0x12 f rest → s.callOn l = none →
       (s.line l).st = .idle ∨ (s.line l).st = .ring ∨ (s.line l).st = .answer ∨ (s.line l).st = .drop →
       Completes (.lineDisable mode) s ((afterReply s f rest (.done (.lineState .off))).setLine l
         { s.line l with st := .off, ringCount := 0, ringGap := none, answerWait := none, dropGuard := none
                         disablePending := false })) ∧
     (Requested s 0x12 f rest → (s.callOn l).isSome = true →
       Completes (.lineDisable .afterCall) s ((afterReply s f rest (.done (.lineState (s.line l).st))).setLine l
         { s.line l with disablePending := true })) ∧
     (Requested s 0x12 f rest → ∀ c, s.callOn l = some c → c.endCause = none → stepDue s l = false →
       EndsCall (.lineDisable .now) s l c .lineDisabled)) ∧
  ∀ s f rest n, Requested s 0x13 f rest →
    ((n = 0 ∨ 48 < n) → OnlyAnswers (.linesFitted n) s f rest (.refused .badValue (.index 0))) ∧
    (1 ≤ n → n ≤ 48 → s.fitted ≤ n →
      Completes (.linesFitted n) s { afterReply s f rest (.done (.count 0)) with fitted := n }) ∧
    (1 ≤ n → n ≤ 48 → n < s.fitted → (∀ l, stepDue s l = false) →
      ∃ t, Completes (.linesFitted n) s t ∧ t.fitted = n ∧
        (∀ l, n ≤ l.val → s.callOn l = none → (s.line l).st ≠ .speed → (s.line l).st ≠ .up → (s.line l).st ≠ .fade →
          (t.line l).st = .off) ∧
        (∀ l c, n ≤ l.val → s.callOn l = some c → c.endCause = none → CarriesCause t l c .lineDisabled) ∧
        (∀ l, l.val < n → (∀ m : LineNo, n ≤ m.val → ¬ SameAccount s m l) → t.line l = s.line l))

/-- R33, R34, R35: rings are counted in IDLE while OPEN, and in RING; the count reaching answer-after takes the line to
ANSWER, where carrier that is active already arrives at once; other rings are ignored; the gap's expiry lets the count
lapse. R37: an answer wait that expires in ANSWER drops the line and is counted, and carrier that comes afterwards finds
the line in DROP, where its level is recorded (log entry 19). That a command whose event cannot come in a state changes
nothing is the model's choice (log entry 2). An expiry acts when it is due (log entry 3). -/
def Obligations.RingsAreCountedUpToTheAnswer : Prop :=
  (∀ s l low, let x := s.line l
     let ring := Instr.ring ⟨l, low⟩
     (s.fitted ≤ l.val → Completes ring s s) ∧
     (x.st ≠ .idle → x.st ≠ .ring → Completes ring s s) ∧
     (x.st = .idle → s.sfu.service ≠ .opened → Completes ring s s) ∧
     (∀ count, l.val < s.fitted →
       (x.st = .idle ∧ s.sfu.service = .opened ∧ count = 1 ∨ x.st = .ring ∧ count = min (x.ringCount + 1) 15) →
       ((x.settings.answerAfter = 0 ∨ count < x.settings.answerAfter) →
         Completes ring s (s.setLine l { x with
           st := .ring, ringCount := count, ringGap := some 8, rxLow := low, ctr := { x.ctr with rings := oneMore x.ctr.rings } })) ∧
       (1 ≤ x.settings.answerAfter → x.settings.answerAfter ≤ count →
         let answered := s.setLine l { x with
           st := .answer, ringCount := 0, ringGap := none, rxLow := low
           answerWait := if x.settings.answerWait.count = 0 then some 1 else some (intervalSecs x.settings.answerWait)
           ctr := { x.ctr with rings := oneMore x.ctr.rings, answers := oneMore x.ctr.answers } }
         (x.carrier = false → Completes ring s answered) ∧
         (x.carrier = true → ∃ t, Completes (.carrierArrival l low) answered t ∧ Completes ring s t))) ∧
     (x.st = .ring → x.ringGap = some 0 →
       Completes (.ringGapExpiry l) s (s.setLine l { x with st := .idle, ringCount := 0, ringGap := none })) ∧
     ((x.st ≠ .ring ∨ x.ringGap ≠ some 0) → Completes (.ringGapExpiry l) s s)) ∧
  ∀ s l, let x := s.line l
    (x.st = .answer → x.answerWait = some 0 →
      Completes (.answerWaitExpiry l) s (s.setLine l { x with
        st := .drop, ringGap := none, answerWait := none, speedWait := none, holdover := none, dropGuard := some 2
        rxWait := false, zeroHeld := false
        ctr := { x.ctr with answerFailures := oneMore x.ctr.answerFailures, drops := oneMore x.ctr.drops } })) ∧
    (x.st ≠ .answer → Completes (.answerWaitExpiry l) s s) ∧
    (x.st = .drop → ∀ low, Completes (.carrierArrival l low) s (s.setLine l { x with carrier := true, rxLow := low }))

/-- R36, R20, R21, R52: carrier in ANSWER creates a call with a number of its own and a copy of the line's settings but
for answer-after and answer wait, in SPEED with AUTO set and in NAME on a line in UP with a fixed speed; elsewhere it
creates nothing. In OFF, IDLE, RING and DROP the level of the pins is recorded, and in SPEED and UP carrier is active
already (log entry 19). -/
def Obligations.CarrierInAnswerCreatesACall : Prop :=
  ∀ s l low, let x := s.line l
    (x.st = .answer → ∃ t c, Completes (.carrierArrival l low) s t ∧ t.callOn l = some c ∧
      (∀ m d, m ≠ l → s.callOn m = some d → d.number ≠ c.number) ∧ t.nextCall = advanceNumber c.number ∧
      c.copy = x.settings.toCallSettings ∧ c.attempts = 0 ∧ c.attach = none ∧ c.cls = none ∧ c.slotHeld = false ∧ c.endCause = none ∧
      c.meter = ⟨0, 0, 0, 0, 0, 0, 0, false, false, 0⟩ ∧ c.batch = [] ∧ c.credit = 0 ∧ c.notices = [] ∧
      (t.line l).answerWait = none ∧ (t.line l).ctr = { x.ctr with callsCreated := oneMore x.ctr.callsCreated } ∧
      OtherLinesKept s t l ∧ t.hli = s.hli ∧ t.acc = s.acc ∧ t.adm = s.adm ∧ t.ctu = s.ctu ∧ t.bst = s.bst ∧ t.sfu = s.sfu ∧
      (x.settings.speed = none → (t.line l).st = .speed ∧ c.phase = .speed ∧ c.speed = none ∧ (t.line l).attempts = 0 ∧
        (t.line l).speedWait = (if x.settings.speedWait.count = 0 then some 1 else some (intervalSecs x.settings.speedWait)) ∧
        (t.line l).rxWait = low ∧ c.txBuf = []) ∧
      ∀ v, x.settings.speed = some v → (t.line l).st = .up ∧ c.phase = .name ∧ c.speed = some v ∧
        c.fieldTimer = startTimer s.soe.fieldTimeout) ∧
    (x.st = .off ∨ x.st = .idle ∨ x.st = .ring ∨ x.st = .drop →
      Completes (.carrierArrival l low) s (s.setLine l { x with carrier := true, rxLow := low })) ∧
    (x.st = .speed ∨ x.st = .up → Completes (.carrierArrival l low) s s)

/-- R39, Table 3.3: a speed accepts a width that lies within one eighth of its nominal width either side, the nominal
width being floor(153600 / speed); the accepted widths of each speed, and the widths that fail. -/
def Obligations.WidthsAreClassifiedAsTable3_3 : Prop :=
  let bits : Speed → Nat := fun v => match v with
    | .b110 => 110 | .b150 => 150 | .b300 => 300 | .b600 => 600 | .b1200 => 1200 | .b2400 => 2400 | .b4800 => 4800
    | .b9600 => 9600
  ∀ w, 8 ≤ w → w ≤ 4095 →
    (∀ v, classifyWidth w = some v ↔ ((w : Int) - ((153600 / bits v : Nat) : Int)).natAbs * 8 ≤ 153600 / bits v) ∧
    (classifyWidth w = some .b9600 ↔ 14 ≤ w ∧ w ≤ 18) ∧ (classifyWidth w = some .b4800 ↔ 28 ≤ w ∧ w ≤ 36) ∧
    (classifyWidth w = some .b2400 ↔ 56 ≤ w ∧ w ≤ 72) ∧ (classifyWidth w = some .b1200 ↔ 112 ≤ w ∧ w ≤ 144) ∧
    (classifyWidth w = some .b600 ↔ 224 ≤ w ∧ w ≤ 288) ∧ (classifyWidth w = some .b300 ↔ 448 ≤ w ∧ w ≤ 576) ∧
    (classifyWidth w = some .b150 ↔ 896 ≤ w ∧ w ≤ 1152) ∧ (classifyWidth w = some .b110 ↔ 1222 ≤ w ∧ w ≤ 1570) ∧
    (classifyWidth w = none ↔ w ≤ 13 ∨ (19 ≤ w ∧ w ≤ 27) ∨ (37 ≤ w ∧ w ≤ 55) ∨ (73 ≤ w ∧ w ≤ 111) ∨
      (145 ≤ w ∧ w ≤ 223) ∨ (289 ≤ w ∧ w ≤ 447) ∨ (577 ≤ w ∧ w ≤ 895) ∨ (1153 ≤ w ∧ w ≤ 1221) ∨ 1571 ≤ w)

/-- R38, R39, R40: noise changes neither attempts nor last width; an accepted width takes the line to UP and the call to
NAME at that speed; a failed one and an overflow count an attempt, the third of which ends the call; after an overflow
the line waits for a rise. That a command whose event cannot come in a state changes nothing is the model's choice (log
entry 2). -/
def Obligations.SpeedMeasurementAcceptsOrCounts : Prop :=
  ∀ s l (w : Fin 4096) c, s.callOn l = some c →
    let x := s.line l
    let failed := fun (y : Line) => s.setLine l { y with
      attempts := x.attempts + 1, ctr := { x.ctr with autobaudFailures := oneMore x.ctr.autobaudFailures } }
    (x.st ≠ .speed ∨ x.rxWait = true → Completes (.widthMeasured l w) s s ∧ Completes (.widthCounterOverflow l) s s) ∧
    (x.st = .speed → x.rxWait = false →
      (w.val < 8 → Completes (.widthMeasured l w) s (s.setLine l { x with widthCounter := w.val, rxLow := false })) ∧
      (∀ v, 8 ≤ w.val → classifyWidth w.val = some v →
        ∃ t d, Completes (.widthMeasured l w) s t ∧ t.callOn l = some d ∧ d.phase = .name ∧ d.speed = some v ∧
          d.number = c.number ∧ d.copy = c.copy ∧ d.attempts = c.attempts ∧ d.nameBuf = [] ∧ d.pwBuf = [] ∧
          d.fieldTimer = startTimer s.soe.fieldTimeout ∧ (t.line l).st = .up ∧ (t.line l).speedWait = none ∧
          (t.line l).lastWidth = w.val ∧ (t.line l).attempts = x.attempts ∧ (t.line l).ctr = x.ctr ∧ OtherLinesKept s t l ∧
          t.hli = s.hli ∧ t.acc = s.acc ∧ t.adm = s.adm ∧ t.bst = s.bst ∧ t.ctu = s.ctu ∧ t.sfu = s.sfu) ∧
      (8 ≤ w.val → classifyWidth w.val = none → x.attempts < 2 →
        Completes (.widthMeasured l w) s (failed { x with widthCounter := w.val, rxLow := false, lastWidth := w.val })) ∧
      (x.attempts < 2 → Completes (.widthCounterOverflow l) s
        (failed { x with widthCounter := 4095, lastWidth := 4096, rxLow := true, rxWait := true })) ∧
      (2 ≤ x.attempts → c.endCause = none → stepDue s l = false →
        (8 ≤ w.val → classifyWidth w.val = none → EndsCall (.widthMeasured l w) s l c .noResponse) ∧
        EndsCall (.widthCounterOverflow l) s l c .noResponse)) ∧
    ((x.st ≠ .up ∨ x.zeroHeld = false) → Completes (.receiveDataRise l) s
      (s.setLine l { x with rxWait := false, rxLow := false, zeroHeld := false }))

/-- R26, R28, R40, R48, R66, R104: an expiry that is due in the states and phases of its rule ends the call with the
rule's cause, the deadlines in the order ALLOWANCE, WINDOW, HOURS; one that is not due, or comes elsewhere, changes
nothing. That an expiry acts only when due, and otherwise changes nothing, is the model's reading (log entries 2 and
3). An expiry comes after the counts of its own 1-second event: the model's choice (log entry 40). -/
def Obligations.ExpiredTimersEndTheCall : Prop :=
  ∀ s l c, s.callOn l = some c → c.endCause = none → stepDue s l = false →
    let x := s.line l
    let runs := c.phase = .queued ∨ c.phase = .opening ∨ c.phase = .connected
    (x.st = .speed → x.speedWait = some 0 → EndsCall (.speedWaitExpiry l) s l c .noResponse) ∧
    ((x.st ≠ .speed ∨ x.speedWait ≠ some 0) → Completes (.speedWaitExpiry l) s s) ∧
    (x.st = .fade → x.holdover = some 0 → EndsCall (.holdoverExpiry l) s l c .hangup ∧
      ∃ t, Completes (.holdoverExpiry l) s t ∧ (t.line l).st = .drop ∧
        (t.line l).ctr.fadeExpiries = oneMore x.ctr.fadeExpiries) ∧
    ((x.st ≠ .fade ∨ x.holdover ≠ some 0) → Completes (.holdoverExpiry l) s s) ∧
    (c.phase = .name ∨ c.phase = .password → c.fieldTimer = some 0 → EndsCall (.fieldTimerExpiry l) s l c .noResponse) ∧
    (c.phase ≠ .name ∧ c.phase ≠ .password ∨ c.fieldTimer ≠ some 0 → Completes (.fieldTimerExpiry l) s s) ∧
    (c.phase = .queued → c.queueWait = some 0 → EndsCall (.queueWaitExpiry l) s l c .queueTimeout ∧
      ∃ t, Completes (.queueWaitExpiry l) s t ∧ t.adm.queueTimeouts = oneMore s.adm.queueTimeouts ∧
        ∀ k : ClassNo, t.adm.queues[k] = (s.adm.queues[k]).filter (· ≠ l)) ∧
    (c.phase ≠ .queued ∨ c.queueWait ≠ some 0 → Completes (.queueWaitExpiry l) s s) ∧
    (c.phase = .connected → x.st = .up → c.idle = some 0 → EndsCall (.idleTimerExpiry l) s l c .idle) ∧
    (c.phase ≠ .connected ∨ x.st ≠ .up ∨ c.idle ≠ some 0 → Completes (.idleTimerExpiry l) s s) ∧
    (runs → c.pend.allowance = some 0 → EndsCall (.deadlineExpiry l) s l c .allowance) ∧
    (runs → c.pend.allowance ≠ some 0 → c.pend.window = some 0 → EndsCall (.deadlineExpiry l) s l c .window) ∧
    (runs → c.pend.allowance ≠ some 0 → c.pend.window ≠ some 0 → c.pend.hours = some 0 →
      EndsCall (.deadlineExpiry l) s l c .hours) ∧
    (¬ runs ∨ c.pend.allowance ≠ some 0 ∧ c.pend.window ≠ some 0 ∧ c.pend.hours ≠ some 0 →
      Completes (.deadlineExpiry l) s s)

/-- R167, R165, R172: a drain limit that expires discards what is left, as residue in a host close before GOODBYE, drops
the line and lets the CLOSED go; R29: an unattached record is removed then. R50: a line leaves DROP once its guard has
passed and its record is gone, to OFF if it is to be disabled or lies past N. That an expiry acts only when due, and
otherwise changes nothing, is the model's reading (log entries 2 and 3). That a line going OFF keeps no ring count is
the model's choice (log entry 36). A zero character held at the drop is discarded uncounted: the model's choice (log
entry 42). -/
def Obligations.DrainLimitAndDropGuardClearTheLine : Prop :=
  ∀ s l, let x := s.line l
    let dropped : Line := { x with
      st := .drop, ringGap := none, answerWait := none, speedWait := none, holdover := none, dropGuard := some 2
      rxWait := false, zeroHeld := false, ctr := { x.ctr with drops := oneMore x.ctr.drops } }
    (∀ c, s.callOn l = some c → c.phase = .ending → c.drain = some 0 → c.endCause.isSome = true →
      (c.attach.isSome = true → c.closedDue = true → c.closedSent = false → c.batch = [] → s.hli.ord.length < 47 →
        Completes (.drainLimitExpiry l) s
          ((sendsOrdered s { tag := l.val, call := c.number, msg := .closed c.endCause c.meter.charge }).setLine l
            { dropped with call := some { c with
                residue := if c.goodbyePending = true then c.residue + c.txBuf.length else c.residue
                txBuf := [], emission := [], drain := none, goodbyePending := false, released := true
                closedSent := true } })) ∧
      (c.attach = none → (∀ m, s.sfu.service ≠ .closing m) →
        Completes (.drainLimitExpiry l) s
          (({ s with forwardWait := s.forwardWait.filter (· ≠ l) } : State).setLine l { dropped with call := none }))) ∧
    (∀ c, s.callOn l = some c → (c.phase ≠ .ending ∨ c.drain ≠ some 0) → Completes (.drainLimitExpiry l) s s) ∧
    (x.st = .drop → x.dropGuard = some 0 → x.call = none → x.disablePending = false → l.val < s.fitted →
      Completes (.dropGuardPassed l) s (s.setLine l { x with st := .idle, ringCount := 0, dropGuard := none })) ∧
    (x.st = .drop → x.dropGuard = some 0 → x.call = none → (x.disablePending = true ∨ s.fitted ≤ l.val) →
      Completes (.dropGuardPassed l) s (s.setLine l { x with
        st := .off, ringCount := 0, ringGap := none, answerWait := none, dropGuard := none, disablePending := false })) ∧
    (x.st = .drop → x.dropGuard = some 0 → x.call ≠ none →
      Completes (.dropGuardPassed l) s (s.setLine l { x with dropGuard := none })) ∧
    (x.st ≠ .drop ∨ x.dropGuard ≠ some 0 → Completes (.dropGuardPassed l) s s)

/-- R46, R49, R155: what a loss of carrier does, by the line's state and its call, and its return in FADE, which charges
the fade seconds at the frozen rate. The step of the call is not complete here, and its entry has no limit at the
return. A rise in FADE is a return under either of its names, and a return that finds the line in another state is a
rise of carrier there: it creates a call in ANSWER, and in OFF, IDLE, RING and DROP its level is recorded (log entry
19). A loss elsewhere changes the level of the pin and the losses counter only (log entries 2, 4, 17 and 19). A zero
character held at the loss is discarded uncounted: the model's choice (log entry 42). -/
def Obligations.CarrierLossFadesOrDropsTheLine : Prop :=
  ∀ s l, stepDue s l = false →
    let x := s.line l
    let lost := { x.ctr with carrierLosses := oneMore x.ctr.carrierLosses }
    (∀ c, s.callOn l = some c → c.phase = .connected → c.endCause = none → x.st = .up → 1 ≤ c.copy.holdover.count →
      Completes (.carrierLoss l) s (s.setLine l { x with
        st := .fade, carrier := false, holdover := some (intervalSecs c.copy.holdover), rxWait := false, zeroHeld := false
        ctr := { lost with fades := oneMore x.ctr.fades }
        call := some { c with meter := { c.meter with fadeSecs := 0 } } })) ∧
    (∀ c, s.callOn l = some c → c.endCause = none → (x.st = .speed ∨ x.st = .up) →
      (c.phase ≠ .connected ∨ x.st = .speed ∨ c.copy.holdover.count = 0) →
      EndsCall (.carrierLoss l) s l c .hangup ∧ ∃ t, Completes (.carrierLoss l) s t ∧ (t.line l).st = .drop) ∧
    (∀ c, s.callOn l = some c → c.endCause.isSome = true → (x.st = .speed ∨ x.st = .up) →
      ∃ t, Completes (.carrierLoss l) s t ∧ (t.line l).st = .drop ∧ OtherLinesKept s t l ∧
        ∀ c', t.callOn l = some c' → c'.endCause = c.endCause ∧ c'.drain = none ∧ c'.txBuf = [] ∧ c'.emission = []) ∧
    (x.st = .fade → Completes (.carrierLoss l) s (s.setLine l { x with carrier := false, ctr := lost })) ∧
    (x.st ≠ .speed → x.st ≠ .up → x.st ≠ .fade → Completes (.carrierLoss l) s (s.setLine l { x with carrier := false })) ∧
    (∀ low, x.st = .off ∨ x.st = .idle ∨ x.st = .ring ∨ x.st = .drop →
      Completes (.carrierReturn ⟨l, low⟩) s (s.setLine l { x with carrier := true, rxLow := low })) ∧
    (∀ low, x.st = .speed ∨ x.st = .up → Completes (.carrierReturn ⟨l, low⟩) s s) ∧
    (∀ low, x.st = .answer → ∃ t, Completes (.carrierArrival l low) s t ∧ Completes (.carrierReturn ⟨l, low⟩) s t) ∧
    ∀ low c at' e, s.callOn l = some c → Unlimited s c at' e → x.st = .fade →
      let total := c.meter.acc + c.meter.stepRate * c.meter.fadeSecs
      ∃ t, Completes (.carrierReturn ⟨l, low⟩) s t ∧ Completes (.carrierArrival l low) s t ∧
        t.line l = { x with
          st := .up, carrier := true, rxLow := low, holdover := none, rxWait := false, zeroHeld := false
          ctr := { x.ctr with fadeReturns := oneMore x.ctr.fadeReturns }
          call := some { c with meter := { c.meter with
            fadeSecs := 0, connectSecs := c.meter.connectSecs + c.meter.fadeSecs, acc := total % 3600
            charge := c.meter.charge + total / 3600 } } } ∧
        OtherLinesKept s t l ∧ t.entryAt at' = some { e with charged := e.charged + BitVec.ofNat 32 (total / 3600) } ∧
        (∀ at2, at2 ≠ at' → t.entryAt at2 = s.entryAt at2) ∧
        t.mtr = { s.mtr with fadeLumps := if 1 ≤ c.meter.fadeSecs then oneMore s.mtr.fadeLumps else s.mtr.fadeLumps } ∧
        t.hli = s.hli ∧ t.adm = s.adm ∧ t.ctu = s.ctu ∧ t.bst = s.bst ∧ t.sfu = s.sfu ∧ t.soe = s.soe

/-! ### The sign-on dialogue (R57 to R74) -/

/-- R58: TEXT LOAD replaces one slot's text, with its form and its range checks; R74: DIALOGUE SET replaces its three
settings. -/
def Obligations.TextsAndDialogueSettingsAreReplaced : Prop :=
  (∀ f : InFrame, f.code = 0x14 → f.tag = 255 → f.call = 0 →
    let right := 2 ≤ f.body.length ∧ f.body.length = 2 + byteAt f.body 1
    (right → frameForm f = .wellFormed) ∧ (¬ right → frameForm f = .malformed)) ∧
  (∀ s f rest, Requested s 0x14 f rest →
    let slot := byteAt f.body 0
    let chars := f.body.drop 2
    let bad := (∃ ch ∈ chars, ch < 0x20 ∨ 0x7E < ch) ∨ 1 < chars.count 0x23
    (23 < slot → OnlyAnswers .textLoad s f rest (.refused .badValue (.index 0))) ∧
    (slot ≤ 23 → 80 < chars.length → OnlyAnswers .textLoad s f rest (.refused .badValue (.index 1))) ∧
    (slot ≤ 23 → chars.length ≤ 80 → bad → OnlyAnswers .textLoad s f rest (.refused .badValue (.index 2))) ∧
    (slot ≤ 23 → chars.length ≤ 80 → ¬ bad → ∃ texts,
      Completes .textLoad s { afterReply s f rest (.done .none) with soe := { s.soe with texts := texts } } ∧
      ∀ i : Fin 24, texts[i] = if i.val = slot then chars else s.soe.texts[i])) ∧
  (∀ s l slot n, s.soe.texts[slot] = [] → placeText s l slot n = s ∧ queueNotice s l slot n = s) ∧
  ∀ s f rest limit fieldTime drain, Requested s 0x15 f rest →
    let c := Instr.dialogueSet limit fieldTime drain
    ((limit = 0 ∨ 7 < limit) → OnlyAnswers c s f rest (.refused .badValue (.index 0))) ∧
    (1 ≤ limit → limit ≤ 7 → 63 < fieldTime.count → OnlyAnswers c s f rest (.refused .badValue (.index 1))) ∧
    (1 ≤ limit → limit ≤ 7 → fieldTime.count ≤ 63 → 63 < drain.count →
      OnlyAnswers c s f rest (.refused .badValue (.index 2))) ∧
    (1 ≤ limit → limit ≤ 7 → fieldTime.count ≤ 63 → drain.count ≤ 63 →
      Completes c s { afterReply s f rest (.done .none) with
        soe := { s.soe with attemptLimit := limit, fieldTimeout := fieldTime, drainLimit := drain } })

/-- R61, R62, R63, R66, R59: a character delivered in NAME, by its kind: stored in upper case and echoed while there is
room, refused with BEL, or one of the control characters; what the transmit buffer cannot hold whole is dropped and
counted; each restarts the field timer and changes nothing outside its call. R41, R42: the character is what the bits
give in the call's format, SUB for a parity error, which the line counts. -/
def Obligations.NameFieldTakesItsCharacters : Prop :=
  ∀ s l c bits parity, Hears s l c → c.phase = .name →
    let ch := delivered c.copy.format bits parity
    let s' := parityCounted s l c.copy.format bits parity
    let cmd := Instr.receivedCharacter l bits parity true
    let after := fun (d : Call) => heard s' l { d with fieldTimer := startTimer s.soe.fieldTimeout }
    let becomes := fun (d : Call) => Completes cmd s (after d)
    let placing := fun (chars : List Byte) (d : Call) =>
      if chars = [] ∨ c.txBuf.length + chars.length ≤ 256 then becomes { d with txBuf := c.txBuf ++ chars }
      else Completes cmd s { after d with soe := { s.soe with textDrops := oneMore s.soe.textDrops } }
    let upper : Byte := if 0x61 ≤ ch ∧ ch ≤ 0x7A then ch - 0x20 else ch
    let letter := (0x41 ≤ upper ∧ upper ≤ 0x5A) ∨ (0x30 ≤ upper ∧ upper ≤ 0x39)
    let control := ch = 0x0D ∨ ch = 0x0A ∨ ch = 0x11 ∨ ch = 0x13 ∨ ch = 0x08 ∨ ch = 0x7F ∨ ch = 0x18
    (letter → c.nameBuf.length < 8 → placing [upper] { c with nameBuf := c.nameBuf ++ [upper] }) ∧
    (¬ control → (¬ letter ∨ 8 ≤ c.nameBuf.length) → placing [0x07] c) ∧
    (ch = 0x0A ∨ ch = 0x11 ∨ ch = 0x13 → becomes c) ∧
    (ch = 0x08 ∨ ch = 0x7F → c.nameBuf = [] → placing [0x07] c) ∧
    (ch = 0x08 ∨ ch = 0x7F → c.nameBuf ≠ [] → placing [0x08, 0x20, 0x08] { c with nameBuf := c.nameBuf.dropLast }) ∧
    (ch = 0x18 → placing (slotText s 1) { c with nameBuf := [] }) ∧
    (ch = 0x0D → c.nameBuf = [] → placing (slotText s 1) c) ∧
    (ch = 0x0D → c.nameBuf ≠ [] → placing (slotText s 2) { c with phase := .password, pwBuf := [] })

/-- R64, R62, R65, R66: a character delivered in PASSWORD: stored without echo while there is room, refused with BEL, or
one of the control characters; a CR while the service is not OPEN ends the call with SERVICE END. R41, R42: the
character is what the bits give in the call's format, SUB for a parity error, which the line counts. -/
def Obligations.PasswordFieldTakesItsCharacters : Prop :=
  ∀ s l c bits parity, Hears s l c → c.phase = .password →
    let ch := delivered c.copy.format bits parity
    let s' := parityCounted s l c.copy.format bits parity
    let cmd := Instr.receivedCharacter l bits parity true
    let after := fun (d : Call) => heard s' l { d with fieldTimer := startTimer s.soe.fieldTimeout }
    let becomes := fun (d : Call) => Completes cmd s (after d)
    let placing := fun (chars : List Byte) (d : Call) =>
      if chars = [] ∨ c.txBuf.length + chars.length ≤ 256 then becomes { d with txBuf := c.txBuf ++ chars }
      else Completes cmd s { after d with soe := { s.soe with textDrops := oneMore s.soe.textDrops } }
    let control := ch = 0x0D ∨ ch = 0x0A ∨ ch = 0x11 ∨ ch = 0x13 ∨ ch = 0x08 ∨ ch = 0x7F ∨ ch = 0x18
    (0x20 ≤ ch → ch ≤ 0x7E → c.pwBuf.length < 12 → becomes { c with pwBuf := c.pwBuf ++ [ch] }) ∧
    (¬ control → (ch < 0x20 ∨ 0x7E < ch ∨ 12 ≤ c.pwBuf.length) → placing [0x07] c) ∧
    (ch = 0x0A ∨ ch = 0x11 ∨ ch = 0x13 → becomes c) ∧
    (ch = 0x08 ∨ ch = 0x7F → c.pwBuf = [] → placing [0x07] c) ∧
    (ch = 0x08 ∨ ch = 0x7F → c.pwBuf ≠ [] → becomes { c with pwBuf := c.pwBuf.dropLast }) ∧
    (ch = 0x18 → placing (slotText s 2) { c with pwBuf := [] }) ∧
    (ch = 0x0D → s.sfu.service ≠ .opened → c.endCause = none → EndsCall cmd s l c .serviceEnd)

/-- R41, R42, R65, R67, R79, R80, R82: a CR delivered in PASSWORD while the service is OPEN hands the padded name and its
bucket to the cache; where the bucket is in no frame and no fetch, it is fetched into the lowest free slot and the
lowest EMPTY frame or, where none is EMPTY, the least recently used VALID frame with no pins, which loses its bucket.
No lookup waits before it, and the priority lane has room. The fresh marker of the frame that is taken is cleared: the
model's choice (log entry 24). -/
def Obligations.LookupOfAnUncachedBucketIsFetched : Prop :=
  ∀ s l c bits parity (i : SlotNo) f, Hears s l c → c.phase = .password → s.sfu.service = .opened →
    delivered c.copy.format bits parity = 0x0D →
    (∀ (j : SlotNo) x, s.acc.slots[j] = some x → x.bucket ≠ typedBucket s c) →
    (∀ g, (s.frame g).bucket ≠ some (typedBucket s c)) →
    s.acc.backlog = [] → s.acc.slots[i] = none → (∀ j : SlotNo, j < i → s.acc.slots[j] ≠ none) →
    LoadTakes s f → s.hli.prio.length < 16 → s.hli.prioWait = [] →
    let b := typedBucket s c
    ∃ t, Completes (.receivedCharacter l bits parity true) s t ∧
      t.line l = { s.line l with rxLow := false, call := some { c with phase := .lookup, fieldTimer := none } } ∧
      OtherLinesKept s t l ∧ t.acc.lookups = oneMore s.acc.lookups ∧ t.acc.fetches = oneMore s.acc.fetches ∧
      t.acc.slots[i] = some
        { bucket := b, frame := f, kind := .load, timer := startTimer s.acc.wait
          waiters := [{ line := l, call := c.number, name := padName c.nameBuf, bucket := b }] } ∧
      (∀ j : SlotNo, j ≠ i → t.acc.slots[j] = s.acc.slots[j]) ∧
      t.frame f = { Frame.empty with st := .fetching .load, bucket := some b } ∧ (∀ g, g ≠ f → t.frame g = s.frame g) ∧
      t.acc.backlog = [] ∧ t.acc.order = s.acc.order ∧
      t.hli = { s.hli with prio := s.hli.prio ++ [{ tag := 255, call := 0, msg := .bucketFetch i b }] } ∧
      t.soe = s.soe ∧ t.adm = s.adm ∧ t.ctu = s.ctu ∧ t.bst = s.bst ∧ t.sfu = s.sfu

/-- R67, R68: the hash of a name and the check word of a password as the weighted sums that their steps make, and when a
password passes. -/
def Obligations.HashAndCheckWordAreWeightedSums : Prop :=
  (∀ b : Byte, (0x41 ≤ b ∧ b ≤ 0x5A → nameCode b = b.toNat - 64) ∧ (0x30 ≤ b ∧ b ≤ 0x39 → nameCode b = b.toNat - 21)) ∧
  (∀ name : List Byte, nameHash name =
    ((List.range name.length).map fun i => nameCode (name.getD i 0) * 37 ^ (name.length - 1 - i)).sum % 65536) ∧
  (∀ account (password : List Byte), checkWordOf account password =
    (account * 131 ^ (password.length + 1) +
      ((List.range password.length).map fun i =>
        ((password.getD i 0).toNat % 128) * (i + 1) * 131 ^ (password.length - i)).sum + password.length) % 2 ^ 32) ∧
  ∀ e password, passwordPasses e password = true ↔
    password ≠ [] ∧ e.checkWord = BitVec.ofNat 32 (checkWordOf e.account password)

/-- R72: the checks are made in the order of Table 4.6 and the first that fails gives the reason. -/
def Obligations.FirstFailingCheckDecides : Prop :=
  ∀ s c e,
    ((∀ row ∈ checkTable s c e, ¬ row.1) → signOnCheck s c e = none) ∧
    ∀ before row after, checkTable s c e = before ++ row :: after → (∀ earlier ∈ before, ¬ earlier.1) → row.1 →
      signOnCheck s c e = some row.2

/-- R73, R103, R105, R107, R108, R109, R78: a password that passes and an account that fails no check attach the call, pin
the frame and offer it: it is granted a slot at once, with the pointers of a grant and OPEN REQUEST, or joins the tail
of its queue, where a class that announces tells it its place. The ordered lane has room. The CR is one in the call's
format, with no parity error (R41, R42). -/
def Obligations.PassedSignOnIsAttachedAndOffered : Prop :=
  ∀ s l c bits parity f i e, delivered c.copy.format bits parity = 0x0D → Finds s l c f i e → passwordPasses e c.pwBuf = true →
    signOnCheck s c e = none → (∀ k : ClassNo, l ∉ s.adm.queues[k]) →
    let attached := { c with
      fieldTimer := none, pwBuf := [], attach := some (f, i), cls := some e.cls, signOn := some s.ctu.now }
    ∃ t, Completes (.receivedCharacter l bits parity true) s t ∧ OtherLinesKept s t l ∧
      t.acc.lookups = oneMore s.acc.lookups ∧ t.acc.slots = s.acc.slots ∧ t.acc.backlog = s.acc.backlog ∧
      t.acc.order = s.acc.order.filter (· ≠ f) ++ [f] ∧
      t.frame f = { s.frame f with
        pins := (s.frame f).pins + 1, entries := (s.frame f).entries.set i (some { e with attached := e.attached + 1 }) } ∧
      (∀ g, g ≠ f → t.frame g = s.frame g) ∧
      t.soe.texts = s.soe.texts ∧ t.ctu = s.ctu ∧ t.bst = s.bst ∧ t.sfu = s.sfu ∧ t.mtr = s.mtr ∧
      (slotFree s e.cls = true → s.hli.ord.length < 47 →
        t.line l = { s.line l with rxLow := false, call := some { attached with
          phase := .opening, slotHeld := true, openOutstanding := true, openWait := startTimer s.adm.openWait
          queueWait := none, announce := none } } ∧
        t.adm = { s.adm with
          inUse := s.adm.inUse + 1, grants := oneMore s.adm.grants
          upper := if s.adm.classes[e.cls].group = .high then e.cls.castSucc else 4
          low := if s.adm.classes[e.cls].group = .high then s.adm.low else e.cls } ∧
        ∀ v, c.speed = some v → t.hli = { s.hli with ord := s.hli.ord ++
          [{ tag := l.val, call := c.number, msg := .openRequest e.account (some e.cls) v }] }) ∧
      (slotFree s e.cls = false →
        let period := s.adm.classes[e.cls].announce
        let told := if period.count = 0 then [] else placed (numbered s 9 ((s.adm.queues[e.cls]).length + 1))
        let fits := told = [] ∨ c.txBuf.length + told.length ≤ 256
        t.line l = { s.line l with rxLow := false, call := some { attached with
          phase := .queued, queueWait := startTimer s.adm.classes[e.cls].queueWait, announce := startTimer period
          txBuf := if fits then c.txBuf ++ told else c.txBuf } } ∧
        t.soe.textDrops = (if fits then s.soe.textDrops else oneMore s.soe.textDrops) ∧
        t.adm = { s.adm with queues := s.adm.queues.set e.cls (s.adm.queues[e.cls] ++ [l]) } ∧ t.hli = s.hli)

/-- R70, R71, R72: a wrong password or an unknown name counts an attempt, tells the host and returns the call to NAME, or
ends it at the attempt limit with ATTEMPTS; a failed check ends it with REFUSED. Each is told to the host with its
reason, the attempts and the end cause, and to the caller with the text of its reason, ahead of GOODBYE where the call
ends. The bucket is cached, a drain limit is set, and the ordered lane and the transmit buffer have room. The CR is
one in the call's format, with no parity error (R41, R42). A call that ends here is not attached, as
EveryStepKeepsLinesCallsAndSlots says of PASSWORD. -/
def Obligations.RejectedSignOnIsToldToTheHost : Prop :=
  ∀ s l c bits parity f, delivered c.copy.format bits parity = 0x0D → LooksUp s l c f → c.endCause = none →
    s.hli.ord.length < 47 →
    let told := fun account reason attempts cause => { s.hli with ord := s.hli.ord ++
      [{ tag := l.val, call := c.number, msg := .signOnFailed (padName c.nameBuf) account reason attempts cause }] }
    let ends := fun slot account reason attempts cause =>
      EndsCall (.receivedCharacter l bits parity true) s l c cause ∧
      (c.attach = none → ∃ t, Completes (.receivedCharacter l bits parity true) s t ∧
        t.hli = told account reason attempts (some cause) ∧
        (let texts := c.txBuf ++ slotText s slot ++ slotText s 14
         1 ≤ s.soe.drainLimit.count → texts ≠ [] → texts.length ≤ 256 →
         ∃ d, t.callOn l = some d ∧ d.txBuf = texts ∧ d.attempts = attempts ∧ d.pwBuf = [] ∧
           d.drain = some (intervalSecs s.soe.drainLimit)))
    let invalid := fun account reason =>
      (c.attempts + 1 < s.soe.attemptLimit → c.txBuf.length + (slotText s 3).length + (slotText s 1).length ≤ 256 →
        ∃ t, Completes (.receivedCharacter l bits parity true) s t ∧
          t.line l = { s.line l with rxLow := false, call := some { c with
            phase := .name, attempts := c.attempts + 1, nameBuf := [], pwBuf := []
            fieldTimer := startTimer s.soe.fieldTimeout, txBuf := c.txBuf ++ slotText s 3 ++ slotText s 1 } } ∧
          OtherLinesKept s t l ∧ t.hli = told account reason (c.attempts + 1) none ∧ t.acc.frames = s.acc.frames ∧
          t.acc.slots = s.acc.slots ∧ t.adm = s.adm ∧ t.soe = s.soe ∧ t.bst = s.bst ∧ t.sfu = s.sfu ∧ t.ctu = s.ctu) ∧
      (s.soe.attemptLimit ≤ c.attempts + 1 → ends 3 account reason (c.attempts + 1) .attempts)
    (∀ i e, Finds s l c f i e → passwordPasses e c.pwBuf = false → invalid e.account .password) ∧
    ((s.frame f).fresh = true → (∀ i e, s.entryAt (f, i) = some e → e.withdrawn = true ∨ e.userName ≠ padName c.nameBuf) →
      invalid 0 .unknown) ∧
    (∀ i e reason, Finds s l c f i e → passwordPasses e c.pwBuf = true → signOnCheck s c e = some reason →
      let slot : Fin 24 := match reason with
        | .unknown | .password => 3
        | .suspended => 4
        | .line => 21
        | .window | .band => 5
        | .sessions => 7
        | .allowance => 6
        | .accounting => 16
        | .noPort => 8
      ends slot e.account reason c.attempts .refused)

/-! ### Characters of a call (R41 to R44, R120 to R134) -/

/-- R120, R121, R122, R124, R128, R28: a character delivered to a connected call: a flow command, one that is stored, one
that makes the batch due, or one declined at 64; and the expiry of the batch gap. Each delivery restarts the idle
timer. R41, R42: the character is what the bits give in the call's format, SUB for a parity error, which the line
counts. The batch gap runs out when its command says so (log entry 5). That a command whose event cannot come in a
state changes nothing is the model's choice (log entry 2). -/
def Obligations.ConnectedCharacterIsBatched : Prop :=
  ∀ s l c bits parity k, Hears s l c → c.phase = .connected → c.cls = some k →
    let cmd := Instr.receivedCharacter l bits parity true
    let ch := delivered c.copy.format bits parity
    let s' := parityCounted s l c.copy.format bits parity
    let x := s'.line l
    let d := { c with idle := startTimer s.adm.classes[k].idleLimit }
    let flow := c.copy.flowControl = true ∧ (ch = 0x11 ∨ ch = 0x13)
    let meets := c.batch.length + 1 = c.copy.forwardSize ∨ ch ∈ c.copy.forwardChars.toList.take c.copy.forwardCount
    let stops := c.copy.flowControl = true ∧ c.terminalStopped = false ∧ 47 ≤ c.batch.length
    let stored := { d with
      batch := c.batch ++ [ch], batchGap := if c.forwardDue = true then none else some c.copy.batchGap
      terminalStopped := if stops then true else c.terminalStopped
      pendingFlow := if stops then (if c.pendingFlow = some .xon then none else some .xoff) else c.pendingFlow }
    let sent := fun (u : State) (y : Line) (e : Call) => ({ u with hli := { s.hli with
        ord := s.hli.ord ++ [{ tag := l.val, call := c.number, msg := .termData e.batch }]
        congestions := if s.hli.ord.length = 47 then oneMore s.hli.congestions else s.hli.congestions } } : State).setLine l
      { y with
        car := { y.car with termData := oneMore y.car.termData }
        call := some { e with
          batch := [], forwardDue := false, batchGap := none, terminalStopped := false
          pendingFlow := if e.terminalStopped = true then (if e.pendingFlow = some FlowChar.xoff then none else some .xon)
            else e.pendingFlow } }
    (flow → Completes cmd s (heard s' l { d with outputPaused := decide (ch = 0x13) })) ∧
    (¬ flow → 64 ≤ c.batch.length → Completes cmd s
      (s'.setLine l { x with rxLow := false, ctr := { x.ctr with overruns := oneMore x.ctr.overruns }, call := some d })) ∧
    (¬ flow → c.batch.length < 64 → (¬ meets ∨ c.forwardDue = true) → Completes cmd s (heard s' l stored)) ∧
    (¬ flow → c.batch.length < 64 → meets → c.forwardDue = false → s.hli.ord.length < 48 → s.forwardWait = [] →
      Completes cmd s (sent s' { x with rxLow := false } stored)) ∧
    (¬ flow → c.batch.length < 64 → meets → c.forwardDue = false → (48 ≤ s.hli.ord.length ∨ s.forwardWait ≠ []) →
      l ∉ s.forwardWait → Completes cmd s
        { heard s' l { stored with forwardDue := true, batchGap := none } with forwardWait := s.forwardWait ++ [l] }) ∧
    (c.batchGap = none → Completes (.batchGapExpiry l) s s) ∧
    (c.batchGap.isSome = true → c.forwardDue = false → c.batch ≠ [] → s.hli.ord.length < 48 → s.forwardWait = [] →
      Completes (.batchGapExpiry l) s (sent s (s.line l) c))

/-- R41, R42, R43: a parity error in a 7-bit format is counted and delivered as SUB; a low stop bit is a framing error,
at once if a data bit is 1, and else once the zero character ends without a break, or receive data rises before one; a
receiver that waits for a high or holds a zero character takes no character, nor does one outside UP. That a command
whose event cannot come in a state changes nothing is the model's choice (log entry 2). -/
def Obligations.ParityAndFramingErrorsAreCounted : Prop :=
  ∀ s l c bits, s.callOn l = some c →
    let x := s.line l
    let ready := x.st = .up ∧ x.rxWait = false ∧ x.zeroHeld = false
    let ones := (List.range 8).countP fun i => (bits &&& 0x7F).getLsbD i
    let framed := { x.ctr with framingErrors := oneMore x.ctr.framingErrors }
    let data := if c.copy.format = .none8 then bits else bits &&& 0x7F
    (ready → c.phase = .connected → c.copy.flowControl = false → c.batch.length < 64 →
      c.batch.length + 1 ≠ c.copy.forwardSize → c.copy.forwardCount = 0 → ∀ parity,
      let wrong := (c.copy.format = .even7 ∧ (ones + (if parity = true then 1 else 0)) % 2 = 1) ∨
        (c.copy.format = .odd7 ∧ (ones + (if parity = true then 1 else 0)) % 2 = 0) ∨
        (c.copy.format = .mark7 ∧ parity = false) ∨ (c.copy.format = .space7 ∧ parity = true)
      ∃ t d, Completes (.receivedCharacter l bits parity true) s t ∧ OtherLinesKept s t l ∧ t.callOn l = some d ∧
        (wrong → d.batch = c.batch ++ [0x1A] ∧ (t.line l).ctr = { x.ctr with parityErrors := oneMore x.ctr.parityErrors }) ∧
        (¬ wrong → d.batch = c.batch ++ [data] ∧ (t.line l).ctr = x.ctr)) ∧
    (ready → data ≠ 0 → ∀ parity, Completes (.receivedCharacter l bits parity false) s
      (s.setLine l { x with rxLow := true, ctr := framed })) ∧
    (ready → data = 0 → ∀ parity, Completes (.receivedCharacter l bits parity false) s
      (s.setLine l { x with zeroHeld := true, rxLow := true })) ∧
    (¬ ready → ∀ parity stop, Completes (.receivedCharacter l bits parity stop) s s) ∧
    (x.st = .up → x.zeroHeld = true → Completes (.zeroCharacterEnded l) s
      (s.setLine l { x with zeroHeld := false, rxLow := false, ctr := framed })) ∧
    (x.st = .up → x.zeroHeld = true → ∃ t, Completes (.receiveDataRise l) s t ∧
      t = s.setLine l { x with rxWait := false, zeroHeld := false, rxLow := false, ctr := framed } ∧
      Completes (.breakSeen l) t t ∧ Completes (.zeroCharacterEnded l) t t) ∧
    (x.st ≠ .up ∨ x.zeroHeld = false → Completes (.zeroCharacterEnded l) s s ∧ Completes (.breakSeen l) s s)

/-- R43, R44, R62, R66, R132: a BREAK is counted and the receiver waits for a rise; the dialogue clears its field and
prompts; a connected call sends ATTENTION, and with the attention flush empties its transmit buffer and grants the room.
The buffers and lanes have room for what is placed. -/
def Obligations.BreakActsByPhase : Prop :=
  ∀ s l c, s.callOn l = some c → (s.line l).st = .up → (s.line l).zeroHeld = true →
    let x := s.line l
    let broken := { x with
      zeroHeld := false, rxWait := true, rxLow := true, ctr := { x.ctr with breaks := oneMore x.ctr.breaks } }
    let restarted := { c with fieldTimer := startTimer s.soe.fieldTimeout }
    let noted := { broken with car := { x.car with attentions := oneMore x.car.attentions } }
    let attention : OutFrame := { tag := l.val, call := c.number, msg := .attention }
    (c.phase = .name → c.txBuf.length + (slotText s 1).length ≤ 256 → Completes (.breakSeen l) s
      (s.setLine l { broken with call := some { restarted with nameBuf := [], txBuf := c.txBuf ++ slotText s 1 } })) ∧
    (c.phase = .password → c.txBuf.length + (slotText s 2).length ≤ 256 → Completes (.breakSeen l) s
      (s.setLine l { broken with call := some { restarted with pwBuf := [], txBuf := c.txBuf ++ slotText s 2 } })) ∧
    (c.phase ≠ .name → c.phase ≠ .password → c.phase ≠ .connected → Completes (.breakSeen l) s (s.setLine l broken)) ∧
    (∀ k, c.phase = .connected → c.cls = some k → s.hli.prioWait = [] → s.hli.prio.length < 15 →
      let d := { c with idle := startTimer s.adm.classes[k].idleLimit }
      (c.copy.attentionFlush = false → Completes (.breakSeen l) s
        ((sendsPriority s [attention]).setLine l { noted with call := some d })) ∧
      (c.copy.attentionFlush = true → 192 < c.credit → Completes (.breakSeen l) s
        ((sendsPriority s [attention]).setLine l
          { noted with call := some { d with txBuf := [], lastCR := false } })) ∧
      (c.copy.attentionFlush = true → c.credit ≤ 192 → Completes (.breakSeen l) s
        ((sendsPriority s [attention, { tag := l.val, call := c.number, msg := .credit (256 - c.credit) }]).setLine l
          { noted with call := some { d with txBuf := [], lastCR := false, credit := 256 } })))

/-- R127, R131, R124, R126: what a free transmitter is offered, in the order of the cases: the pending flow character,
nothing while paused, the text in emission, a notice at an insertion point, the transmit buffer; a character from the
buffer may let a CREDIT go. R45: a 7-bit format sends the low seven bits and its parity, and each character ends with
the copy's stop bits. R167, R168, R172: in ENDING the output drains in that order; GOODBYE is placed when the buffer
of a host close first empties; once all is sent the line drops, or stays UP for a re-sign-on, and the CLOSED enters
its lane. The closing batch has gone and the ordered lane has room there. That the insertion point at the end of an
emission, which R131 makes, lasts until the next character leaves the transmit buffer (the notice's clause, `lineEnd`)
is the model's reading (log entry 39). A zero character held at the drop is discarded uncounted: the model's choice
(log entry 42). -/
def Obligations.TransmitterTakesTheFirstOffer : Prop :=
  (∀ copy ch, let sent := sentAs copy ch
    let ones := (List.range 7).countP fun i => ch.getLsbD i
    sent.stopBits = copy.stopBits ∧ (copy.format = .none8 → sent.data = ch ∧ sent.parity = none) ∧
    (copy.format ≠ .none8 → sent.data = ch &&& 0x7F) ∧
    (copy.format = .even7 → ∃ p, sent.parity = some p ∧ (ones + if p = true then 1 else 0) % 2 = 0) ∧
    (copy.format = .odd7 → ∃ p, sent.parity = some p ∧ (ones + if p = true then 1 else 0) % 2 = 1) ∧
    (copy.format = .mark7 → sent.parity = some true) ∧ (copy.format = .space7 → sent.parity = some false)) ∧
  ∀ s l, let x := s.line l
    let quiet := s.setLine l { x with txChar := none }
    ((x.st ≠ .up ∨ x.call = none) → Completes (.transmitterFree l) s quiet) ∧
    ∀ c, x.call = some c → x.st = .up →
      let takes := fun (ch : Byte) (d : Call) =>
        Completes (.transmitterFree l) s (s.setLine l { x with txChar := some (sentAs c.copy ch), call := some d })
      let insertion := c.txBuf = [] ∨ c.lineEnd = true
      (c.phase ≠ .ending →
        (c.pendingFlow = some .xon → takes 0x11 { c with pendingFlow := none }) ∧
        (c.pendingFlow = some .xoff → Completes (.transmitterFree l) s (s.setLine l { x with
          txChar := some (sentAs c.copy 0x13), call := some { c with pendingFlow := none }
          car := { x.car with xoffSent := oneMore x.car.xoffSent } })) ∧
        (c.pendingFlow = none → c.outputPaused = true → Completes (.transmitterFree l) s quiet) ∧
        (c.pendingFlow = none → c.outputPaused = false → c.phase = .connected →
          (∀ ch rest, c.emission = ch :: rest → takes ch { c with emission := rest }) ∧
          (∀ text rest, c.emission = [] → insertion → c.notices = text :: rest →
            takes 0x0D { c with notices := rest, emission := 0x0A :: text ++ [0x0D, 0x0A], lineEnd := true }) ∧
          (∀ ch rest, c.emission = [] → (¬ insertion ∨ c.notices = []) → c.txBuf = ch :: rest →
            let d := { c with txBuf := rest, lineEnd := c.lastCR && decide (ch = 0x0A), lastCR := decide (ch = 0x0D) }
            (192 < rest.length + c.credit → takes ch d) ∧
            (rest.length + c.credit ≤ 192 → s.hli.prio.length < 16 → s.hli.prioWait = [] →
              Completes (.transmitterFree l) s ((sendsPriority s
                  [{ tag := l.val, call := c.number, msg := .credit (256 - rest.length - c.credit) }]).setLine l
                { x with txChar := some (sentAs c.copy ch), call := some { d with credit := 256 - rest.length } }))) ∧
          (c.emission = [] → c.notices = [] → c.txBuf = [] → Completes (.transmitterFree l) s quiet)) ∧
        (c.pendingFlow = none → c.outputPaused = false → c.phase ≠ .connected →
          (∀ ch rest, c.txBuf = ch :: rest → takes ch { c with txBuf := rest }) ∧
          (c.txBuf = [] → Completes (.transmitterFree l) s quiet))) ∧
      (c.phase = .ending → c.endCause.isSome = true → (slotText s 14).length ≤ 256 →
        let turn := fun (d : Call) => c.drain.isSome = true ∧ d.goodbyePending = true ∧ d.txBuf = [] ∧ d.emission = []
        let goodbye := fun (d : Call) => if turn d then { d with goodbyePending := false, txBuf := slotText s 14 } else d
        (c.pendingFlow = some .xon → takes 0x11 (goodbye { c with pendingFlow := none })) ∧
        (c.pendingFlow = some .xoff → Completes (.transmitterFree l) s (s.setLine l { x with
          txChar := some (sentAs c.copy 0x13), call := some (goodbye { c with pendingFlow := none })
          car := { x.car with xoffSent := oneMore x.car.xoffSent } })) ∧
        (c.pendingFlow = none → c.outputPaused = false →
          (∀ ch rest, c.emission = ch :: rest → takes ch (goodbye { c with emission := rest })) ∧
          (∀ ch rest, c.emission = [] → c.txBuf = ch :: rest → takes ch (goodbye { c with txBuf := rest })) ∧
          (c.emission = [] → c.txBuf = [] → c.drain = none → Completes (.transmitterFree l) s quiet) ∧
          (turn c → slotText s 14 ≠ [] →
            Completes (.transmitterFree l) s (s.setLine l { x with txChar := none, call := some (goodbye c) })) ∧
          (c.emission = [] → c.txBuf = [] → c.drain.isSome = true → (c.goodbyePending = false ∨ slotText s 14 = []) →
            c.attach.isSome = true → c.closedDue = true → c.closedSent = false → c.batch = [] → s.hli.ord.length < 47 →
            let drained := { c with drain := none, goodbyePending := false, released := true, closedSent := true }
            let told := sendsOrdered s { tag := l.val, call := c.number, msg := .closed c.endCause c.meter.charge }
            let stays := c.endCause = some .hostClose ∧ c.copy.afterClose = .resign ∧ x.disablePending = false ∧
              l.val < s.fitted ∧ s.sfu.service = .opened
            (stays → Completes (.transmitterFree l) s (told.setLine l { x with txChar := none, call := some drained })) ∧
            (¬ stays → Completes (.transmitterFree l) s (told.setLine l { x with
              st := .drop, txChar := none, ringGap := none, answerWait := none, speedWait := none, holdover := none
              dropGuard := some 2, rxWait := false, zeroHeld := false, ctr := { x.ctr with drops := oneMore x.ctr.drops }
              call := some drained })))))

/-- R125: HOST DATA is appended up to the free space; what is beyond it is discarded, counted and raises CREDIT
EXCEEDED; the credit falls. R22: for a call it does not name, or not in CONNECTED, it is stale. -/
def Obligations.HostDataFillsTheFreeSpace : Prop :=
  ∀ s f rest l, AtHead s 0x38 f rest → lineOf f = l →
    (1 ≤ f.body.length ∧ f.body.length ≤ 256) ∧
    ((∀ c, s.callOn l = some c → c.number = f.call → c.phase ≠ .connected) →
      Completes .hostData s { afterTake s rest with stale := oneMore s.stale }) ∧
    ∀ c, Addressed s 0x38 f rest l c → c.phase = .connected →
      let k := f.body.length
      let room := 256 - c.txBuf.length
      let x := s.line l
      (k ≤ room → Completes .hostData s ((afterTake s rest).setLine l { x with
        car := { x.car with hostData := oneMore x.car.hostData, excess := min x.car.excess 65535 }
        call := some { c with txBuf := c.txBuf ++ f.body, credit := c.credit - k } })) ∧
      (room < k → Completes .hostData s (raiseFault ((afterTake s rest).setLine l { x with
        car := { x.car with hostData := oneMore x.car.hostData, excess := min (x.car.excess + (k - room)) 65535 }
        call := some { c with txBuf := c.txBuf ++ f.body.take room, credit := 0 } })
          .creditExceeded (some l) (some c.number) (k - room)))

/-- R133, R134, R156, R157, R158, R167, R168: HOST CLOSE ends a connected call. Its carriage stops, its meter is closed
with the part-step rule and the end rounding, and its buffer drains with GOODBYE to come. The line is UP, the fee was
charged, the entry has no limit, the batch is empty, the buffer is not, and a drain limit is set; a call that is not
connected finds the message stale. No step is complete and uncharged (log entry 4). -/
def Obligations.HostCloseClosesTheMeterAndDrains : Prop :=
  (∀ s f rest, AtHead s 0x39 f rest → (∀ c, s.callOn (lineOf f) = some c → c.number = f.call → c.phase ≠ .connected) →
    Completes .hostClose s { afterTake s rest with stale := oneMore s.stale }) ∧
  (∀ s f rest l c, Addressed s 0x39 f rest l c → c.phase = .connected → c.endCause = none → c.attach.isSome = true →
    stepDue s l = false → EndsCall .hostClose s l c .hostClose) ∧
  ∀ s f rest l c at' e tariff, Addressed s 0x39 f rest l c → Unlimited s c at' e → c.phase = .connected →
    c.endCause = none → stepDue s l = false → (s.line l).st = .up → c.meter.feeCharged = true → c.batch = [] →
    c.txBuf ≠ [] → s.ctu.current = some tariff → 1 ≤ s.soe.drainLimit.count →
    let final := c.meter.stepPos ≠ 0 ∧ tariff.partStep ≠ .free
    let part := c.meter.stepRate * (if tariff.partStep = .full then c.meter.stepLen else c.meter.stepPos)
    let left := if final then (c.meter.acc + part) % 3600 else c.meter.acc
    let extra := match tariff.rounding with
      | .down => 0
      | .nearest => if 1800 ≤ left then 1 else 0
      | .up => if 0 < left then 1 else 0
    let units := (if final then (c.meter.acc + part) / 3600 else 0) + extra
    ∃ t, Completes .hostClose s t ∧ OtherLinesKept s t l ∧
      t.line l = { s.line l with call := some { c with
        endCause := some .hostClose, phase := .ending, pend := ⟨none, none, none⟩, idle := none, fieldTimer := none
        pwBuf := [], genAtEnd := s.ctu.generation, closedDue := true, closedSent := false, released := false
        notices := [], outputPaused := false, credit := 0, batchGap := none
        meter := { c.meter with charge := c.meter.charge + units, acc := 0 }
        drain := some (intervalSecs s.soe.drainLimit), goodbyePending := true } } ∧
      t.entryAt at' = some { e with charged := e.charged + BitVec.ofNat 32 units } ∧ t.hli = (afterTake s rest).hli ∧
      t.adm = s.adm ∧ t.ctu = s.ctu ∧ t.bst = s.bst ∧ t.sfu = s.sfu

/-! ### The account cache (R76 to R97) -/

/-- R95, R92: DIRECTORY SET changes the wait at any time and the size only in an idle cache, which it empties; BUCKET
INVALIDATE by the state of the frame that holds the bucket. That a frame which becomes EMPTY is no longer fresh is the
model's choice (log entry 24). -/
def Obligations.DirectorySetAndInvalidate : Prop :=
  (∀ s f rest size wait, Requested s 0x20 f rest →
    let c := Instr.directorySet size wait
    let answered := afterReply s f rest (.done .none)
    let unused := (∀ g, (s.frame g).pins = 0) ∧ (∀ i : SlotNo, s.acc.slots[i] = none) ∧ s.acc.backlog = []
    ((size = 0 ∨ 16384 < size) → OnlyAnswers c s f rest (.refused .badValue (.index 0))) ∧
    (1 ≤ size → size ≤ 16384 → 63 < wait.count → OnlyAnswers c s f rest (.refused .badValue (.index 1))) ∧
    (1 ≤ size → size ≤ 16384 → wait.count ≤ 63 → size = s.acc.size →
      Completes c s { answered with acc := { s.acc with wait := wait } }) ∧
    (1 ≤ size → size ≤ 16384 → wait.count ≤ 63 → size ≠ s.acc.size → ¬ unused →
      OnlyAnswers c s f rest (.refused .state .none)) ∧
    (1 ≤ size → size ≤ 16384 → wait.count ≤ 63 → size ≠ s.acc.size → unused →
      Completes c s { answered with
        acc := { s.acc with size := size, wait := wait, frames := Vector.replicate 96 Frame.empty } })) ∧
  ∀ s f rest b, Requested s 0x22 f rest →
    let c := Instr.bucketInvalidate b
    (16383 < b → OnlyAnswers c s f rest (.refused .badValue (.index 0))) ∧
    (b ≤ 16383 → (∀ g, (s.frame g).bucket ≠ some b) → OnlyAnswers c s f rest (.done (.invalidated .notCached))) ∧
    ∀ g, b ≤ 16383 → HeldBy s b g →
      (∀ kind, (s.frame g).st = .fetching kind → OnlyAnswers c s f rest (.done (.invalidated .fetching))) ∧
      ((s.frame g).st = .refreshDue → OnlyAnswers c s f rest (.done (.invalidated .refreshDue))) ∧
      ((s.frame g).st = .valid → (s.frame g).pins = 0 →
        Completes c s ((afterReply s f rest (.done (.invalidated .freed))).modFrame g fun _ => Frame.empty)) ∧
      ((s.frame g).st = .valid → 1 ≤ (s.frame g).pins →
        Completes c s ((afterReply s f rest (.done (.invalidated .refreshDue))).modFrame g
          fun y => { y with st := .refreshDue }))

/-- R85, R86, R90: a BUCKET DATA that matches no fetch is counted as late; one that matches a LOAD fills the frame with
its entries, each with its live fields at their load values, or, with UNAVAILABLE or duplicates, empties it. R91, R90:
a directory wait that expires abandons its fetch: the frame by its kind and pins, the slot free, counted and reported.
R89, R69: every waiter of a fetch that ends is resolved, against the filled frame or, without data, UNAVAILABLE, which
ends its call. R83: then the backlog is served in its order, each lookup resolved, fetched or kept, until no slot is
free, or no frame can be taken, which R79's bound of 84 frames pinned or under fetch rules out in every run (log entry
25). R79: a freed slot goes to the head lookup, with the lowest EMPTY frame or, where none is EMPTY, the least
recently used VALID frame with no pins. The expiry acts when it is due (log entries 2 and 3). That a frame which
becomes EMPTY or is taken is no longer fresh is the model's choice (log entry 24). A place that an earlier start of
transmission left to the frame goes to the wait order's head at its take: the model's choice (log entry 9). -/
def Obligations.FetchesAreFilledOrAbandoned : Prop :=
  let waits := fun (s : State) (k : Lookup) (c : Call) =>
    s.callOn k.line = some c ∧ c.number = k.call ∧ c.phase = .lookup ∧ c.endCause = none
  let served := fun (s t : State) (x : FetchSlot) =>
    t.acc.backlog.Sublist s.acc.backlog ∧
    (t.acc.backlog = [] ∨ (∀ i : SlotNo, (t.acc.slots[i]).isSome = true) ∨ NoneToTake t) ∧
    (∀ k c, k ∈ x.waiters → waits s k c → ∀ c', t.callOn k.line = some c' → c'.number = c.number ∧ c'.phase ≠ .lookup) ∧
    ∀ k c, k ∈ s.acc.backlog → waits s k c → k ∉ t.acc.backlog →
      (∃ (i : SlotNo) (y : FetchSlot), t.acc.slots[i] = some y ∧ k ∈ y.waiters) ∨
        ∀ c', t.callOn k.line = some c' → c'.number = c.number ∧ c'.phase ≠ .lookup
  let unavailable := fun (s t : State) (x : FetchSlot) => ∀ k c, k ∈ x.waiters → waits s k c → c.attach = none →
    CarriesCause t k.line c .directoryUnavailable
  (∀ s f rest, AtHead s 0x21 f rest →
     let slot : SlotNo := Fin.ofNat 4 (byteAt f.body 0)
     let b := 256 * byteAt f.body 1 + byteAt f.body 2
     let fields := fun (i : Nat) => (f.body.drop (4 + 23 * i)).take 23
     let entries : Vector (Option Entry) 4 := Vector.ofFn fun i => entryOf (fields i.val)
     let clash := ∃ (i j : EntryNo) (d e : Entry), i ≠ j ∧ entries[i] = some d ∧ entries[j] = some e ∧
       (d.account = e.account ∨ d.userName = e.userName)
     let taken := afterTake s rest
     ((∀ x, s.acc.slots[slot] = some x → x.bucket ≠ b) →
       Completes .bucketData s { taken with acc := { s.acc with lateFetches := oneMore s.acc.lateFetches } }) ∧
     (∀ (i : EntryNo) d, entries[i] = some d →
       d.account = 65536 * byteAt (fields i.val) 5 + 256 * byteAt (fields i.val) 6 + byteAt (fields i.val) 7 ∧
       d.cls.val = byteAt (fields i.val) 1 % 4 ∧ d.sessionLimit = byteAt (fields i.val) 2 ∧
       d.userName = (fields i.val).drop 15 ∧ d.attached = 0 ∧ d.stored = 0 ∧ d.charged = 0 ∧ d.exhausted = false ∧
       d.warnedAtLevel = false ∧ d.withdrawn = false) ∧
     (∀ x, s.acc.slots[slot] = some x → x.bucket = b →
       ∃ t, Completes .bucketData s t ∧ served s t x ∧ ((f.body.length = 4 ∨ clash) → unavailable s t x)) ∧
     ∀ x, s.acc.slots[slot] = some x → x.bucket = b → x.kind = .load →
       let freed := { s.acc with slots := s.acc.slots.set slot none }
       let filled := { freed with
         frames := s.acc.frames.set x.frame { s.frame x.frame with st := .valid, entries := entries, fresh := true }
         order := s.acc.order.filter (· ≠ x.frame) ++ [x.frame] }
       (x.waiters = [] → s.acc.backlog = [] →
         (f.body.length = 4 → Completes .bucketData s
           { taken with acc := { freed with frames := s.acc.frames.set x.frame Frame.empty } }) ∧
         (f.body.length = 96 → clash → Completes .bucketData s
           { taken with acc := { freed with
             frames := s.acc.frames.set x.frame Frame.empty, bucketErrors := oneMore s.acc.bucketErrors } }) ∧
         (f.body.length = 96 → ¬ clash → Completes .bucketData s { taken with acc := filled })) ∧
       (∀ k c, x.waiters = [k] → s.acc.backlog = [] → f.body.length = 96 → ¬ clash → waits s k c →
         ((∀ (i : EntryNo) e, entries[i] = some e → e.userName ≠ k.name) →
           c.attempts + 1 < s.soe.attemptLimit → s.hli.ord.length < 47 → ∃ t d, Completes .bucketData s t ∧
             t.acc = filled ∧ t.callOn k.line = some d ∧ d.phase = .name ∧ d.attempts = c.attempts + 1 ∧
             t.hli.ord = s.hli.ord ++ [{ tag := k.line.val, call := c.number
                                         msg := .signOnFailed (padName c.nameBuf) 0 .unknown (c.attempts + 1) none }]) ∧
         ∀ (i : EntryNo) e, entries[i] = some e → e.userName = k.name → passwordPasses e c.pwBuf = true →
           signOnCheck s c e = none → ∃ t d, Completes .bucketData s t ∧ t.acc.slots = freed.slots ∧
             t.frame x.frame = { s.frame x.frame with
               st := .valid, fresh := true, pins := (s.frame x.frame).pins + 1
               entries := entries.set i (some { e with attached := 1 }) } ∧
             t.callOn k.line = some d ∧ d.attach = some (x.frame, i) ∧ d.cls = some e.cls ∧
             d.phase = (if slotFree s e.cls = true then .opening else .queued)) ∧
       ∀ k (i : SlotNo) g, x.waiters = [] → s.acc.backlog = [k] → f.body.length = 96 → ¬ clash →
         (∀ (j : SlotNo) y, s.acc.slots[j] = some y → j ≠ slot → y.bucket ≠ k.bucket) →
         (∀ h, (s.frame h).bucket ≠ some k.bucket) → (s.acc.slots[i] = none ∨ i = slot) →
         (∀ j, j < i → s.acc.slots[j] ≠ none ∧ j ≠ slot) → LoadTakes { taken with acc := filled } g →
         s.hli.prio.length < 16 → s.hli.prioWait = [] →
         Completes .bucketData s
           { taken with
             acc := { filled with
               slots := filled.slots.set i (some
                 { bucket := k.bucket, frame := g, kind := .load, waiters := [k], timer := startTimer s.acc.wait })
               frames := filled.frames.set g { Frame.empty with st := .fetching .load, bucket := some k.bucket }
               backlog := [], fetches := oneMore s.acc.fetches }
             hli := { taken.hli with
               prio := s.hli.prio ++ [{ tag := 255, call := 0, msg := .bucketFetch i k.bucket }] } }) ∧
  ∀ s (i : SlotNo),
    ((∀ x, s.acc.slots[i] = some x → x.timer ≠ some 0) → Completes (.directoryWaitExpiry i) s s) ∧
    ∀ x, s.acc.slots[i] = some x → x.timer = some 0 →
      let frame := if x.kind = .merge ∧ 1 ≤ (s.frame x.frame).pins then { s.frame x.frame with st := .refreshDue }
        else Frame.empty
      (∃ t, Completes (.directoryWaitExpiry i) s t ∧ served s t x ∧ unavailable s t x ∧
        t.acc.timeouts = oneMore s.acc.timeouts) ∧
      (x.waiters = [] → s.acc.backlog = [] → Completes (.directoryWaitExpiry i) s
        (raiseFault { s with acc := { s.acc with
            slots := s.acc.slots.set i none, frames := s.acc.frames.set x.frame frame
            timeouts := oneMore s.acc.timeouts } } .directoryTimeout none none x.bucket)) ∧
      ∀ k c, x.waiters = [k] → s.acc.backlog = [] → waits s k c → c.attach = none →
        EndsCall (.directoryWaitExpiry i) s k.line c .directoryUnavailable ∧
        ∃ t, Completes (.directoryWaitExpiry i) s t ∧ t.acc.slots[i] = none ∧ t.frame x.frame = frame ∧
          (∀ g, g ≠ x.frame → t.frame g = s.frame g) ∧ t.adm = s.adm ∧ t.bst = s.bst ∧ t.ctu = s.ctu

/-- R87, R88: a BUCKET DATA that matches a MERGE into a pinned frame updates the static fields of matched accounts, whose
allowance and live fields stay, withdraws an account with live state that is absent, and places each new account or
leaves the frame REFRESH DUE and counts a bucket error. R88, R89: a waiter whose name is that of a new account past
the EMPTY slots is resolved UNAVAILABLE; another is searched for in the merged frame. A place that an earlier start of
transmission left to the frame goes to the wait order's head at its take: the model's choice (log entry 9). -/
def Obligations.MergeKeepsTheLiveStateOfAccounts : Prop :=
  ∀ s f rest, AtHead s 0x21 f rest →
    let slot : SlotNo := Fin.ofNat 4 (byteAt f.body 0)
    let incoming := fun (i : EntryNo) => entryOf ((f.body.drop (4 + 23 * i.val)).take 23)
    ∀ x, s.acc.slots[slot] = some x → x.bucket = 256 * byteAt f.body 1 + byteAt f.body 2 → x.kind = .merge →
      1 ≤ (s.frame x.frame).pins → s.acc.backlog = [] → f.body.length = 96 →
      (∀ i j d e, i ≠ j → incoming i = some d → incoming j = some e → d.account ≠ e.account ∧ d.userName ≠ e.userName) →
      let old := fun (i : EntryNo) => s.entryAt (x.frame, i)
      let known := fun (n : Entry) => (List.finRange 4).any fun i => (old i).any fun e => decide (e.account = n.account)
      let news := ((List.finRange 4).filterMap incoming).filter fun n => !known n
      let stays := fun (e : Entry) => decide (1 ≤ e.attached) || decide (1 ≤ e.stored) ||
        (List.finRange 4).any fun j => (incoming j).any fun n => decide (n.account = e.account)
      let surplus := news.drop ((List.finRange 4).countP fun i => !(old i).any stays)
      (∀ k c, x.waiters = [k] → s.callOn k.line = some c → c.number = k.call → c.phase = .lookup → c.endCause = none →
        c.attach = none →
        ((∃ n ∈ surplus, n.userName = k.name) → EndsCall .bucketData s k.line c .directoryUnavailable) ∧
        ((∀ j n, incoming j = some n → n.userName ≠ k.name) → c.attempts + 1 < s.soe.attemptLimit →
          ∃ t d, Completes .bucketData s t ∧ t.callOn k.line = some d ∧ d.phase = .name ∧ d.attempts = c.attempts + 1) ∧
        ∀ i e j n, old i = some e → incoming j = some n → n.account = e.account → n.userName = k.name →
          (∀ h e', h < i → old h = some e' → e'.account ≠ e.account) →
          let m := { n with
            allowance := e.allowance, attached := e.attached, stored := e.stored, charged := e.charged
            exhausted := e.exhausted, warnedAtLevel := e.warnedAtLevel, withdrawn := false }
          passwordPasses m c.pwBuf = true → signOnCheck s c m = none →
          ∃ t d, Completes .bucketData s t ∧ t.entryAt (x.frame, i) = some { m with attached := e.attached + 1 } ∧
            (t.frame x.frame).pins = (s.frame x.frame).pins + 1 ∧ t.callOn k.line = some d ∧
            d.attach = some (x.frame, i) ∧ d.cls = some n.cls ∧
            d.phase = (if slotFree s n.cls = true then .opening else .queued)) ∧
      (x.waiters = [] → ∃ t, Completes .bucketData s t ∧ t.acc.slots = s.acc.slots.set slot none ∧
        t.acc.order = s.acc.order.filter (· ≠ x.frame) ++ [x.frame] ∧ (∀ g, g ≠ x.frame → t.frame g = s.frame g) ∧
        (t.frame x.frame).fresh = true ∧ (t.frame x.frame).pins = (s.frame x.frame).pins ∧
        (t.frame x.frame).bucket = (s.frame x.frame).bucket ∧
        (∀ i e j n, old i = some e → incoming j = some n → n.account = e.account →
          t.entryAt (x.frame, i) = some { n with
            allowance := e.allowance, attached := e.attached, stored := e.stored, charged := e.charged
            exhausted := e.exhausted, warnedAtLevel := e.warnedAtLevel, withdrawn := false }) ∧
        (∀ i e, old i = some e → (∀ j n, incoming j = some n → n.account ≠ e.account) → (1 ≤ e.attached ∨ 1 ≤ e.stored) →
          t.entryAt (x.frame, i) = some { e with withdrawn := true }) ∧
        (let isNew := fun (n : Entry) => (∃ j, incoming j = some n) ∧ ∀ i e, old i = some e → e.account ≠ n.account
         let allPlaced := ∀ n, isNew n → ∃ i, t.entryAt (x.frame, i) = some n
         (allPlaced → (t.frame x.frame).st = .valid ∧ t.acc.bucketErrors = s.acc.bucketErrors) ∧
         (¬ allPlaced → (t.frame x.frame).st = .refreshDue ∧ t.acc.bucketErrors = oneMore s.acc.bucketErrors ∧
           ∀ i, (t.entryAt (x.frame, i)).isSome = true)) ∧
        t.hli = (afterTake s rest).hli ∧ t.lines = s.lines ∧ t.adm = s.adm ∧ t.bst = s.bst ∧ t.ctu = s.ctu ∧
        t.soe = s.soe ∧ t.sfu = s.sfu)

/-- R93, R159, R161, R162: ALLOWANCE ADJUST moves a limited allowance within its bounds and the entry's exhausted flag
follows what remains, with charged-since-load kept; an entry with no limit keeps none. R160, R161, R162, R25, R27: each
call of the account that is QUEUED, OPENING or CONNECTED is warned once, takes ALLOWANCE with its grace, or ends at once
under a grace of 0, or is restored, each with its text where there is room; no step is complete and uncharged where a
call ends (log entry 4). -/
def Obligations.AllowanceAdjustMovesTheAllowance : Prop :=
  ∀ s f rest b account delta, Requested s 0x23 f rest →
    let c := Instr.allowanceAdjust b account delta
    let good := b ≤ 16383 ∧ 1 ≤ account ∧ account ≤ 999999 ∧ -16777215 ≤ delta ∧ delta ≤ 16777215
    (16383 < b → OnlyAnswers c s f rest (.refused .badValue (.index 0))) ∧
    (b ≤ 16383 → (account = 0 ∨ 999999 < account) → OnlyAnswers c s f rest (.refused .badValue (.index 1))) ∧
    (b ≤ 16383 → 1 ≤ account → account ≤ 999999 → (delta < -16777215 ∨ 16777215 < delta) →
      OnlyAnswers c s f rest (.refused .badValue (.index 2))) ∧
    (good → ((∀ g, (s.frame g).bucket ≠ some b) ∨
        ∃ g, HeldBy s b g ∧ ((s.frame g).st = .empty ∨ (s.frame g).st = .fetching .load)) →
      OnlyAnswers c s f rest (.refused .notCached .none)) ∧
    (∀ g, good → HeldBy s b g → (s.frame g).st ≠ .empty → (s.frame g).st ≠ .fetching .load →
      (∀ i e, s.entryAt (g, i) = some e → e.account ≠ account) → OnlyAnswers c s f rest (.refused .notFound .none)) ∧
    ∀ g i e, good → FindsAccount s b account g i e →
      (e.allowance = none → OnlyAnswers c s f rest (.done (.adjusted none 0))) ∧
      ∀ a, e.allowance = some a →
        let a' := min ((a : Int) + delta).toNat 16777214
        let left := remainingOf a' e.charged
        let level := s.adm.classes[e.cls].warningLevel
        let low := level ≠ 0 ∧ left ≤ (level : Int)
        let warns := low ∧ e.warnedAtLevel = false
        let exhausts := left ≤ 0 ∧ e.exhausted = false
        let restores := 0 < left ∧ e.exhausted = true
        let grace := s.adm.classes[e.cls].allowanceGrace
        let adjusted :=
          { (afterReply s f rest (.done (.adjusted (some a') left))).modEntry (g, i) fun e => { e with
              allowance := some a', exhausted := decide (left ≤ 0), warnedAtLevel := decide low } with
            mtr := { s.mtr with
              warnings := if warns then oneMore s.mtr.warnings else s.mtr.warnings
              exhaustions := if exhausts then oneMore s.mtr.exhaustions else s.mtr.exhaustions
              restorations := if restores then oneMore s.mtr.restorations else s.mtr.restorations } }
        ((∀ l d, ¬ Reached s l d (g, i)) → Completes c s adjusted) ∧
        ((¬ exhausts ∨ 1 ≤ grace.count) → ∃ t, Completes c s t ∧
          t = { adjusted with lines := t.lines, soe := { s.soe with textDrops := t.soe.textDrops } } ∧
          ∀ l, ((∀ d, ¬ Reached s l d (g, i)) → t.line l = s.line l) ∧
            ∀ d, Reached s l d (g, i) →
              let left' := d.pend.allowance.getD (intervalSecs grace)
              let texts := (if warns ∧ d.meter.warned = false then [s.soe.texts[11]] else []) ++
                (if exhausts then [numbered s 12 (wholeMinutes left')] else []) ++
                if restores then [s.soe.texts[19]] else []
              HasRoom d texts → t.line l = { s.line l with call := some (sentTexts { d with
                meter := { d.meter with warned := if warns then true else d.meter.warned }
                pend := { d.pend with
                  allowance := if exhausts then some left' else if restores then none else d.pend.allowance }
                graceEntered := if exhausts ∧ d.pend.allowance = none then true else d.graceEntered } texts) }) ∧
        (exhausts → grace.count = 0 → (∀ l, stepDue s l = false) → ∃ t, Completes c s t ∧
          ∀ l d, Reached s l d (g, i) → d.endCause = none → CarriesCause t l d .allowance)

/-- R94: ACCOUNT SUSPEND marks the entry SUSPENDED and ends every call attached to it, and no other, with SUSPENDED. No
step is complete and uncharged (log entry 4). -/
def Obligations.AccountSuspendEndsTheAccountsCalls : Prop :=
  ∀ s f rest b account, Requested s 0x24 f rest →
    let c := Instr.accountSuspend b account
    let good := b ≤ 16383 ∧ 1 ≤ account ∧ account ≤ 999999
    (16383 < b → OnlyAnswers c s f rest (.refused .badValue (.index 0))) ∧
    (b ≤ 16383 → (account = 0 ∨ 999999 < account) → OnlyAnswers c s f rest (.refused .badValue (.index 1))) ∧
    (good → (∀ g, (s.frame g).bucket ≠ some b) → OnlyAnswers c s f rest (.refused .notCached .none)) ∧
    ∀ g i e, good → FindsAccount s b account g i e → (∀ l, stepDue s l = false) →
      ∃ t e', Completes c s t ∧ t.entryAt (g, i) = some e' ∧ e'.account = account ∧ e'.status = .suspended ∧
        (∀ l d, s.callOn l = some d → d.attach = some (g, i) → d.endCause = none → CarriesCause t l d .suspended) ∧
        (∀ l, (s.callOn l).bind Call.attach ≠ some (g, i) → t.line l = s.line l)

/-! ### Admission (R98 to R119) -/

/-- R100, R99, R107: CAPACITY SET replaces its settings and CLASS SET one class's record, each refused with the first
bad field; an announcement period that was 0 starts its timers; a run of the arbiter then grants until no class is
eligible, each grant taking a slot and a place in a queue, and the reply counts the grants. R106, R107: the class chosen
is eligible, and no eligible class and no eligible LOW-GROUP comes before it after the upper pointer; within LOW-GROUP
none comes before it after the LOW pointer; it is granted from the head of its queue. -/
def Obligations.ArbiterGrantsInRotationToItsEnd : Prop :=
  (∀ s f rest, let granted := fun (t : State) (n : Nat) =>
       NoneEligible t ∧ t.adm.inUse = s.adm.inUse + n ∧ (∀ k : ClassNo, (t.adm.queues[k]).Sublist s.adm.queues[k]) ∧
       (∀ l, (∀ k : ClassNo, l ∉ s.adm.queues[k]) → t.line l = s.line l) ∧
       t.adm.grants = (if n = 0 then s.adm.grants else min (s.adm.grants + n) 65535) ∧
       t.hli.prio[s.hli.prio.length]? = some (replyTo f (.done (.count n))) ∧ t.acc = s.acc ∧ t.ctu = s.ctu ∧
       t.bst = s.bst ∧ t.sfu = s.sfu
     (∀ capacity reserve wait, Requested s 0x30 f rest →
       let c := Instr.capacitySet capacity reserve wait
       (32 < capacity → OnlyAnswers c s f rest (.refused .badValue (.index 0))) ∧
       (capacity ≤ 32 → 8 < reserve → OnlyAnswers c s f rest (.refused .badValue (.index 1))) ∧
       (capacity ≤ 32 → reserve ≤ 8 → 63 < wait.count → OnlyAnswers c s f rest (.refused .badValue (.index 2))) ∧
       (capacity ≤ 32 → reserve ≤ 8 → wait.count ≤ 63 → capacity < reserve →
         OnlyAnswers c s f rest (.refused .badValue (.index 1))) ∧
       (capacity ≤ 32 → reserve ≤ 8 → wait.count ≤ 63 → reserve ≤ capacity →
         ∃ t n, Completes c s t ∧ granted t n ∧ t.adm.capacity = capacity ∧ t.adm.reserve = reserve ∧
           t.adm.openWait = wait ∧ t.adm.classes = s.adm.classes)) ∧
     ∀ n r, Requested s 0x31 f rest →
       let c := Instr.classSet n r
       let good : Nat → Prop := fun i => match i with
         | 0 => n ≤ 3
         | 2 => r.queueLimit ≤ 48
         | 3 => r.queueWait.count ≤ 63
         | 4 => r.announce.count ≤ 63
         | 5 => r.fee ≤ 255
         | 6 => -512 ≤ r.rateAdjust ∧ r.rateAdjust ≤ 511
         | 7 => r.warningLevel ≤ 65535
         | 8 => r.allowanceGrace.count ≤ 63
         | 9 => r.hoursGrace.count ≤ 63
         | 10 => r.idleLimit.count ≤ 63
         | _ => True
       (∀ i, ¬ good i → (∀ j, j < i → good j) → OnlyAnswers c s f rest (.refused .badValue (.index i))) ∧
       ∀ k : ClassNo, k.val = n → (∀ i, good i) →
         let old := s.adm.classes[k]
         (r.group ≠ old.group → ∃ t g, Completes c s t ∧ granted t g ∧ t.adm.classes = s.adm.classes.set k r ∧
           t.adm.capacity = s.adm.capacity) ∧
         (r.group = old.group → (old.announce.count ≠ 0 ∨ r.announce.count = 0) →
           Completes c s { afterReply s f rest (.done (.count 0)) with
             adm := { s.adm with classes := s.adm.classes.set k r } }) ∧
         (r.group = old.group → old.announce.count = 0 → r.announce.count ≠ 0 →
           ∃ t, Completes c s t ∧ t.adm = { s.adm with classes := s.adm.classes.set k r } ∧
             t.hli = (afterReply s f rest (.done (.count 0))).hli ∧
             ∀ l, (l ∉ s.adm.queues[k] → t.line l = s.line l) ∧
               (l ∈ s.adm.queues[k] → t.line l = { s.line l with call := (s.line l).call.map fun d =>
                 { d with announce := if d.announce = none then startTimer r.announce else d.announce } }))) ∧
  ∀ s (k : ClassNo), selectClass s = some k →
    let eligible := fun (j : ClassNo) => s.adm.queues[j] ≠ [] ∧ slotFree s j = true
    let high := fun (j : ClassNo) => s.adm.classes[j].group = .high
    let place := fun (v : Nat) => (v + 4 - s.adm.upper.val) % 5
    let lowPlace := fun (v : Nat) => (v + 3 - s.adm.low.val) % 4
    eligible k ∧
    (high k → (∀ j, high j → eligible j → place k.val ≤ place j.val) ∧
      ((∃ j, ¬ high j ∧ eligible j) → place k.val < place 4)) ∧
    (¬ high k → (∀ j, high j → eligible j → place 4 < place j.val) ∧
      ∀ j, ¬ high j → eligible j → lowPlace k.val ≤ lowPlace j.val) ∧
    ∃ l rest t, s.adm.queues[k] = l :: rest ∧ selectOne s = some t ∧ t.adm.inUse = s.adm.inUse + 1 ∧
      t.adm.upper = (if s.adm.classes[k].group = .high then k.castSucc else 4) ∧
      t.adm.low = (if s.adm.classes[k].group = .high then s.adm.low else k) ∧ OtherLinesKept s t l ∧
      ∀ c, s.callOn l = some c → t.callOn l = some { c with
        phase := .opening, slotHeld := true, openOutstanding := true, openWait := startTimer s.adm.openWait
        queueWait := none, announce := none }

/-- R110, R150, R151, R126, R28: OPEN ACCEPT connects a call in OPENING: the fee, the first step, the idle timer,
CONNECTED and the first credit. R115: for a call in ENDING it lets the CLOSED fall due. R22: else it is stale. The entry
has no limit and stands unwarned. -/
def Obligations.OpenAcceptConnectsTheCall : Prop :=
  (∀ s f rest, AtHead s 0x32 f rest → (∀ c, s.callOn (lineOf f) = some c → c.number = f.call →
      c.phase ≠ .opening ∧ (c.phase ≠ .ending ∨ c.openOutstanding = false)) →
    Completes .openAccept s { afterTake s rest with stale := oneMore s.stale }) ∧
  ∀ s f rest l c, Addressed s 0x32 f rest l c →
    (∀ at' e tariff band k v, Unlimited s c at' e → e.warnedAtLevel = false → Rated s c tariff band k v →
      c.phase = .opening → c.notices = [] → c.credit = 0 → c.txBuf.length ≤ 192 → s.hli.prio.length < 16 →
      s.hli.prioWait = [] →
      let fee := s.adm.classes[k].fee
      let g := 256 - c.txBuf.length
      ∃ t, Completes .openAccept s t ∧ OtherLinesKept s t l ∧
        t.line l = { s.line l with call := some { c with
          phase := .connected, openOutstanding := false, openWait := none, connectAt := some s.ctu.now
          notices := if s.soe.texts[10] = [] then [] else [s.soe.texts[10]]
          meter := { c.meter with
            stepPos := 0, acc := 0, feeCharged := true, charge := c.meter.charge + fee
            genAtConnect := s.ctu.generation, stepLen := tariff.stepLength
            stepRate := stepRateOf tariff band v c.meter.connectSecs s.adm.classes[k].rateAdjust }
          idle := startTimer s.adm.classes[k].idleLimit, credit := g } } ∧
        t.hli = { (afterTake s rest).hli with
          prio := s.hli.prio ++ [{ tag := l.val, call := c.number, msg := .credit g }] } ∧
        t.entryAt at' = some { e with charged := e.charged + BitVec.ofNat 32 fee } ∧ t.adm = s.adm ∧ t.ctu = s.ctu ∧
        t.bst = s.bst ∧ t.sfu = s.sfu ∧ t.soe = s.soe ∧ t.mtr = s.mtr) ∧
    (c.phase = .ending → c.openOutstanding = true → c.attach.isSome = true → c.released = true → c.closedSent = false →
      c.batch = [] → s.hli.ord.length < 47 →
      Completes .openAccept s
        ((sendsOrdered (afterTake s rest)
          { tag := l.val, call := c.number, msg := .closed c.endCause c.meter.charge }).setLine l
          { s.line l with call := some { c with
            openOutstanding := false, openWait := none, closedDue := true, closedSent := true } }))

/-- R105, R111, R112, R116, R118, R22: OPEN REFUSE. FULL gives the slot back, lowers the capacity to the slots in use and
returns the call to the head of its queue, where a class that announces tells it place 1, or ends it while CLOSING
with FINISH; DENIED gives the slot back and ends the call; for a call in ENDING the slot is only given back; else it
is stale. No other call is queued but at the return to the queue. A place that an earlier start of transmission left
to the frame goes to the wait order's head at its take: the model's choice (log entry 9). -/
def Obligations.OpenRefuseReturnsOrEndsTheCall : Prop :=
  (∀ s f rest reason, AtHead s 0x33 f rest → (∀ c, s.callOn (lineOf f) = some c → c.number = f.call →
      c.phase ≠ .opening ∧ (c.phase ≠ .ending ∨ c.openOutstanding = false)) →
    Completes (.openRefuse reason) s { afterTake s rest with stale := oneMore s.stale }) ∧
  ∀ s f rest l c, Addressed s 0x33 f rest l c → c.slotHeld = true →
    (∀ k, c.phase = .opening → c.cls = some k → s.sfu.service ≠ .closing .finish →
      (∀ j : ClassNo, l ∉ s.adm.queues[j]) →
      let period := s.adm.classes[k].announce
      let told := if period.count = 0 then [] else placed (numbered s 9 1)
      let fits := told = [] ∨ c.txBuf.length + told.length ≤ 256
      let limit := min s.adm.capacity (s.adm.inUse - 1)
      Completes (.openRefuse .full) s (raiseFault
        (({ afterTake s rest with
            soe := { s.soe with textDrops := if fits then s.soe.textDrops else oneMore s.soe.textDrops }
            adm := { s.adm with
              inUse := s.adm.inUse - 1, capacity := limit, queues := s.adm.queues.set k (l :: s.adm.queues[k])
              fullRefusals := oneMore s.adm.fullRefusals } } : State).setLine l { s.line l with call := some { c with
            phase := .queued, slotHeld := false, openOutstanding := false, openWait := none
            queueWait := startTimer s.adm.classes[k].queueWait, announce := startTimer period
            txBuf := if fits then c.txBuf ++ told else c.txBuf } })
        .capacityLowered (some l) (some c.number) limit)) ∧
    (c.phase = .opening → c.endCause = none → s.sfu.service = .closing .finish → (∀ k : ClassNo, s.adm.queues[k] = []) →
      EndsCall (.openRefuse .full) s l c .serviceEnd) ∧
    (c.phase = .opening → c.endCause = none → (∀ k : ClassNo, s.adm.queues[k] = []) →
      EndsCall (.openRefuse .denied) s l c .hostDenied ∧
      ∃ t, Completes (.openRefuse .denied) s t ∧ t.adm.inUse = s.adm.inUse - 1 ∧ t.adm.capacity = s.adm.capacity ∧
        t.adm.denials = oneMore s.adm.denials) ∧
    (c.phase = .ending → c.openOutstanding = true → c.released = false → (∀ k : ClassNo, s.adm.queues[k] = []) →
      let limit := min s.adm.capacity (s.adm.inUse - 1)
      Completes (.openRefuse .full) s (raiseFault
        (({ afterTake s rest with adm := { s.adm with
          inUse := s.adm.inUse - 1, capacity := limit, fullRefusals := oneMore s.adm.fullRefusals } } : State).setLine l
          { s.line l with call := some { c with slotHeld := false, openOutstanding := false, openWait := none } })
        .capacityLowered (some l) (some c.number) limit)) ∧
    (c.phase = .ending → c.openOutstanding = true → c.released = false → (∀ k : ClassNo, s.adm.queues[k] = []) →
      Completes (.openRefuse .denied) s
        (({ afterTake s rest with adm := { s.adm with
          inUse := s.adm.inUse - 1, denials := oneMore s.adm.denials } } : State).setLine l { s.line l with call := some { c with
            slotHeld := false, openOutstanding := false, openWait := none } }))

/-- R113, R114, R117: an open wait that expires ends a call in OPENING with HOST TIMEOUT, its slot kept, and lets the
CLOSED of one in ENDING fall due, counted and reported. R105: an announcement timer that expires tells the place in the
queue again. That an expiry acts only when due, and otherwise changes nothing, is the model's reading (log entries 2 and
3). -/
def Obligations.OpenWaitAndAnnouncementExpire : Prop :=
  ∀ s l c k, s.callOn l = some c → c.cls = some k →
    (c.openWait ≠ some 0 ∨ c.phase ≠ .opening ∧ (c.phase ≠ .ending ∨ c.openOutstanding = false) →
      Completes (.openWaitExpiry l) s s) ∧
    (c.openWait = some 0 → c.phase = .opening → c.endCause = none → EndsCall (.openWaitExpiry l) s l c .hostTimeout ∧
      ∃ t, Completes (.openWaitExpiry l) s t ∧ t.adm = { s.adm with openTimeouts := oneMore s.adm.openTimeouts }) ∧
    (c.openWait = some 0 → c.phase = .ending → c.openOutstanding = true → c.released = false →
      Completes (.openWaitExpiry l) s (raiseFault
        (({ s with adm := { s.adm with openTimeouts := oneMore s.adm.openTimeouts } } : State).setLine l
          { s.line l with call := some { c with openOutstanding := false, openWait := none, closedDue := true } })
        .openTimeout (some l) (some c.number) k.val)) ∧
    (c.phase ≠ .queued ∨ c.announce ≠ some 0 → Completes (.announcementTimerExpiry l) s s) ∧
    ∀ ahead behind, c.phase = .queued → c.announce = some 0 → s.adm.queues[k] = ahead ++ l :: behind → l ∉ ahead →
      (∀ j : ClassNo, j ≠ k → l ∉ s.adm.queues[j]) →
      let chars := substituteHash (decimal (ahead.length + 1)) s.soe.texts[9]
      let placed := if chars = [] then [] else 0x0D :: 0x0A :: chars
      c.txBuf.length + placed.length ≤ 256 →
      Completes (.announcementTimerExpiry l) s (s.setLine l { s.line l with call := some { c with
        txBuf := c.txBuf ++ placed, announce := startTimer s.adm.classes[k].announce } })

/-! ### The calendar, tariffs and closed windows (R137 to R148) -/

/-- R137, R138, R141, R142, R143, R144: CLOCK SET and a minute change make the minute evaluation: an activation time
that is reached switches the tariff, then the band, the windows and the barred class set stand as the clock says. A band
change that leaves the barred class set as it was adds HOURS to the calls that the band excludes and takes it from those
that it admits. A minute change acts when it is due (log entries 2 and 3). -/
def Obligations.ClockSetAndMinuteChangeEvaluate : Prop :=
  let evaluated := fun (s t : State) =>
    let hit := ∃ p, s.ctu.waiting = some p ∧ p.activation = .timed ∧ p.actDay = t.ctu.day ∧
      p.actMinute = t.ctu.hour * 60 + t.ctu.minute
    (hit → t.ctu.current = s.ctu.waiting ∧ t.ctu.waiting = none ∧ t.ctu.generation = advanceNumber s.ctu.generation ∧
      t.ctu.activations = oneMore s.ctu.activations ∧ t.ctu.switches = oneMore s.ctu.switches) ∧
    (¬ hit → t.ctu.current = s.ctu.current ∧ t.ctu.waiting = s.ctu.waiting ∧ t.ctu.generation = s.ctu.generation ∧
      t.ctu.activations = s.ctu.activations ∧ t.ctu.switches = s.ctu.switches) ∧
    (t.ctu.barred = s.ctu.barred → HoursFollowBand s t) ∧ t.ctu.minuteDue = false ∧
    t.ctu.band = evaluatedBand t.ctu ∧ t.ctu.barred = barredSet t.ctu.windows ∧
    ∀ i : Fin 4, t.ctu.windows[i] = { s.ctu.windows[i] with isOpen := windowState t.ctu s.ctu.windows[i] }
  (∀ s f rest day hour minute second, Requested s 0x40 f rest →
    let c := Instr.clockSet day hour minute second
    (6 < day → OnlyAnswers c s f rest (.refused .badValue (.index 0))) ∧
    (day ≤ 6 → 23 < hour → OnlyAnswers c s f rest (.refused .badValue (.index 1))) ∧
    (day ≤ 6 → hour ≤ 23 → 59 < minute → OnlyAnswers c s f rest (.refused .badValue (.index 2))) ∧
    (day ≤ 6 → hour ≤ 23 → minute ≤ 59 → 59 < second → OnlyAnswers c s f rest (.refused .badValue (.index 3))) ∧
    (day ≤ 6 → hour ≤ 23 → minute ≤ 59 → second ≤ 59 → ∃ t, Completes c s t ∧ t.ctu.day = day ∧ t.ctu.hour = hour ∧
      t.ctu.minute = minute ∧ t.ctu.second = second ∧ t.ctu.isSet = true ∧ evaluated s t ∧
      t.hli.prio[s.hli.prio.length]? = some (replyTo f (.done (.clock t.ctu.band t.ctu.barred))) ∧
      t.adm.classes = s.adm.classes ∧ t.soe.texts = s.soe.texts)) ∧
  (∀ s, s.ctu.minuteDue = true → ∃ t, Completes .minuteChange s t ∧ evaluated s t ∧ t.ctu.now = s.ctu.now ∧
    t.ctu.isSet = s.ctu.isSet) ∧
  ∀ s, s.ctu.minuteDue = false → Completes .minuteChange s s

/-- R142, R144: the band that an evaluation gives is the last of the tariff's bands to have started; a window is OPEN
exactly in the minutes of the spans of its days, which may run past midnight and past the end of the week. -/
def Obligations.BandAndWindowStatesFollowTheClock : Prop :=
  (∀ c b, evaluatedBand c = some b ↔ c.isSet = true ∧ ∃ t, c.current = some t ∧ b.val < t.bandCount ∧
    t.starts[b] ≤ c.hour * 60 + c.minute ∧
    ∀ later : BandNo, b < later → later.val < t.bandCount → c.hour * 60 + c.minute < t.starts[later]) ∧
  (∀ c w, windowState c w = true ↔ c.isSet = true ∧ ∃ d k : Nat, d < 7 ∧ w.dayMask.getLsbD d = true ∧ k < w.length ∧
    (d * 1440 + w.start + k) % 10080 = (c.day * 1440 + c.hour * 60 + c.minute) % 10080) ∧
  ∀ (windows : Vector Window 4) (k : ClassNo), (barredSet windows).getLsbD k.val = true ↔
    ∃ i : Fin 4, windows[i].isOpen = true ∧ windows[i].classMask.getLsbD k.val = true

/-- R139, R140, R141, R142, R143: TARIFF LOAD replaces the pending tariff whole, or is refused with the first field or
combination of Table 8.1 that fails; TARIFF SWITCH makes it current, passes the generation on and evaluates the band,
with the HOURS causes that follow, and is refused with none pending. Fields 11 and 13 are range-checked whether or not
the limit they set is on: the model's reading (log entry 21). -/
def Obligations.TariffsAreLoadedAndSwitched : Prop :=
  (∀ s f rest t, Requested s 0x41 f rest →
    let good : Nat → Prop := fun i => match i with
      | 0 => 1 ≤ t.bandCount ∧ t.bandCount ≤ 8
      | 1 => t.starts[0] = 0 ∧ ∀ k : BandNo, k.val < t.bandCount →
          t.starts[k] ≤ 1439 ∧ ∀ j : BandNo, j < k → t.starts[j] < t.starts[k]
      | 2 => ∀ k : BandNo, k.val < t.bandCount → t.rates[k] ≤ 4095
      | 3 => t.multS ≤ 1023
      | 4 => t.multM ≤ 1023
      | 5 => t.multF ≤ 1023
      | 6 => t.tier1 ≤ 65535
      | 7 => t.tier2 ≤ 65535 ∧ (1 ≤ t.tier1 → 1 ≤ t.tier2 → t.tier1 < t.tier2)
      | 8 => t.factor0 ≤ 1023
      | 9 => t.factor1 ≤ 1023
      | 10 => t.factor2 ≤ 1023
      | 11 => t.floor ≤ 4095
      | 13 => t.ceiling ≤ 4095 ∧ (t.floorOn = true → t.ceilingOn = true → t.floor ≤ t.ceiling)
      | 15 => 1 ≤ t.stepLength ∧ t.stepLength ≤ 60
      | 19 => t.activation = .timed → t.actDay ≤ 6
      | 20 => t.activation = .timed → t.actMinute ≤ 1439
      | _ => True
    ((∀ i, good i) → Completes (.tariffLoad t) s
      { afterReply s f rest (.done (.replaced s.ctu.waiting.isSome)) with ctu := { s.ctu with waiting := some t } }) ∧
    ∀ i, ¬ good i → (∀ j, j < i → good j) → OnlyAnswers (.tariffLoad t) s f rest (.refused .badValue (.index i))) ∧
  ∀ s f rest, Requested s 0x42 f rest →
    (s.ctu.waiting = none → OnlyAnswers .tariffSwitch s f rest (.refused .notReady .none)) ∧
    ∀ p, s.ctu.waiting = some p → ∃ t, Completes .tariffSwitch s t ∧
      t.ctu = { s.ctu with
        current := some p, waiting := none, generation := advanceNumber s.ctu.generation
        switches := oneMore s.ctu.switches, band := t.ctu.band
        bandChanges := if t.ctu.band = s.ctu.band then s.ctu.bandChanges else oneMore s.ctu.bandChanges } ∧
      t.ctu.band = evaluatedBand t.ctu ∧
      t.hli.prio[s.hli.prio.length]? = some (replyTo f (.done (.generation (advanceNumber s.ctu.generation)))) ∧
      (t.ctu.band = s.ctu.band → t.lines = s.lines ∧ t.acc = s.acc) ∧ HoursFollowBand s t ∧ t.adm.classes = s.adm.classes

/-- R145, R144, R146, R25, R27: WINDOW SET replaces one window and evaluates it and the barred class set; a queued call of
a newly barred class ends with WINDOW, and one in OPENING or CONNECTED takes the cause with its grace and the text, or
ends at once under a grace of 0; from a call of a released class the cause is removed, and a call of any other class
stays as it was. The calls named have entries with no limit. No step is complete and uncharged where a call ends at
once (log entry 4). -/
def Obligations.WindowSetBarsItsClasses : Prop :=
  ∀ s f rest (i : Fin 4) dayMask start length classMask, Requested s 0x43 f rest →
    let c := Instr.windowSet i.val dayMask start length classMask
    let w := { s.ctu.windows[i] with
      dayMask := dayMask.setWidth 7, start := start, length := length, classMask := classMask.setWidth 4 }
    (∀ n, 3 < n → OnlyAnswers (.windowSet n dayMask start length classMask) s f rest (.refused .badValue (.index 0))) ∧
    (1439 < start → OnlyAnswers c s f rest (.refused .badValue (.index 2))) ∧
    (start ≤ 1439 → 1440 < length → OnlyAnswers c s f rest (.refused .badValue (.index 3))) ∧
    (start ≤ 1439 → length ≤ 1440 → ∃ t, Completes c s t ∧
      t.ctu.windows = s.ctu.windows.set i { w with isOpen := windowState s.ctu w } ∧
      t.ctu.barred = barredSet t.ctu.windows ∧ t.ctu.now = s.ctu.now ∧ t.ctu.band = s.ctu.band ∧
      t.hli.prio[s.hli.prio.length]? = some (replyTo f (.done (.window (windowState s.ctu w) t.ctu.barred))) ∧
      (t.ctu.barred = s.ctu.barred → t.lines = s.lines ∧ t.acc = s.acc ∧ t.adm = s.adm) ∧
      ∀ l d at' e (k : ClassNo), Reached s l d at' → Unlimited s d at' e → d.cls = some k → d.endCause = none →
        let grace := s.adm.classes[k].hoursGrace
        let left := d.pend.window.getD (intervalSecs grace)
        let text := [numbered s 13 (wholeMinutes left)]
        let warned := { d with
          pend := { d.pend with window := some left }, graceEntered := d.graceEntered || d.pend.window.isNone }
        (s.ctu.barred.getLsbD k.val = t.ctu.barred.getLsbD k.val → t.line l = s.line l) ∧
        (s.ctu.barred.getLsbD k.val = true → t.ctu.barred.getLsbD k.val = false →
          t.line l = { s.line l with call := some { d with pend := { d.pend with window := none } } }) ∧
        (s.ctu.barred.getLsbD k.val = false → t.ctu.barred.getLsbD k.val = true →
          (d.phase = .queued → CarriesCause t l d .window) ∧
          (d.phase ≠ .queued → grace.count = 0 → stepDue s l = false → CarriesCause t l d .window) ∧
          (d.phase ≠ .queued → 1 ≤ grace.count → ∃ d', t.callOn l = some d' ∧ d'.phase = d.phase ∧ d'.endCause = none ∧
            d'.graceEntered = warned.graceEntered ∧ d'.pend = warned.pend) ∧
          (d.phase ≠ .queued → 1 ≤ grace.count → HasRoom d text →
            t.line l = { s.line l with call := some (sentTexts warned text) })))

/-! ### The 1-second clock and the meter (R1, R149 to R164) -/

/-- R1, R137, R26, R28, R102, R153, R154: one second on the calendar clock, on every running timer and on every call's
meter, and nothing else changes. No complete step is outstanding. What falls due, a deadline or a minute change among
it, is taken by its own command after these counts: the model's choice (log entries 3, 4 and 40). -/
def Obligations.OneSecondEventCountsEverything : Prop :=
  ∀ s, (∀ l, stepDue s l = false) → ∃ t, Completes .oneSecondEvent s t ∧
    t = { s with
      lines := t.lines, ctu := t.ctu, acc := { s.acc with frames := t.acc.frames, slots := t.acc.slots }
      sfu := { s.sfu with surveyTimer := s.sfu.surveyTimer.map (· - 1) } } ∧
    t.ctu = { s.ctu with
      day := t.ctu.day, hour := t.ctu.hour, minute := t.ctu.minute, second := t.ctu.second
      minuteDue := t.ctu.minuteDue } ∧
    (s.ctu.isSet = false → t.ctu = s.ctu) ∧
    (s.ctu.isSet = true → s.ctu.day ≤ 6 → s.ctu.hour ≤ 23 → s.ctu.minute ≤ 59 → s.ctu.second ≤ 59 →
      t.ctu.second = (s.ctu.second + 1) % 60 ∧ t.ctu.hour ≤ 23 ∧
      t.ctu.minute = (if s.ctu.second = 59 then (s.ctu.minute + 1) % 60 else s.ctu.minute) ∧
      t.ctu.day * 86400 + t.ctu.now.second = (s.ctu.day * 86400 + s.ctu.now.second + 1) % 604800 ∧
      t.ctu.minuteDue = (s.ctu.minuteDue || decide (s.ctu.second = 59))) ∧
    (∀ l, let x := s.line l
      t.line l = { x with
        ringGap := x.ringGap.map (· - 1), answerWait := x.answerWait.map (· - 1), speedWait := x.speedWait.map (· - 1)
        holdover := x.holdover.map (· - 1), dropGuard := x.dropGuard.map (· - 1)
        call := x.call.map fun c => { c with
          fieldTimer := c.fieldTimer.map (· - 1), announce := c.announce.map (· - 1), openWait := c.openWait.map (· - 1)
          drain := c.drain.map (· - 1)
          queueWait := if c.phase = .queued then c.queueWait.map (· - 1) else c.queueWait
          queueSecs := if c.phase = .queued then min (c.queueSecs + 1) 16777215 else c.queueSecs
          idle := if c.phase = .connected ∧ x.st = .up then c.idle.map (· - 1) else c.idle
          pend := if c.phase = .queued ∨ c.phase = .opening ∨ c.phase = .connected then
              ⟨c.pend.allowance.map (· - 1), c.pend.window.map (· - 1), c.pend.hours.map (· - 1)⟩ else c.pend
          meter := if c.phase = .connected ∧ x.st = .up then
              { c.meter with stepPos := c.meter.stepPos + 1, connectSecs := c.meter.connectSecs + 1 }
            else if c.phase = .connected ∧ x.st = .fade then { c.meter with fadeSecs := oneMore c.meter.fadeSecs }
            else c.meter } }) ∧
    (∀ i : SlotNo, t.acc.slots[i] = (s.acc.slots[i]).map fun x => { x with timer := x.timer.map (· - 1) }) ∧
    ∀ g, t.frame g = { s.frame g with fresh := false }

/-- R152, R153: a complete step is charged at its held rate through the accumulator, and the next step starts at a rate
computed once; a step that is not complete is left alone. The entry has no limit. R151: the effective rate by Table 9.2:
base rate, multiplier of the speed class, tier factor of the connect time, adjustment of the class kept within 0 to
4095, then the floor and the ceiling that are on. A step not complete is left alone (log entries 2 and 3), and the
position is 0 at the charge (log entry 17). -/
def Obligations.CompleteStepIsChargedAtItsRate : Prop :=
  (∀ s l, (stepDue s l = false → Completes (.stepCompletion l) s s) ∧
     ∀ c at' e tariff band k v, s.callOn l = some c → Unlimited s c at' e → Rated s c tariff band k v →
       c.phase = .connected → 1 ≤ c.meter.stepLen → c.meter.stepLen ≤ c.meter.stepPos →
       let total := c.meter.acc + c.meter.stepRate * c.meter.stepLen
       ∃ t, Completes (.stepCompletion l) s t ∧ OtherLinesKept s t l ∧
         t.line l = { s.line l with call := some { c with meter := { c.meter with
           stepPos := 0, acc := total % 3600, charge := c.meter.charge + total / 3600, stepLen := tariff.stepLength
           stepRate := stepRateOf tariff band v c.meter.connectSecs s.adm.classes[k].rateAdjust } } } ∧
         t.entryAt at' = some { e with charged := e.charged + BitVec.ofNat 32 (total / 3600) } ∧
         (∀ at2, at2 ≠ at' → t.entryAt at2 = s.entryAt at2) ∧ t.hli = s.hli ∧ t.adm = s.adm ∧ t.bst = s.bst ∧
         t.ctu = s.ctu ∧ t.sfu = s.sfu ∧ t.soe = s.soe ∧ t.mtr = s.mtr) ∧
  ∀ (t : Tariff) (band : BandNo) v secs (adjust : Int),
    let mult := match v with
      | .b110 | .b150 | .b300 => t.multS
      | .b600 | .b1200 => t.multM
      | .b2400 | .b4800 | .b9600 => t.multF
    let r2 := t.rates[band] * mult / 256
    let tiered := fun factor => r2 * factor / 256
    let rate := stepRateOf t band v secs adjust
    let plain := fun (r : Nat) => (t.floorOn = false → t.ceilingOn = false → rate = r) ∧
      (t.floorOn = true → t.ceilingOn = false → rate = max r t.floor) ∧
      (t.floorOn = false → t.ceilingOn = true → rate = min r t.ceiling) ∧
      (t.floorOn = true → t.ceilingOn = true → rate = min (max r t.floor) t.ceiling)
    ∀ factor, ((1 ≤ t.tier2 ∧ t.tier2 * 60 ≤ secs ∧ factor = t.factor2) ∨
        ((t.tier2 = 0 ∨ secs < t.tier2 * 60) ∧ 1 ≤ t.tier1 ∧ t.tier1 * 60 ≤ secs ∧ factor = t.factor1) ∨
        ((t.tier2 = 0 ∨ secs < t.tier2 * 60) ∧ (t.tier1 = 0 ∨ secs < t.tier1 * 60) ∧ factor = t.factor0)) →
      ((tiered factor : Int) + adjust < 0 → plain 0) ∧ (4095 < (tiered factor : Int) + adjust → plain 4095) ∧
      (∀ r : Nat, r ≤ 4095 → (r : Int) = (tiered factor : Int) + adjust → plain r) ∧
      (t.floor ≤ 4095 → rate ≤ 4095)

/-! ### Rules of the whole part -/

/-- R12, R32, R51, R58, R74, R95, R99, R100, R111, R137, R140, R141, R145, R185, R188: each group of settings is changed
only by the requests of its rule, by power-on and by RESTART: the tariffs also by an activation that a CLOCK SET or a
minute change reaches, and the outbound hold by the host's pin. That no command, power-on and RESTART among them,
touches the commands that wait is the model's (log entry 32). -/
def Obligations.SettingsChangeOnlyByTheirRequests : Prop :=
  ∀ c s t, Completes c s t → t.pending = s.pending ∧
    (c = .powerOn ∨ (∃ m, c = .restart m) ∨
      (((∃ x, c = .lineSet x) ∨ ∀ l, (t.line l).settings = (s.line l).settings) ∧
       ((∃ n, c = .linesFitted n) ∨ t.fitted = s.fitted) ∧
       (c = .textLoad ∨ t.soe.texts = s.soe.texts) ∧
       ((∃ a b d, c = .dialogueSet a b d) ∨
        t.soe.attemptLimit = s.soe.attemptLimit ∧ t.soe.fieldTimeout = s.soe.fieldTimeout ∧
          t.soe.drainLimit = s.soe.drainLimit) ∧
       ((∃ n w, c = .directorySet n w) ∨ t.acc.size = s.acc.size ∧ t.acc.wait = s.acc.wait) ∧
       ((∃ k r, c = .classSet k r) ∨ t.adm.classes = s.adm.classes) ∧
       ((∃ n r w, c = .capacitySet n r w) ∨ t.adm.reserve = s.adm.reserve ∧ t.adm.openWait = s.adm.openWait) ∧
       ((∃ n r w, c = .capacitySet n r w) ∨ c = .openRefuse .full ∨ t.adm.capacity = s.adm.capacity) ∧
       ((∃ n d st len m, c = .windowSet n d st len m) ∨ ∀ i : Fin 4,
          t.ctu.windows[i] = { s.ctu.windows[i] with isOpen := t.ctu.windows[i].isOpen }) ∧
       (c = .tariffSwitch ∨ (∃ d h m sec, c = .clockSet d h m sec) ∨ c = .minuteChange ∨
         t.ctu.current = s.ctu.current ∧ t.ctu.generation = s.ctu.generation ∧
           ((∃ p, c = .tariffLoad p) ∨ t.ctu.waiting = s.ctu.waiting)) ∧
       ((∃ k, c = .faultMask k) ∨ t.sfu.mask = s.sfu.mask) ∧
       ((∃ ls p, c = .surveySet ls p) ∨ t.sfu.surveyLines = s.sfu.surveyLines ∧ t.sfu.surveyPeriod = s.sfu.surveyPeriod) ∧
       ((∃ h, c = .outboundHoldChange h) ∨ t.hli.outHold = s.hli.outHold)))

/-- R6, R11, R13, R175, R176, R59, R61, R64, R120, R126, R130, R134, R152: every step keeps the bounds of the lanes and
the inbound queue, of the Billing Store, and of every call's buffers and accumulator; and that of the transmit buffer
and the credit together, where lines, calls and queues accord as EveryStepKeepsLinesCallsAndSlots says, whose invariant
rules out a connected call that stands in a class queue. -/
def Obligations.EveryStepKeepsTheBounds : Prop :=
  ∀ s t, step s = .next t →
    (LinkBounds s → LinkBounds t) ∧ (StoreBounds s → StoreBounds t) ∧ (BuffersBounded s → BuffersBounded t) ∧
    (LinesFit s → SlotsCounted s → CreditBounded s → CreditBounded t)

/-- R21: every step keeps call numbers within 1 to 65535 and different on different lines. -/
def Obligations.EveryStepKeepsCallNumbersDistinct : Prop :=
  ∀ s t, step s = .next t → NumbersDistinct s → NumbersDistinct t

/-- R31, R24, R73, R101, R102, R176, Table 2.2: every step keeps each line's state in accord with its call record, the
slots in use equal to the calls that hold one, at most 32, calls unattached up to LOOKUP and attached in QUEUED and
OPENING, and the queues and the held order filled with calls of their phases. -/
def Obligations.EveryStepKeepsLinesCallsAndSlots : Prop :=
  ∀ s t, step s = .next t → LinesFit s ∧ SlotsCounted s → LinesFit t ∧ SlotsCounted t

/-- The invariants hold of the part right after reset. -/
def Obligations.ResetMeetsTheInvariants : Prop :=
  LinkBounds State.reset ∧ StoreBounds State.reset ∧ BuffersBounded State.reset ∧ CreditBounded State.reset ∧
  NumbersDistinct State.reset ∧
    LinesFit State.reset ∧ SlotsCounted State.reset
end

