-- ==== Sys2Proof/Laws/State.lean ====
section
/-! SUPPORT. How each named update of State reads back: one lemma per field per update, all true by unfolding, so that no proof need
unfold a record update. -/

namespace Sys2Proof.Machine

/-! ### Lines -/

theorem State.callOn_eq (s : State) (l : LineNo) : s.callOn l = (s.line l).call := rfl

@[simp] theorem State.line_mk (p h f ls n st soe acc adm fw c m b sf) (l : LineNo) :
    (State.mk p h f ls n st soe acc adm fw c m b sf).line l = ls[l] := rfl

@[simp] theorem State.callOn_mk (p h f ls n st soe acc adm fw c m b sf) (l : LineNo) :
    (State.mk p h f ls n st soe acc adm fw c m b sf).callOn l = (ls[l]).call := rfl

@[simp] theorem State.line_setLine_self (s : State) (l : LineNo) (x : Line) : (s.setLine l x).line l = x := by
  simp [State.line, State.setLine]

@[simp] theorem State.line_setLine_ne (s : State) {l m : LineNo} (x : Line) (h : m ≠ l) :
    (s.setLine l x).line m = s.line m := by
  have : l.val ≠ m.val := fun e => h (Fin.ext e.symm)
  simp [State.line, State.setLine, this]

theorem State.line_setLine (s : State) (l m : LineNo) (x : Line) :
    (s.setLine l x).line m = if m = l then x else s.line m := by
  by_cases h : m = l
  · subst h; simp
  · simp [h]

@[simp] theorem State.setLine_setLine (s : State) (l : LineNo) (x y : Line) :
    (s.setLine l x).setLine l y = s.setLine l y := by
  simp [State.setLine]

@[simp] theorem State.setLine_line (s : State) (l : LineNo) : s.setLine l (s.line l) = s := by
  simp [State.setLine, State.line]

theorem State.modLine_eq (s : State) (l : LineNo) (f : Line → Line) : s.modLine l f = s.setLine l (f (s.line l)) := rfl

@[simp] theorem State.line_modLine_self (s : State) (l : LineNo) (f : Line → Line) :
    (s.modLine l f).line l = f (s.line l) := by simp [State.modLine]

@[simp] theorem State.line_modLine_ne (s : State) {l m : LineNo} (f : Line → Line) (h : m ≠ l) :
    (s.modLine l f).line m = s.line m := by simp [State.modLine, h]

@[simp] theorem State.line_modCall_self (s : State) (l : LineNo) (f : Call → Call) :
    (s.modCall l f).line l = { s.line l with call := (s.line l).call.map f } := by simp [State.modCall]

@[simp] theorem State.line_modCall_ne (s : State) {l m : LineNo} (f : Call → Call) (h : m ≠ l) :
    (s.modCall l f).line m = s.line m := by simp [State.modCall, h]

@[simp] theorem State.callOn_modCall_self (s : State) (l : LineNo) (f : Call → Call) :
    (s.modCall l f).callOn l = (s.callOn l).map f := by simp [State.callOn]

@[simp] theorem State.callOn_modCall_ne (s : State) {l m : LineNo} (f : Call → Call) (h : m ≠ l) :
    (s.modCall l f).callOn m = s.callOn m := by simp [State.callOn, h]

theorem State.modCall_some {s : State} {l : LineNo} {c : Call} (f : Call → Call) (h : (s.line l).call = some c) :
    s.modCall l f = s.setLine l { s.line l with call := some (f c) } := by simp [State.modCall, State.modLine, h]

theorem State.modCall_none {s : State} {l : LineNo} (f : Call → Call) (h : (s.line l).call = none) :
    s.modCall l f = s := by
  have : ({ s.line l with call := (none : Option Call) } : Line) = s.line l := by rw [← h]
  simp [State.modCall, State.modLine, h, this]

@[simp] theorem State.line_modCounters_self (s : State) (l : LineNo) (f : LineCounters → LineCounters) :
    (s.modCounters l f).line l = { s.line l with ctr := f (s.line l).ctr } := by simp [State.modCounters]

@[simp] theorem State.line_modCounters_ne (s : State) {l m : LineNo} (f : LineCounters → LineCounters) (h : m ≠ l) :
    (s.modCounters l f).line m = s.line m := by simp [State.modCounters, h]

@[simp] theorem State.callOn_modCounters (s : State) (l m : LineNo) (f : LineCounters → LineCounters) :
    (s.modCounters l f).callOn m = s.callOn m := by
  by_cases h : m = l
  · subst h; simp [State.callOn]
  · simp [State.callOn, h]

@[simp] theorem State.line_modCarriage_self (s : State) (l : LineNo) (f : CarriageCounters → CarriageCounters) :
    (s.modCarriage l f).line l = { s.line l with car := f (s.line l).car } := by simp [State.modCarriage]

@[simp] theorem State.line_modCarriage_ne (s : State) {l m : LineNo} (f : CarriageCounters → CarriageCounters)
    (h : m ≠ l) : (s.modCarriage l f).line m = s.line m := by simp [State.modCarriage, h]

@[simp] theorem State.callOn_modCarriage (s : State) (l m : LineNo) (f : CarriageCounters → CarriageCounters) :
    (s.modCarriage l f).callOn m = s.callOn m := by
  by_cases h : m = l
  · subst h; simp [State.callOn]
  · simp [State.callOn, h]

@[simp] theorem State.callOn_setLine_self (s : State) (l : LineNo) (x : Line) : (s.setLine l x).callOn l = x.call := by
  simp [State.callOn]

@[simp] theorem State.callOn_setLine_ne (s : State) {l m : LineNo} (x : Line) (h : m ≠ l) :
    (s.setLine l x).callOn m = s.callOn m := by simp [State.callOn, h]

/-- Two states with the same lines, one by one, and the same other fields are the same. -/
theorem State.ext_lines {s t : State} (h : ∀ l, t.line l = s.line l) (k : BlocksKept s t) : t = s := by
  have e : t.lines = s.lines := by
    ext i hi
    exact h ⟨i, hi⟩
  cases s
  cases t
  simp_all [BlocksKept]

/-! ### Frames and entries -/

@[simp] theorem State.frame_mk (p h f ls n st soe acc adm fw c m b sf) (g : FrameNo) :
    (State.mk p h f ls n st soe acc adm fw c m b sf).frame g = acc.frames[g] := rfl

@[simp] theorem State.frame_modFrame_self (s : State) (g : FrameNo) (f : Frame → Frame) :
    (s.modFrame g f).frame g = f (s.frame g) := by simp [State.frame, State.modFrame]

@[simp] theorem State.frame_modFrame_ne (s : State) {g k : FrameNo} (f : Frame → Frame) (h : k ≠ g) :
    (s.modFrame g f).frame k = s.frame k := by
  have : g.val ≠ k.val := fun e => h (Fin.ext e.symm)
  simp [State.frame, State.modFrame, this]

@[simp] theorem State.entryAt_modEntry_self (s : State) (at' : FrameNo × EntryNo) (f : Entry → Entry) :
    (s.modEntry at' f).entryAt at' = (s.entryAt at').map f := by simp [State.modEntry, State.entryAt]

@[simp] theorem State.entryAt_modEntry_ne (s : State) {a b : FrameNo × EntryNo} (f : Entry → Entry) (h : b ≠ a) :
    (s.modEntry a f).entryAt b = s.entryAt b := by
  by_cases g : b.1 = a.1
  · have e : a.2.val ≠ b.2.val := fun e => h (Prod.ext g (Fin.ext e.symm))
    simp [State.modEntry, State.entryAt, g, e]
  · simp [State.modEntry, State.entryAt, g]

/-! ### The register files by their accessors -/

@[simp] theorem State.get_lines (s : State) (l : LineNo) : s.lines[l.val] = s.line l := rfl

@[simp] theorem State.get_frames (s : State) (g : FrameNo) : s.acc.frames[g.val] = s.frame g := rfl

/-! ### Fields that an update leaves alone -/

@[simp] theorem State.pending_setLine (s : State) (l : LineNo) (x : Line) : (s.setLine l x).pending = s.pending := rfl
@[simp] theorem State.hli_setLine (s : State) (l : LineNo) (x : Line) : (s.setLine l x).hli = s.hli := rfl
@[simp] theorem State.fitted_setLine (s : State) (l : LineNo) (x : Line) : (s.setLine l x).fitted = s.fitted := rfl
@[simp] theorem State.nextCall_setLine (s : State) (l : LineNo) (x : Line) : (s.setLine l x).nextCall = s.nextCall := rfl
@[simp] theorem State.stale_setLine (s : State) (l : LineNo) (x : Line) : (s.setLine l x).stale = s.stale := rfl
@[simp] theorem State.soe_setLine (s : State) (l : LineNo) (x : Line) : (s.setLine l x).soe = s.soe := rfl
@[simp] theorem State.acc_setLine (s : State) (l : LineNo) (x : Line) : (s.setLine l x).acc = s.acc := rfl
@[simp] theorem State.adm_setLine (s : State) (l : LineNo) (x : Line) : (s.setLine l x).adm = s.adm := rfl
@[simp] theorem State.forwardWait_setLine (s : State) (l : LineNo) (x : Line) : (s.setLine l x).forwardWait = s.forwardWait := rfl
@[simp] theorem State.ctu_setLine (s : State) (l : LineNo) (x : Line) : (s.setLine l x).ctu = s.ctu := rfl
@[simp] theorem State.mtr_setLine (s : State) (l : LineNo) (x : Line) : (s.setLine l x).mtr = s.mtr := rfl
@[simp] theorem State.bst_setLine (s : State) (l : LineNo) (x : Line) : (s.setLine l x).bst = s.bst := rfl
@[simp] theorem State.sfu_setLine (s : State) (l : LineNo) (x : Line) : (s.setLine l x).sfu = s.sfu := rfl
@[simp] theorem State.frame_setLine (s : State) (l : LineNo) (x : Line) (k : FrameNo) :
    (s.setLine l x).frame k = s.frame k := rfl
@[simp] theorem State.entryAt_setLine (s : State) (l : LineNo) (x : Line) (b : FrameNo × EntryNo) :
    (s.setLine l x).entryAt b = s.entryAt b := rfl

@[simp] theorem State.pending_modLine (s : State) (l : LineNo) (f : Line → Line) : (s.modLine l f).pending = s.pending := rfl
@[simp] theorem State.hli_modLine (s : State) (l : LineNo) (f : Line → Line) : (s.modLine l f).hli = s.hli := rfl
@[simp] theorem State.fitted_modLine (s : State) (l : LineNo) (f : Line → Line) : (s.modLine l f).fitted = s.fitted := rfl
@[simp] theorem State.nextCall_modLine (s : State) (l : LineNo) (f : Line → Line) : (s.modLine l f).nextCall = s.nextCall := rfl
@[simp] theorem State.stale_modLine (s : State) (l : LineNo) (f : Line → Line) : (s.modLine l f).stale = s.stale := rfl
@[simp] theorem State.soe_modLine (s : State) (l : LineNo) (f : Line → Line) : (s.modLine l f).soe = s.soe := rfl
@[simp] theorem State.acc_modLine (s : State) (l : LineNo) (f : Line → Line) : (s.modLine l f).acc = s.acc := rfl
@[simp] theorem State.adm_modLine (s : State) (l : LineNo) (f : Line → Line) : (s.modLine l f).adm = s.adm := rfl
@[simp] theorem State.forwardWait_modLine (s : State) (l : LineNo) (f : Line → Line) : (s.modLine l f).forwardWait = s.forwardWait := rfl
@[simp] theorem State.ctu_modLine (s : State) (l : LineNo) (f : Line → Line) : (s.modLine l f).ctu = s.ctu := rfl
@[simp] theorem State.mtr_modLine (s : State) (l : LineNo) (f : Line → Line) : (s.modLine l f).mtr = s.mtr := rfl
@[simp] theorem State.bst_modLine (s : State) (l : LineNo) (f : Line → Line) : (s.modLine l f).bst = s.bst := rfl
@[simp] theorem State.sfu_modLine (s : State) (l : LineNo) (f : Line → Line) : (s.modLine l f).sfu = s.sfu := rfl
@[simp] theorem State.frame_modLine (s : State) (l : LineNo) (f : Line → Line) (k : FrameNo) :
    (s.modLine l f).frame k = s.frame k := rfl
@[simp] theorem State.entryAt_modLine (s : State) (l : LineNo) (f : Line → Line) (b : FrameNo × EntryNo) :
    (s.modLine l f).entryAt b = s.entryAt b := rfl

@[simp] theorem State.pending_modCall (s : State) (l : LineNo) (f : Call → Call) : (s.modCall l f).pending = s.pending := rfl
@[simp] theorem State.hli_modCall (s : State) (l : LineNo) (f : Call → Call) : (s.modCall l f).hli = s.hli := rfl
@[simp] theorem State.fitted_modCall (s : State) (l : LineNo) (f : Call → Call) : (s.modCall l f).fitted = s.fitted := rfl
@[simp] theorem State.nextCall_modCall (s : State) (l : LineNo) (f : Call → Call) : (s.modCall l f).nextCall = s.nextCall := rfl
@[simp] theorem State.stale_modCall (s : State) (l : LineNo) (f : Call → Call) : (s.modCall l f).stale = s.stale := rfl
@[simp] theorem State.soe_modCall (s : State) (l : LineNo) (f : Call → Call) : (s.modCall l f).soe = s.soe := rfl
@[simp] theorem State.acc_modCall (s : State) (l : LineNo) (f : Call → Call) : (s.modCall l f).acc = s.acc := rfl
@[simp] theorem State.adm_modCall (s : State) (l : LineNo) (f : Call → Call) : (s.modCall l f).adm = s.adm := rfl
@[simp] theorem State.forwardWait_modCall (s : State) (l : LineNo) (f : Call → Call) : (s.modCall l f).forwardWait = s.forwardWait := rfl
@[simp] theorem State.ctu_modCall (s : State) (l : LineNo) (f : Call → Call) : (s.modCall l f).ctu = s.ctu := rfl
@[simp] theorem State.mtr_modCall (s : State) (l : LineNo) (f : Call → Call) : (s.modCall l f).mtr = s.mtr := rfl
@[simp] theorem State.bst_modCall (s : State) (l : LineNo) (f : Call → Call) : (s.modCall l f).bst = s.bst := rfl
@[simp] theorem State.sfu_modCall (s : State) (l : LineNo) (f : Call → Call) : (s.modCall l f).sfu = s.sfu := rfl
@[simp] theorem State.frame_modCall (s : State) (l : LineNo) (f : Call → Call) (k : FrameNo) :
    (s.modCall l f).frame k = s.frame k := rfl
@[simp] theorem State.entryAt_modCall (s : State) (l : LineNo) (f : Call → Call) (b : FrameNo × EntryNo) :
    (s.modCall l f).entryAt b = s.entryAt b := rfl

@[simp] theorem State.pending_modCounters (s : State) (l : LineNo) (f : LineCounters → LineCounters) : (s.modCounters l f).pending = s.pending := rfl
@[simp] theorem State.hli_modCounters (s : State) (l : LineNo) (f : LineCounters → LineCounters) : (s.modCounters l f).hli = s.hli := rfl
@[simp] theorem State.fitted_modCounters (s : State) (l : LineNo) (f : LineCounters → LineCounters) : (s.modCounters l f).fitted = s.fitted := rfl
@[simp] theorem State.nextCall_modCounters (s : State) (l : LineNo) (f : LineCounters → LineCounters) : (s.modCounters l f).nextCall = s.nextCall := rfl
@[simp] theorem State.stale_modCounters (s : State) (l : LineNo) (f : LineCounters → LineCounters) : (s.modCounters l f).stale = s.stale := rfl
@[simp] theorem State.soe_modCounters (s : State) (l : LineNo) (f : LineCounters → LineCounters) : (s.modCounters l f).soe = s.soe := rfl
@[simp] theorem State.acc_modCounters (s : State) (l : LineNo) (f : LineCounters → LineCounters) : (s.modCounters l f).acc = s.acc := rfl
@[simp] theorem State.adm_modCounters (s : State) (l : LineNo) (f : LineCounters → LineCounters) : (s.modCounters l f).adm = s.adm := rfl
@[simp] theorem State.forwardWait_modCounters (s : State) (l : LineNo) (f : LineCounters → LineCounters) : (s.modCounters l f).forwardWait = s.forwardWait := rfl
@[simp] theorem State.ctu_modCounters (s : State) (l : LineNo) (f : LineCounters → LineCounters) : (s.modCounters l f).ctu = s.ctu := rfl
@[simp] theorem State.mtr_modCounters (s : State) (l : LineNo) (f : LineCounters → LineCounters) : (s.modCounters l f).mtr = s.mtr := rfl
@[simp] theorem State.bst_modCounters (s : State) (l : LineNo) (f : LineCounters → LineCounters) : (s.modCounters l f).bst = s.bst := rfl
@[simp] theorem State.sfu_modCounters (s : State) (l : LineNo) (f : LineCounters → LineCounters) : (s.modCounters l f).sfu = s.sfu := rfl
@[simp] theorem State.frame_modCounters (s : State) (l : LineNo) (f : LineCounters → LineCounters) (k : FrameNo) :
    (s.modCounters l f).frame k = s.frame k := rfl
@[simp] theorem State.entryAt_modCounters (s : State) (l : LineNo) (f : LineCounters → LineCounters) (b : FrameNo × EntryNo) :
    (s.modCounters l f).entryAt b = s.entryAt b := rfl

@[simp] theorem State.pending_modCarriage (s : State) (l : LineNo) (f : CarriageCounters → CarriageCounters) : (s.modCarriage l f).pending = s.pending := rfl
@[simp] theorem State.hli_modCarriage (s : State) (l : LineNo) (f : CarriageCounters → CarriageCounters) : (s.modCarriage l f).hli = s.hli := rfl
@[simp] theorem State.fitted_modCarriage (s : State) (l : LineNo) (f : CarriageCounters → CarriageCounters) : (s.modCarriage l f).fitted = s.fitted := rfl
@[simp] theorem State.nextCall_modCarriage (s : State) (l : LineNo) (f : CarriageCounters → CarriageCounters) : (s.modCarriage l f).nextCall = s.nextCall := rfl
@[simp] theorem State.stale_modCarriage (s : State) (l : LineNo) (f : CarriageCounters → CarriageCounters) : (s.modCarriage l f).stale = s.stale := rfl
@[simp] theorem State.soe_modCarriage (s : State) (l : LineNo) (f : CarriageCounters → CarriageCounters) : (s.modCarriage l f).soe = s.soe := rfl
@[simp] theorem State.acc_modCarriage (s : State) (l : LineNo) (f : CarriageCounters → CarriageCounters) : (s.modCarriage l f).acc = s.acc := rfl
@[simp] theorem State.adm_modCarriage (s : State) (l : LineNo) (f : CarriageCounters → CarriageCounters) : (s.modCarriage l f).adm = s.adm := rfl
@[simp] theorem State.forwardWait_modCarriage (s : State) (l : LineNo) (f : CarriageCounters → CarriageCounters) : (s.modCarriage l f).forwardWait = s.forwardWait := rfl
@[simp] theorem State.ctu_modCarriage (s : State) (l : LineNo) (f : CarriageCounters → CarriageCounters) : (s.modCarriage l f).ctu = s.ctu := rfl
@[simp] theorem State.mtr_modCarriage (s : State) (l : LineNo) (f : CarriageCounters → CarriageCounters) : (s.modCarriage l f).mtr = s.mtr := rfl
@[simp] theorem State.bst_modCarriage (s : State) (l : LineNo) (f : CarriageCounters → CarriageCounters) : (s.modCarriage l f).bst = s.bst := rfl
@[simp] theorem State.sfu_modCarriage (s : State) (l : LineNo) (f : CarriageCounters → CarriageCounters) : (s.modCarriage l f).sfu = s.sfu := rfl
@[simp] theorem State.frame_modCarriage (s : State) (l : LineNo) (f : CarriageCounters → CarriageCounters) (k : FrameNo) :
    (s.modCarriage l f).frame k = s.frame k := rfl
@[simp] theorem State.entryAt_modCarriage (s : State) (l : LineNo) (f : CarriageCounters → CarriageCounters) (b : FrameNo × EntryNo) :
    (s.modCarriage l f).entryAt b = s.entryAt b := rfl

@[simp] theorem State.pending_modFrame (s : State) (g : FrameNo) (f : Frame → Frame) : (s.modFrame g f).pending = s.pending := rfl
@[simp] theorem State.hli_modFrame (s : State) (g : FrameNo) (f : Frame → Frame) : (s.modFrame g f).hli = s.hli := rfl
@[simp] theorem State.fitted_modFrame (s : State) (g : FrameNo) (f : Frame → Frame) : (s.modFrame g f).fitted = s.fitted := rfl
@[simp] theorem State.lines_modFrame (s : State) (g : FrameNo) (f : Frame → Frame) : (s.modFrame g f).lines = s.lines := rfl
@[simp] theorem State.nextCall_modFrame (s : State) (g : FrameNo) (f : Frame → Frame) : (s.modFrame g f).nextCall = s.nextCall := rfl
@[simp] theorem State.stale_modFrame (s : State) (g : FrameNo) (f : Frame → Frame) : (s.modFrame g f).stale = s.stale := rfl
@[simp] theorem State.soe_modFrame (s : State) (g : FrameNo) (f : Frame → Frame) : (s.modFrame g f).soe = s.soe := rfl
@[simp] theorem State.adm_modFrame (s : State) (g : FrameNo) (f : Frame → Frame) : (s.modFrame g f).adm = s.adm := rfl
@[simp] theorem State.forwardWait_modFrame (s : State) (g : FrameNo) (f : Frame → Frame) : (s.modFrame g f).forwardWait = s.forwardWait := rfl
@[simp] theorem State.ctu_modFrame (s : State) (g : FrameNo) (f : Frame → Frame) : (s.modFrame g f).ctu = s.ctu := rfl
@[simp] theorem State.mtr_modFrame (s : State) (g : FrameNo) (f : Frame → Frame) : (s.modFrame g f).mtr = s.mtr := rfl
@[simp] theorem State.bst_modFrame (s : State) (g : FrameNo) (f : Frame → Frame) : (s.modFrame g f).bst = s.bst := rfl
@[simp] theorem State.sfu_modFrame (s : State) (g : FrameNo) (f : Frame → Frame) : (s.modFrame g f).sfu = s.sfu := rfl
@[simp] theorem State.line_modFrame (s : State) (g : FrameNo) (f : Frame → Frame) (m : LineNo) :
    (s.modFrame g f).line m = s.line m := rfl
@[simp] theorem State.callOn_modFrame (s : State) (g : FrameNo) (f : Frame → Frame) (m : LineNo) :
    (s.modFrame g f).callOn m = s.callOn m := rfl

@[simp] theorem State.pending_modEntry (s : State) (at' : FrameNo × EntryNo) (f : Entry → Entry) : (s.modEntry at' f).pending = s.pending := rfl
@[simp] theorem State.hli_modEntry (s : State) (at' : FrameNo × EntryNo) (f : Entry → Entry) : (s.modEntry at' f).hli = s.hli := rfl
@[simp] theorem State.fitted_modEntry (s : State) (at' : FrameNo × EntryNo) (f : Entry → Entry) : (s.modEntry at' f).fitted = s.fitted := rfl
@[simp] theorem State.lines_modEntry (s : State) (at' : FrameNo × EntryNo) (f : Entry → Entry) : (s.modEntry at' f).lines = s.lines := rfl
@[simp] theorem State.nextCall_modEntry (s : State) (at' : FrameNo × EntryNo) (f : Entry → Entry) : (s.modEntry at' f).nextCall = s.nextCall := rfl
@[simp] theorem State.stale_modEntry (s : State) (at' : FrameNo × EntryNo) (f : Entry → Entry) : (s.modEntry at' f).stale = s.stale := rfl
@[simp] theorem State.soe_modEntry (s : State) (at' : FrameNo × EntryNo) (f : Entry → Entry) : (s.modEntry at' f).soe = s.soe := rfl
@[simp] theorem State.adm_modEntry (s : State) (at' : FrameNo × EntryNo) (f : Entry → Entry) : (s.modEntry at' f).adm = s.adm := rfl
@[simp] theorem State.forwardWait_modEntry (s : State) (at' : FrameNo × EntryNo) (f : Entry → Entry) : (s.modEntry at' f).forwardWait = s.forwardWait := rfl
@[simp] theorem State.ctu_modEntry (s : State) (at' : FrameNo × EntryNo) (f : Entry → Entry) : (s.modEntry at' f).ctu = s.ctu := rfl
@[simp] theorem State.mtr_modEntry (s : State) (at' : FrameNo × EntryNo) (f : Entry → Entry) : (s.modEntry at' f).mtr = s.mtr := rfl
@[simp] theorem State.bst_modEntry (s : State) (at' : FrameNo × EntryNo) (f : Entry → Entry) : (s.modEntry at' f).bst = s.bst := rfl
@[simp] theorem State.sfu_modEntry (s : State) (at' : FrameNo × EntryNo) (f : Entry → Entry) : (s.modEntry at' f).sfu = s.sfu := rfl
@[simp] theorem State.line_modEntry (s : State) (at' : FrameNo × EntryNo) (f : Entry → Entry) (m : LineNo) :
    (s.modEntry at' f).line m = s.line m := rfl
@[simp] theorem State.callOn_modEntry (s : State) (at' : FrameNo × EntryNo) (f : Entry → Entry) (m : LineNo) :
    (s.modEntry at' f).callOn m = s.callOn m := rfl

@[simp] theorem State.pending_setSlot (s : State) (i : SlotNo) (x : Option FetchSlot) : (s.setSlot i x).pending = s.pending := rfl
@[simp] theorem State.hli_setSlot (s : State) (i : SlotNo) (x : Option FetchSlot) : (s.setSlot i x).hli = s.hli := rfl
@[simp] theorem State.fitted_setSlot (s : State) (i : SlotNo) (x : Option FetchSlot) : (s.setSlot i x).fitted = s.fitted := rfl
@[simp] theorem State.lines_setSlot (s : State) (i : SlotNo) (x : Option FetchSlot) : (s.setSlot i x).lines = s.lines := rfl
@[simp] theorem State.nextCall_setSlot (s : State) (i : SlotNo) (x : Option FetchSlot) : (s.setSlot i x).nextCall = s.nextCall := rfl
@[simp] theorem State.stale_setSlot (s : State) (i : SlotNo) (x : Option FetchSlot) : (s.setSlot i x).stale = s.stale := rfl
@[simp] theorem State.soe_setSlot (s : State) (i : SlotNo) (x : Option FetchSlot) : (s.setSlot i x).soe = s.soe := rfl
@[simp] theorem State.adm_setSlot (s : State) (i : SlotNo) (x : Option FetchSlot) : (s.setSlot i x).adm = s.adm := rfl
@[simp] theorem State.forwardWait_setSlot (s : State) (i : SlotNo) (x : Option FetchSlot) : (s.setSlot i x).forwardWait = s.forwardWait := rfl
@[simp] theorem State.ctu_setSlot (s : State) (i : SlotNo) (x : Option FetchSlot) : (s.setSlot i x).ctu = s.ctu := rfl
@[simp] theorem State.mtr_setSlot (s : State) (i : SlotNo) (x : Option FetchSlot) : (s.setSlot i x).mtr = s.mtr := rfl
@[simp] theorem State.bst_setSlot (s : State) (i : SlotNo) (x : Option FetchSlot) : (s.setSlot i x).bst = s.bst := rfl
@[simp] theorem State.sfu_setSlot (s : State) (i : SlotNo) (x : Option FetchSlot) : (s.setSlot i x).sfu = s.sfu := rfl
@[simp] theorem State.line_setSlot (s : State) (i : SlotNo) (x : Option FetchSlot) (m : LineNo) :
    (s.setSlot i x).line m = s.line m := rfl
@[simp] theorem State.callOn_setSlot (s : State) (i : SlotNo) (x : Option FetchSlot) (m : LineNo) :
    (s.setSlot i x).callOn m = s.callOn m := rfl

@[simp] theorem State.pending_setQueue (s : State) (k : ClassNo) (q : List LineNo) : (s.setQueue k q).pending = s.pending := rfl
@[simp] theorem State.hli_setQueue (s : State) (k : ClassNo) (q : List LineNo) : (s.setQueue k q).hli = s.hli := rfl
@[simp] theorem State.fitted_setQueue (s : State) (k : ClassNo) (q : List LineNo) : (s.setQueue k q).fitted = s.fitted := rfl
@[simp] theorem State.lines_setQueue (s : State) (k : ClassNo) (q : List LineNo) : (s.setQueue k q).lines = s.lines := rfl
@[simp] theorem State.nextCall_setQueue (s : State) (k : ClassNo) (q : List LineNo) : (s.setQueue k q).nextCall = s.nextCall := rfl
@[simp] theorem State.stale_setQueue (s : State) (k : ClassNo) (q : List LineNo) : (s.setQueue k q).stale = s.stale := rfl
@[simp] theorem State.soe_setQueue (s : State) (k : ClassNo) (q : List LineNo) : (s.setQueue k q).soe = s.soe := rfl
@[simp] theorem State.acc_setQueue (s : State) (k : ClassNo) (q : List LineNo) : (s.setQueue k q).acc = s.acc := rfl
@[simp] theorem State.forwardWait_setQueue (s : State) (k : ClassNo) (q : List LineNo) : (s.setQueue k q).forwardWait = s.forwardWait := rfl
@[simp] theorem State.ctu_setQueue (s : State) (k : ClassNo) (q : List LineNo) : (s.setQueue k q).ctu = s.ctu := rfl
@[simp] theorem State.mtr_setQueue (s : State) (k : ClassNo) (q : List LineNo) : (s.setQueue k q).mtr = s.mtr := rfl
@[simp] theorem State.bst_setQueue (s : State) (k : ClassNo) (q : List LineNo) : (s.setQueue k q).bst = s.bst := rfl
@[simp] theorem State.sfu_setQueue (s : State) (k : ClassNo) (q : List LineNo) : (s.setQueue k q).sfu = s.sfu := rfl
@[simp] theorem State.line_setQueue (s : State) (k : ClassNo) (q : List LineNo) (m : LineNo) :
    (s.setQueue k q).line m = s.line m := rfl
@[simp] theorem State.callOn_setQueue (s : State) (k : ClassNo) (q : List LineNo) (m : LineNo) :
    (s.setQueue k q).callOn m = s.callOn m := rfl
@[simp] theorem State.frame_setQueue (s : State) (k : ClassNo) (q : List LineNo) (z : FrameNo) :
    (s.setQueue k q).frame z = s.frame z := rfl
@[simp] theorem State.entryAt_setQueue (s : State) (k : ClassNo) (q : List LineNo) (b : FrameNo × EntryNo) :
    (s.setQueue k q).entryAt b = s.entryAt b := rfl

@[simp] theorem State.pending_setService (s : State) (x : ServiceState) : (s.setService x).pending = s.pending := rfl
@[simp] theorem State.hli_setService (s : State) (x : ServiceState) : (s.setService x).hli = s.hli := rfl
@[simp] theorem State.fitted_setService (s : State) (x : ServiceState) : (s.setService x).fitted = s.fitted := rfl
@[simp] theorem State.lines_setService (s : State) (x : ServiceState) : (s.setService x).lines = s.lines := rfl
@[simp] theorem State.nextCall_setService (s : State) (x : ServiceState) : (s.setService x).nextCall = s.nextCall := rfl
@[simp] theorem State.stale_setService (s : State) (x : ServiceState) : (s.setService x).stale = s.stale := rfl
@[simp] theorem State.soe_setService (s : State) (x : ServiceState) : (s.setService x).soe = s.soe := rfl
@[simp] theorem State.acc_setService (s : State) (x : ServiceState) : (s.setService x).acc = s.acc := rfl
@[simp] theorem State.adm_setService (s : State) (x : ServiceState) : (s.setService x).adm = s.adm := rfl
@[simp] theorem State.forwardWait_setService (s : State) (x : ServiceState) : (s.setService x).forwardWait = s.forwardWait := rfl
@[simp] theorem State.ctu_setService (s : State) (x : ServiceState) : (s.setService x).ctu = s.ctu := rfl
@[simp] theorem State.mtr_setService (s : State) (x : ServiceState) : (s.setService x).mtr = s.mtr := rfl
@[simp] theorem State.bst_setService (s : State) (x : ServiceState) : (s.setService x).bst = s.bst := rfl
@[simp] theorem State.line_setService (s : State) (x : ServiceState) (m : LineNo) :
    (s.setService x).line m = s.line m := rfl
@[simp] theorem State.callOn_setService (s : State) (x : ServiceState) (m : LineNo) :
    (s.setService x).callOn m = s.callOn m := rfl
@[simp] theorem State.frame_setService (s : State) (x : ServiceState) (k : FrameNo) :
    (s.setService x).frame k = s.frame k := rfl
@[simp] theorem State.entryAt_setService (s : State) (x : ServiceState) (b : FrameNo × EntryNo) :
    (s.setService x).entryAt b = s.entryAt b := rfl

end Sys2Proof.Machine
end

