-- ==== Sys2Proof/Laws/Keeps.lean ====
section
/-! SUPPORT. What every operation below the commands may do, said once: `Keeps s t` holds between the states before and after each
shared operation. It says which settings, queues and pins an operation leaves alone, that the priority lane only grows at its
tail, and that the bounds and the call numbers are kept. `Local l s t` adds that no line but `l` changes. Both are reflexive
and transitive, so that an operation made of others keeps what they keep. -/

namespace Sys2Proof.Machine

/-! ### The relation -/

/-- What an operation below the commands leaves as it was, and what it keeps. -/
structure Keeps (s t : State) : Prop where
  pending : t.pending = s.pending
  fitted : t.fitted = s.fitted
  stale : t.stale = s.stale
  texts : t.soe.texts = s.soe.texts
  attemptLimit : t.soe.attemptLimit = s.soe.attemptLimit
  fieldTimeout : t.soe.fieldTimeout = s.soe.fieldTimeout
  drainLimit : t.soe.drainLimit = s.soe.drainLimit
  size : t.acc.size = s.acc.size
  wait : t.acc.wait = s.acc.wait
  classes : t.adm.classes = s.adm.classes
  capacity : t.adm.capacity = s.adm.capacity
  reserve : t.adm.reserve = s.adm.reserve
  openWait : t.adm.openWait = s.adm.openWait
  ctu : t.ctu = s.ctu
  mask : t.sfu.mask = s.sfu.mask
  surveyLines : t.sfu.surveyLines = s.sfu.surveyLines
  surveyPeriod : t.sfu.surveyPeriod = s.sfu.surveyPeriod
  surveyTimer : t.sfu.surveyTimer = s.sfu.surveyTimer
  inQueue : t.hli.inQueue = s.hli.inQueue
  framesTaken : t.hli.framesTaken = s.hli.framesTaken
  rx : t.hli.rx = s.hli.rx
  tx : t.hli.tx = s.hli.tx
  outHold : t.hli.outHold = s.hli.outHold
  prio : s.hli.prio <+: t.hli.prio
  settings : ∀ l, (t.line l).settings = (s.line l).settings
  link : LinkBounds s → LinkBounds t
  store : StoreBounds s → StoreBounds t
  buffers : BuffersBounded s → BuffersBounded t
  numbers : NumbersDistinct s → NumbersDistinct t

theorem Keeps.refl (s : State) : Keeps s s := by
  constructor <;> simp

theorem Keeps.trans {s t u : State} (a : Keeps s t) (b : Keeps t u) : Keeps s u where
  pending := b.pending.trans a.pending
  fitted := b.fitted.trans a.fitted
  stale := b.stale.trans a.stale
  texts := b.texts.trans a.texts
  attemptLimit := b.attemptLimit.trans a.attemptLimit
  fieldTimeout := b.fieldTimeout.trans a.fieldTimeout
  drainLimit := b.drainLimit.trans a.drainLimit
  size := b.size.trans a.size
  wait := b.wait.trans a.wait
  classes := b.classes.trans a.classes
  capacity := b.capacity.trans a.capacity
  reserve := b.reserve.trans a.reserve
  openWait := b.openWait.trans a.openWait
  ctu := b.ctu.trans a.ctu
  mask := b.mask.trans a.mask
  surveyLines := b.surveyLines.trans a.surveyLines
  surveyPeriod := b.surveyPeriod.trans a.surveyPeriod
  surveyTimer := b.surveyTimer.trans a.surveyTimer
  inQueue := b.inQueue.trans a.inQueue
  framesTaken := b.framesTaken.trans a.framesTaken
  rx := b.rx.trans a.rx
  tx := b.tx.trans a.tx
  outHold := b.outHold.trans a.outHold
  prio := a.prio.trans b.prio
  settings l := (b.settings l).trans (a.settings l)
  link h := b.link (a.link h)
  store h := b.store (a.store h)
  buffers h := b.buffers (a.buffers h)
  numbers h := b.numbers (a.numbers h)

/-- What an operation on line `l` may do. -/
structure Local (l : LineNo) (s t : State) : Prop where
  keeps : Keeps s t
  others : OtherLinesKept s t l

theorem Local.refl (l : LineNo) (s : State) : Local l s s := ⟨Keeps.refl s, fun _ _ => rfl⟩

theorem Local.trans {l : LineNo} {s t u : State} (a : Local l s t) (b : Local l t u) : Local l s u :=
  ⟨a.keeps.trans b.keeps, fun m h => (b.others m h).trans (a.others m h)⟩

/-- A choice of two states that both are allowed. -/
theorem Local.ite {l : LineNo} {s t u : State} {p : Prop} [Decidable p] (a : p → Local l s t) (b : ¬ p → Local l s u) :
    Local l s (if p then t else u) := by
  split
  · exact a ‹_›
  · exact b ‹_›

theorem Keeps.ite {s t u : State} {p : Prop} [Decidable p] (a : p → Keeps s t) (b : ¬ p → Keeps s u) :
    Keeps s (if p then t else u) := by
  split
  · exact a ‹_›
  · exact b ‹_›

/-- Operations in turn over a list keep what each keeps. -/
theorem Keeps.foldl {α : Type} (f : State → α → State) (h : ∀ s a, Keeps s (f s a)) (xs : List α) (s : State) :
    Keeps s (xs.foldl f s) := by
  induction xs generalizing s with
  | nil => exact Keeps.refl s
  | cons x xs ih => exact (h s x).trans (ih _)

/-! ### One field at a time -/

/-- How the call slot of a line may change: it empties, or its record stays the same call and keeps its bounds. -/
def CallStep (old new : Option Call) : Prop :=
  ∀ d, new = some d → ∃ c, old = some c ∧ d.number = c.number ∧ (CallBounds c → CallBounds d)

theorem CallStep.refl (c : Option Call) : CallStep c c := fun d h => ⟨d, h, rfl, id⟩

theorem CallStep.none (c : Option Call) : CallStep c none := fun _ h => nomatch h

theorem Local.setLine (s : State) (l : LineNo) (x : Line) (hs : x.settings = (s.line l).settings)
    (hc : CallStep (s.callOn l) x.call) : Local l s (s.setLine l x) := by
  have hb : ∀ m d, (s.setLine l x).callOn m = some d →
      ∃ c, s.callOn m = some c ∧ d.number = c.number ∧ (CallBounds c → CallBounds d) := by
    intro m d h
    by_cases e : m = l
    · subst e; exact hc d (by simpa using h)
    · exact ⟨d, by simpa [e] using h, rfl, id⟩
  refine ⟨?_, fun m h => by simp [h]⟩
  constructor <;> try simp
  · intro m
    by_cases e : m = l
    · subst e; simpa using hs
    · simp [e]
  · exact fun h => ⟨h.inbound, h.receiving, h.priority, h.ordered, h.waiting⟩
  · exact fun h => ⟨h.store, h.held, h.next⟩
  · intro h m d hd
    obtain ⟨c, h1, _, h3⟩ := hb m d hd
    exact h3 (h m c h1)
  · intro h
    refine ⟨h.next, ?_, ?_⟩
    · intro m d hd
      obtain ⟨c, h1, h2, _⟩ := hb m d hd
      exact h2 ▸ h.range m c h1
    · intro m n d e hd he hn
      obtain ⟨c, h1, h2, _⟩ := hb m d hd
      obtain ⟨c', h1', h2', _⟩ := hb n e he
      exact h.distinct m n c c' h1 h1' (by omega)

theorem Local.modLine (s : State) (l : LineNo) (f : Line → Line) (hs : (f (s.line l)).settings = (s.line l).settings)
    (hc : CallStep (s.callOn l) (f (s.line l)).call) : Local l s (s.modLine l f) := Local.setLine s l _ hs hc

/-- A call record changed, its number kept, within its bounds. -/
theorem Local.modCall (s : State) (l : LineNo) (f : Call → Call)
    (h : ∀ c, s.callOn l = some c → (f c).number = c.number ∧ (CallBounds c → CallBounds (f c))) :
    Local l s (s.modCall l f) := by
  refine Local.modLine s l _ rfl ?_
  intro d hd
  rw [State.callOn_eq] at h ⊢
  cases e : (s.line l).call with
  | none => simp [e] at hd
  | some c =>
    simp [e] at hd
    exact ⟨c, rfl, hd ▸ h c e⟩

theorem Local.modCounters (s : State) (l : LineNo) (f : LineCounters → LineCounters) : Local l s (s.modCounters l f) :=
  Local.modLine s l _ rfl (CallStep.refl _)

theorem Local.modCarriage (s : State) (l : LineNo) (f : CarriageCounters → CarriageCounters) :
    Local l s (s.modCarriage l f) := Local.modLine s l _ rfl (CallStep.refl _)

/-- The invariants rest on the lanes, the store, the lines and the next call number. -/
theorem Keeps.of_same {s t : State} (hp : t.pending = s.pending) (hf : t.fitted = s.fitted) (hst : t.stale = s.stale)
    (hh : t.hli = s.hli) (hl : t.lines = s.lines) (hn : t.nextCall = s.nextCall) (hctu : t.ctu = s.ctu)
    (hb : t.bst = s.bst)
    (h1 : t.soe.texts = s.soe.texts) (h2 : t.soe.attemptLimit = s.soe.attemptLimit)
    (h3 : t.soe.fieldTimeout = s.soe.fieldTimeout) (h4 : t.soe.drainLimit = s.soe.drainLimit)
    (h5 : t.acc.size = s.acc.size) (h6 : t.acc.wait = s.acc.wait) (h7 : t.adm.classes = s.adm.classes)
    (h8 : t.adm.capacity = s.adm.capacity) (h9 : t.adm.reserve = s.adm.reserve) (h10 : t.adm.openWait = s.adm.openWait)
    (h11 : t.sfu.mask = s.sfu.mask) (h12 : t.sfu.surveyLines = s.sfu.surveyLines)
    (h13 : t.sfu.surveyPeriod = s.sfu.surveyPeriod) (h14 : t.sfu.surveyTimer = s.sfu.surveyTimer) : Keeps s t := by
  have hline : ∀ l, t.line l = s.line l := fun l => by simp only [State.line, hl]
  have hcall : ∀ l, t.callOn l = s.callOn l := fun l => by simp only [State.callOn, hline]
  constructor <;> try simp [*]
  · exact fun h => ⟨by simpa [hh] using h.inbound, by simpa [hh] using h.receiving, by simpa [hh] using h.priority,
      by simpa [hh] using h.ordered, by simpa [hh] using h.waiting⟩
  · exact fun h => ⟨by simpa [hb] using h.store, by simpa [hb] using h.held, by simpa [hb] using h.next⟩
  · exact fun h l c hc => h l c (by simpa [hcall] using hc)
  · exact fun h => ⟨by simpa [hn] using h.next, fun l c hc => h.range l c (by simpa [hcall] using hc),
      fun l m c d hc hd => h.distinct l m c d (by simpa [hcall] using hc) (by simpa [hcall] using hd)⟩

theorem Local.of_same (l : LineNo) {s t : State} (h : Keeps s t) (hl : t.lines = s.lines) : Local l s t :=
  ⟨h, fun m _ => by simp only [State.line, hl]⟩

theorem Keeps.acc (s : State) (x : Acc) (h1 : x.size = s.acc.size) (h2 : x.wait = s.acc.wait) :
    Keeps s { s with acc := x } := by
  apply Keeps.of_same <;> simp [h1, h2]

theorem Keeps.adm (s : State) (x : Adm) (h1 : x.classes = s.adm.classes) (h2 : x.capacity = s.adm.capacity)
    (h3 : x.reserve = s.adm.reserve) (h4 : x.openWait = s.adm.openWait) : Keeps s { s with adm := x } := by
  apply Keeps.of_same <;> simp [h1, h2, h3, h4]

theorem Keeps.mtr (s : State) (x : Mtr) : Keeps s { s with mtr := x } := by
  apply Keeps.of_same <;> simp

theorem Keeps.forwardWait (s : State) (x : List LineNo) : Keeps s { s with forwardWait := x } := by
  apply Keeps.of_same <;> simp

theorem Keeps.textDrops (s : State) (n : Nat) : Keeps s { s with soe := { s.soe with textDrops := n } } := by
  apply Keeps.of_same <;> simp

theorem Keeps.sfu (s : State) (x : Sfu) (h1 : x.mask = s.sfu.mask) (h2 : x.surveyLines = s.sfu.surveyLines)
    (h3 : x.surveyPeriod = s.sfu.surveyPeriod) (h4 : x.surveyTimer = s.sfu.surveyTimer) :
    Keeps s { s with sfu := x } := by
  apply Keeps.of_same <;> simp [h1, h2, h3, h4]

theorem Keeps.bst (s : State) (x : Bst) (h : StoreBounds s → StoreBounds { s with bst := x }) :
    Keeps s { s with bst := x } := by
  constructor <;> try simp
  · exact fun h => ⟨h.inbound, h.receiving, h.priority, h.ordered, h.waiting⟩
  · exact h
  · exact fun h => h
  · exact fun h => ⟨h.next, h.range, h.distinct⟩

/-- The lanes and the link counters changed, within their bounds. -/
theorem Keeps.hli (s : State) (x : Hli) (h1 : x.inQueue = s.hli.inQueue) (h2 : x.framesTaken = s.hli.framesTaken)
    (h3 : x.rx = s.hli.rx) (h4 : x.tx = s.hli.tx) (h5 : x.outHold = s.hli.outHold) (h6 : s.hli.prio <+: x.prio)
    (h : LinkBounds s → x.prio.length ≤ 16 ∧ x.ord.length ≤ 64 ∧ (x.ordWait ≠ [] → x.ord.length = 64)) :
    Keeps s { s with hli := x } := by
  constructor <;> try simp [h1, h2, h3, h4, h5, h6]
  · exact fun b => ⟨by simpa [h1] using b.inbound, by simpa [h1, h3] using b.receiving, (h b).1, (h b).2.1, (h b).2.2⟩
  · exact fun b => ⟨b.store, b.held, b.next⟩
  · exact fun b => b
  · exact fun b => ⟨b.next, b.range, b.distinct⟩

end Sys2Proof.Machine
end

