-- ==== Sys2Proof/Laws/Ops.lean ====
section
/-! SUPPORT. What the operations of Ops, CacheOps and AdmissionOps may do: each `Keeps` (or is `Local` to its line), and the equations
that say what they do exactly. -/

namespace Sys2Proof.Machine

/-! ### Lanes and faults -/

theorem enqueuePriority_room {s : State} (f : OutFrame) (h : s.hli.prio.length < 16) (w : s.hli.prioWait = []) :
    enqueuePriority s f = { s with hli := { s.hli with prio := s.hli.prio ++ [fixBody s f] } } := by
  simp [enqueuePriority, Config.priorityDepth, h, w]

theorem enqueuePriority_wait {s : State} (f : OutFrame) (h : 16 ≤ s.hli.prio.length ∨ s.hli.prioWait ≠ []) :
    enqueuePriority s f = { s with hli := { s.hli with prioWait := s.hli.prioWait ++ [f] } } := by
  have : ¬ (s.hli.prio.length < Config.priorityDepth ∧ s.hli.prioWait = []) := by
    simp only [Config.priorityDepth]
    rintro ⟨a, b⟩
    rcases h with h | h
    · omega
    · exact h b
  simp [enqueuePriority, this]

@[simp] theorem enqueuePriority_lines (s : State) (f : OutFrame) : (enqueuePriority s f).lines = s.lines := by
  unfold enqueuePriority; split <;> rfl

@[simp] theorem enqueuePriority_line (s : State) (f : OutFrame) (l : LineNo) :
    (enqueuePriority s f).line l = s.line l := by simp only [State.line, enqueuePriority_lines]

theorem enqueuePriority_keeps (s : State) (f : OutFrame) : Keeps s (enqueuePriority s f) := by
  unfold enqueuePriority
  split
  · next h =>
    apply Keeps.hli <;> simp
    intro b
    simp only [Config.priorityDepth] at h
    exact ⟨by omega, b.ordered, b.waiting⟩
  · apply Keeps.hli <;> simp
    exact fun b => ⟨b.priority, b.ordered, b.waiting⟩

theorem enqueueOrdered_room {s : State} (f : OutFrame) (h : s.hli.ord.length < 47) :
    enqueueOrdered s f = { s with hli := { s.hli with ord := s.hli.ord ++ [f] } } := by
  have h1 : s.hli.ord.length < Config.orderedDepth := by simp only [Config.orderedDepth]; omega
  have h2 : ¬ s.hli.ord.length + 1 = Config.congestedAt := by simp only [Config.congestedAt]; omega
  simp [enqueueOrdered, h1, h2]

@[simp] theorem enqueueOrdered_lines (s : State) (f : OutFrame) : (enqueueOrdered s f).lines = s.lines := by
  unfold enqueueOrdered; split <;> rfl

@[simp] theorem enqueueOrdered_line (s : State) (f : OutFrame) (l : LineNo) :
    (enqueueOrdered s f).line l = s.line l := by simp only [State.line, enqueueOrdered_lines]

theorem enqueueOrdered_keeps (s : State) (f : OutFrame) : Keeps s (enqueueOrdered s f) := by
  unfold enqueueOrdered
  split
  · next h =>
    apply Keeps.hli <;> simp
    intro b
    simp only [Config.orderedDepth] at h
    refine ⟨b.priority, by omega, fun w => ?_⟩
    have := b.waiting w
    omega
  · next h =>
    apply Keeps.hli <;> simp
    intro b
    simp only [Config.orderedDepth] at h
    have := b.ordered
    exact ⟨b.priority, by omega, by omega⟩

@[simp] theorem raiseFault_lines (s : State) (k : FaultKind) (l : Option LineNo) (c : Option Nat) (d : Nat) (t : Bool) :
    (raiseFault s k l c d t).lines = s.lines := by
  simp only [raiseFault]
  split
  · rfl
  · split <;> simp

@[simp] theorem raiseFault_line (s : State) (k : FaultKind) (l : Option LineNo) (c : Option Nat) (d : Nat) (t : Bool)
    (m : LineNo) : (raiseFault s k l c d t).line m = s.line m := by simp only [State.line, raiseFault_lines]

theorem raiseFault_keeps (s : State) (k : FaultKind) (l : Option LineNo) (c : Option Nat) (d : Nat) (t : Bool) :
    Keeps s (raiseFault s k l c d t) := by
  simp only [raiseFault]
  split
  · exact Keeps.sfu s _ rfl rfl rfl rfl
  · split
    · exact Keeps.sfu s _ rfl rfl rfl rfl
    · refine Keeps.trans ?_ (enqueuePriority_keeps _ _)
      exact Keeps.sfu s _ rfl rfl rfl rfl

/-! ### Texts -/

theorem placeChars_room {s : State} {l : LineNo} {c : Call} (chars : List Byte) (h : (s.line l).call = some c)
    (r : c.txBuf.length + chars.length ≤ 256) :
    placeChars s l chars = s.setLine l { s.line l with call := some { c with txBuf := c.txBuf ++ chars } } := by
  simp [placeChars, State.callOn_eq, h, Config.transmitDepth, r, State.modCall_some _ h]

theorem placeChars_local (s : State) (l : LineNo) (chars : List Byte) : Local l s (placeChars s l chars) := by
  unfold placeChars
  split
  · exact Local.refl l s
  · next c hc =>
    split
    · next h =>
      refine Local.modCall s l _ fun d hd => ⟨rfl, fun b => ?_⟩
      obtain rfl : c = d := by simpa [hc] using hd
      simp only [Config.transmitDepth] at h
      exact ⟨b.name, b.password, by simpa using h, b.batch, b.notices, b.accumulator⟩
    · exact Local.of_same l (Keeps.textDrops s _) rfl

theorem placeText_room {s : State} {l : LineNo} {c : Call} (slot : Fin 24) (h : (s.line l).call = some c)
    (r : c.txBuf.length + (slotText s slot).length ≤ 256) :
    placeText s l slot = s.setLine l { s.line l with call := some { c with txBuf := c.txBuf ++ slotText s slot } } := by
  by_cases e : s.soe.texts[slot] = []
  · have h1 : slotText s slot = [] := by simp [slotText, placed, e]
    have h2 : ({ s.line l with call := some { c with txBuf := c.txBuf } } : Line) = s.line l := by
      simp only [← h]
    have h3 : textChars s slot none = [] := e
    simp [placeText, h3, h1, h2]
  · have h1 : slotText s slot = chCR :: chLF :: s.soe.texts[slot] := by
      simp only [slotText, placed, e, if_false]; rfl
    have h3 : textChars s slot none = s.soe.texts[slot] := rfl
    rw [h1] at r ⊢
    simp only [placeText, h3, e, if_false]
    exact placeChars_room _ h r

theorem placeText_local (s : State) (l : LineNo) (slot : Fin 24) (n : Option Nat) : Local l s (placeText s l slot n) := by
  unfold placeText
  split
  · exact Local.refl l s
  · exact placeChars_local s l _

theorem queueNotice_local (s : State) (l : LineNo) (slot : Fin 24) (n : Option Nat) :
    Local l s (queueNotice s l slot n) := by
  unfold queueNotice
  split
  · exact Local.refl l s
  · split
    · exact Local.refl l s
    · next c hc =>
      split
      · next h =>
        refine Local.modCall s l _ fun d hd => ⟨rfl, fun b => ?_⟩
        obtain rfl : c = d := by simpa [hc] using hd
        simp only [Config.noticeDepth] at h
        exact ⟨b.name, b.password, b.transmit, b.batch, by simp; omega, b.accumulator⟩
      · exact Local.of_same l (Keeps.textDrops s _) rfl

theorem sendText_local (s : State) (l : LineNo) (slot : Fin 24) (n : Option Nat) : Local l s (sendText s l slot n) := by
  unfold sendText
  split
  · exact Local.refl l s
  · split
    · exact queueNotice_local s l slot n
    · exact placeText_local s l slot n
    · exact placeText_local s l slot n
    · exact Local.refl l s

/-! ### The dialogue's entry and the creation of a call -/

theorem enterName_local (s : State) (l : LineNo) : Local l s (enterName s l) :=
  Local.modCall s l _ fun _ _ => ⟨rfl, fun b => ⟨by simp, by simp, b.transmit, b.batch, b.notices, b.accumulator⟩⟩

theorem startDialogue_local (s : State) (l : LineNo) : Local l s (startDialogue s l) :=
  ((enterName_local s l).trans (placeText_local _ l 0 none)).trans (placeText_local _ l 1 none)

theorem retryDialogue_local (s : State) (l : LineNo) : Local l s (retryDialogue s l) :=
  ((enterName_local s l).trans (placeText_local _ l 3 none)).trans (placeText_local _ l 1 none)

/-- The number that comes after a record or call number is one too. -/
theorem advanceNumber_range (n : Nat) : 1 ≤ advanceNumber n ∧ advanceNumber n ≤ 65535 := by
  unfold advanceNumber; split <;> omega

/-- `k` advances from `n`. -/
theorem advance_iterate (n k : Nat) (h : 1 ≤ n ∧ n ≤ 65535) (hk : k < 65535) :
    advanceNumber^[k] n = if n + k ≤ 65535 then n + k else n + k - 65535 := by
  induction k with
  | zero => simp [h.2]
  | succ k ih =>
    rw [Function.iterate_succ_apply', ih (by omega)]
    unfold advanceNumber
    split <;> split <;> split <;> omega

theorem freeNumber_eq (used : List Nat) (fuel n : Nat) :
    ∃ k ≤ fuel, freeNumber used fuel n = advanceNumber^[k] n ∧ (∀ j < k, advanceNumber^[j] n ∈ used) ∧
      (k < fuel → advanceNumber^[k] n ∉ used) := by
  induction fuel generalizing n with
  | zero => exact ⟨0, by simp, rfl, by simp, by simp⟩
  | succ fuel ih =>
    by_cases h : n ∈ used
    · obtain ⟨k, h1, h2, h3, h4⟩ := ih (advanceNumber n)
      refine ⟨k + 1, by omega, ?_, ?_, ?_⟩
      · simp [freeNumber, h, h2, Function.iterate_succ_apply]
      · intro j hj
        cases j with
        | zero => simpa using h
        | succ j => rw [Function.iterate_succ_apply]; exact h3 j (by omega)
      · intro hk
        rw [Function.iterate_succ_apply]
        exact h4 (by omega)
    · exact ⟨0, by simp, by simp [freeNumber, h], by simp, fun _ => by simpa using h⟩

/-- Among one more numbers than are used, one is free (R21). -/
theorem freeNumber_free (used : List Nat) (n : Nat) (h : 1 ≤ n ∧ n ≤ 65535) (hu : used.length ≤ 48) :
    freeNumber used 48 n ∉ used ∧ 1 ≤ freeNumber used 48 n ∧ freeNumber used 48 n ≤ 65535 := by
  obtain ⟨k, h1, h2, h3, h4⟩ := freeNumber_eq used 48 n
  have hr : 1 ≤ freeNumber used 48 n ∧ freeNumber used 48 n ≤ 65535 := by
    rw [h2, advance_iterate n k h (by omega)]
    split <;> omega
  refine ⟨?_, hr⟩
  by_cases e : k < 48
  · rw [h2]; exact h4 e
  · obtain rfl : k = 48 := by omega
    rw [h2]
    intro hm
    have hinj : Set.InjOn (fun j => advanceNumber^[j] n) (Finset.range 49 : Set Nat) := by
      intro a ha b hb hab
      simp only [Finset.coe_range, Set.mem_Iio] at ha hb
      simp only [advance_iterate n a h (by omega), advance_iterate n b h (by omega)] at hab
      split at hab <;> split at hab <;> omega
    have hsub : (Finset.range 49).image (fun j => advanceNumber^[j] n) ⊆ used.toFinset := by
      intro y hy
      simp only [Finset.mem_image, Finset.mem_range] at hy
      obtain ⟨j, hj, rfl⟩ := hy
      rw [List.mem_toFinset]
      by_cases e : j = 48
      · subst e; exact hm
      · exact h3 j (by omega)
    have h5 := Finset.card_le_card hsub
    rw [Finset.card_image_of_injOn hinj, Finset.card_range] at h5
    have h6 := used.toFinset_card_le
    omega

theorem mem_usedNumbers {s : State} {l : LineNo} {c : Call} (h : s.callOn l = some c) : c.number ∈ usedNumbers s := by
  simp only [usedNumbers, List.mem_filterMap, allLines, List.mem_finRange, true_and]
  exact ⟨l, by simp [h]⟩

theorem usedNumbers_length (s : State) : (usedNumbers s).length ≤ 48 := by
  simp only [usedNumbers]
  refine (List.length_filterMap_le _ _).trans ?_
  simp [allLines]

theorem createCall_line (s : State) (l : LineNo) (p : Phase) (v : Option Speed) (k : CallSettings) :
    (createCall s l p v k).line l = { s.line l with
      call := some (Call.fresh (nextCallNumber s) p v k)
      ctr := { (s.line l).ctr with callsCreated := bump (s.line l).ctr.callsCreated } } := by
  simp only [createCall, State.line_mk]
  exact State.line_modCounters_self _ _ _ |>.trans (by simp)

theorem createCall_local (s : State) (l : LineNo) (p : Phase) (v : Option Speed) (k : CallSettings) :
    Local l s (createCall s l p v k) := by
  have hline := createCall_line s l p v k
  have hother : ∀ m, m ≠ l → (createCall s l p v k).line m = s.line m := by
    intro m h
    simp only [createCall, State.line_mk]
    exact (State.line_modCounters_ne _ _ h).trans (by simp [h])
  have hcall : ∀ m d, (createCall s l p v k).callOn m = some d →
      (m = l ∧ d = Call.fresh (nextCallNumber s) p v k) ∨ (m ≠ l ∧ s.callOn m = some d) := by
    intro m d hd
    by_cases e : m = l
    · subst e
      rw [State.callOn_eq, hline] at hd
      exact .inl ⟨rfl, by simpa using hd.symm⟩
    · rw [State.callOn_eq, hother m e] at hd
      exact .inr ⟨e, hd⟩
  refine ⟨?_, hother⟩
  constructor <;> try rfl
  · intro m
    by_cases e : m = l
    · subst e; rw [hline]
    · rw [hother m e]
  · exact fun h => ⟨h.inbound, h.receiving, h.priority, h.ordered, h.waiting⟩
  · exact fun h => ⟨h.store, h.held, h.next⟩
  · intro h m d hd
    rcases hcall m d hd with ⟨rfl, rfl⟩ | ⟨_, h1⟩
    · constructor <;> simp [Call.fresh, Meter.fresh]
    · exact h m d h1
  · intro h
    have hf := freeNumber_free (usedNumbers s) s.nextCall h.next (usedNumbers_length s)
    refine ⟨advanceNumber_range _, ?_, ?_⟩
    · intro m d hd
      rcases hcall m d hd with ⟨rfl, rfl⟩ | ⟨_, h1⟩
      · exact hf.2
      · exact h.range m d h1
    · intro m n d e hd he hn
      rcases hcall m d hd with ⟨rfl, rfl⟩ | ⟨h1, h2⟩ <;> rcases hcall n e he with ⟨rfl, rfl⟩ | ⟨h3, h4⟩
      · rfl
      · have := mem_usedNumbers h4
        rw [← hn] at this
        exact absurd this hf.1
      · have := mem_usedNumbers h2
        rw [hn] at this
        exact absurd this hf.1
      · exact h.distinct m n d e h2 h4 hn

/-! ### The account cache -/

theorem modFrame_keeps (s : State) (g : FrameNo) (f : Frame → Frame) : Keeps s (s.modFrame g f) :=
  Keeps.acc s _ rfl rfl

theorem modEntry_keeps (s : State) (a : FrameNo × EntryNo) (f : Entry → Entry) : Keeps s (s.modEntry a f) :=
  modFrame_keeps s _ _

theorem touchFrame_keeps (s : State) (f : FrameNo) : Keeps s (touchFrame s f) := Keeps.acc s _ rfl rfl

theorem emptyFrame_keeps (s : State) (f : FrameNo) : Keeps s (emptyFrame s f) := modFrame_keeps s f _

theorem attachPins_keeps (s : State) (a : FrameNo × EntryNo) : Keeps s (attachPins s a) :=
  (modEntry_keeps s a _).trans (modFrame_keeps _ _ _)

theorem recordPins_keeps (s : State) (a : FrameNo × EntryNo) : Keeps s (recordPins s a) := modEntry_keeps s a _

theorem sweepEntry_keeps (s : State) (a : FrameNo × EntryNo) : Keeps s (sweepEntry s a) := by
  unfold sweepEntry
  split
  · split
    · exact modFrame_keeps s _ _
    · exact Keeps.refl s
  · exact Keeps.refl s

@[simp] theorem sweepEntry_lines (s : State) (a : FrameNo × EntryNo) : (sweepEntry s a).lines = s.lines := by
  unfold sweepEntry; split
  · split <;> rfl
  · rfl

theorem releasePins_keeps (s : State) (a : FrameNo × EntryNo) : Keeps s (releasePins s a) := by
  have h : Keeps s (sweepEntry ((s.modEntry a fun e => { e with stored := e.stored - 1 }).modFrame a.1
      fun x => { x with pins := x.pins - 1 }) a) :=
    ((modEntry_keeps s a _).trans (modFrame_keeps _ _ _)).trans (sweepEntry_keeps _ _)
  simp only [releasePins]
  split
  · exact h.trans (emptyFrame_keeps _ _)
  · exact h

@[simp] theorem releasePins_lines (s : State) (a : FrameNo × EntryNo) : (releasePins s a).lines = s.lines := by
  simp only [releasePins]
  split
  · simp [emptyFrame]
  · simp

theorem withdrawLookup_keeps (s : State) (l : LineNo) : Keeps s (withdrawLookup s l) := Keeps.acc s _ rfl rfl

/-! ### Admission -/

theorem setQueue_keeps (s : State) (k : ClassNo) (q : List LineNo) : Keeps s (s.setQueue k q) :=
  Keeps.adm s _ rfl rfl rfl rfl

/-- A change of a call that touches neither its number nor what is bounded. -/
theorem Local.modCall_plain (s : State) (l : LineNo) (f : Call → Call)
    (h : ∀ c, (f c).number = c.number ∧ (f c).nameBuf = c.nameBuf ∧ (f c).pwBuf = c.pwBuf ∧ (f c).txBuf = c.txBuf ∧
      (f c).batch = c.batch ∧ (f c).notices = c.notices ∧ (f c).meter.acc = c.meter.acc) :
    Local l s (s.modCall l f) :=
  Local.modCall s l f fun c _ => ⟨(h c).1, fun b => by
    obtain ⟨_, h2, h3, h4, h5, h6, h7⟩ := h c
    exact ⟨h2 ▸ b.name, h3 ▸ b.password, h4 ▸ b.transmit, h5 ▸ b.batch, h6 ▸ b.notices, h7 ▸ b.accumulator⟩⟩

/-- A plain change of the call after an operation on its line. -/
theorem Local.plain {s u : State} {l : LineNo} (h : Local l s u) (f : Call → Call)
    (hf : ∀ c, (f c).number = c.number ∧ (f c).nameBuf = c.nameBuf ∧ (f c).pwBuf = c.pwBuf ∧ (f c).txBuf = c.txBuf ∧
      (f c).batch = c.batch ∧ (f c).notices = c.notices ∧ (f c).meter.acc = c.meter.acc) : Local l s (u.modCall l f) :=
  h.trans (Local.modCall_plain u l f hf)

/-- A change away from the lines after an operation on a line. -/
theorem Local.rest {s u v : State} {l : LineNo} (h : Local l s u) (k : Keeps u v) (hl : v.lines = u.lines) : Local l s v :=
  h.trans (Local.of_same l k hl)

theorem leaveQueue_local (s : State) (l : LineNo) : Local l s (leaveQueue s l) := by
  unfold leaveQueue
  refine Local.plain ?_ _ fun _ => ⟨rfl, rfl, rfl, rfl, rfl, rfl, rfl⟩
  exact (Local.refl l s).rest (Keeps.adm s _ rfl rfl rfl rfl) rfl

theorem startQueueing_local (s : State) (l : LineNo) (k : ClassNo) : Local l s (startQueueing s l k) := by
  have h : Local l s (s.modCall l fun c => { c with
      phase := .queued, queueWait := startTimer s.adm.classes[k].queueWait, announce := startTimer s.adm.classes[k].announce }) :=
    Local.modCall_plain s l _ (by simp)
  simp only [startQueueing]
  split
  · exact h
  · exact h.trans (placeText_local _ l 9 _)

theorem joinTail_local (s : State) (l : LineNo) (k : ClassNo) : Local l s (joinTail s l k) :=
  (Local.of_same l (setQueue_keeps s k _) rfl).trans (startQueueing_local _ l k)

theorem joinHead_local (s : State) (l : LineNo) (k : ClassNo) : Local l s (joinHead s l k) :=
  (Local.of_same l (setQueue_keeps s k _) rfl).trans (startQueueing_local _ l k)

theorem grant_local (s : State) (l : LineNo) : Local l s (grant s l) := by
  have h : Local l s (({ leaveQueue s l with adm := { (leaveQueue s l).adm with
      inUse := (leaveQueue s l).adm.inUse + 1, grants := bump (leaveQueue s l).adm.grants } } : State).modCall l fun c =>
        { c with slotHeld := true, openOutstanding := true, phase := .opening
                 openWait := startTimer (leaveQueue s l).adm.openWait }) := by
    refine Local.plain ?_ _ fun _ => ⟨rfl, rfl, rfl, rfl, rfl, rfl, rfl⟩
    exact (leaveQueue_local s l).rest (Keeps.adm _ _ rfl rfl rfl rfl) rfl
  simp only [grant]
  split
  · exact h.trans (Local.of_same l (enqueueOrdered_keeps _ _) (enqueueOrdered_lines _ _))
  · exact h

theorem setPointers_keeps (s : State) (k : ClassNo) : Keeps s (setPointers s k) := by
  unfold setPointers
  split <;> exact Keeps.adm s _ rfl rfl rfl rfl

@[simp] theorem setPointers_lines (s : State) (k : ClassNo) : (setPointers s k).lines = s.lines := by
  unfold setPointers; split <;> rfl

/-- One selection grants the head call of the class chosen and sets the pointers, and touches no other line (R107). -/
theorem selectOne_some {s t : State} (h : selectOne s = some t) :
    ∃ k l rest, selectClass s = some k ∧ s.adm.queues[k] = l :: rest ∧ t = setPointers (grant s l) k ∧ Local l s t := by
  unfold selectOne at h
  split at h
  · simp at h
  · next k hk =>
    split at h
    · simp at h
    · next l rest hq =>
      simp only [Option.some.injEq] at h
      refine ⟨k, l, rest, hk, hq, h.symm, ?_⟩
      rw [← h]
      exact (grant_local s l).trans (Local.of_same l (setPointers_keeps _ _) (setPointers_lines _ _))

theorem arbiterLoop_keeps (fuel : Nat) (s : State) : Keeps s (arbiterLoop fuel s).1 := by
  induction fuel generalizing s with
  | zero => exact Keeps.refl s
  | succ fuel ih =>
    simp only [arbiterLoop]
    split
    · exact Keeps.refl s
    · next t ht =>
      obtain ⟨_, l, _, _, _, _, h⟩ := selectOne_some ht
      exact h.keeps.trans (ih t)

theorem runArbiter_keeps (s : State) : Keeps s (runArbiter s).1 := arbiterLoop_keeps _ s

theorem clearSlot_local (s : State) (l : LineNo) : Local l s (clearSlot s l) := by
  unfold clearSlot
  split
  · split
    · refine Local.plain ?_ _ fun _ => ⟨rfl, rfl, rfl, rfl, rfl, rfl, rfl⟩
      exact (Local.refl l s).rest (Keeps.adm s _ rfl rfl rfl rfl) rfl
    · exact Local.refl l s
  · exact Local.refl l s

theorem releaseSlot_keeps (s : State) (l : LineNo) : Keeps s (releaseSlot s l) :=
  (clearSlot_local s l).keeps.trans (runArbiter_keeps _)

end Sys2Proof.Machine
end

