-- ==== Sys2Proof/Laws/Endings.lean ====
section
/-! SUPPORT. What the operations of EndingOps, CarriageOps and MeterOps may do: the end of a call, its carriage and its charges. -/

namespace Sys2Proof.Machine

/-! ### The line and the removal of a record -/

theorem dropBare_local (s : State) (l : LineNo) : Local l s (dropBare s l) := by
  unfold dropBare
  refine Local.trans ?_ (Local.modCounters _ l _)
  exact Local.modLine s l _ rfl (CallStep.refl _)

theorem goOff_local (s : State) (l : LineNo) : Local l s (goOff s l) := Local.modLine s l _ rfl (CallStep.refl _)

theorem leaveDrop_local (s : State) (l : LineNo) : Local l s (leaveDrop s l) := by
  unfold leaveDrop
  split
  · exact goOff_local s l
  · exact Local.modLine s l _ rfl (CallStep.refl _)

@[simp] theorem haltIfDone_lines (s : State) : (haltIfDone s).lines = s.lines := by
  unfold haltIfDone
  split
  · split
    · rfl
    · simp
  · rfl

@[simp] theorem haltIfDone_line (s : State) (l : LineNo) : (haltIfDone s).line l = s.line l := by
  simp only [State.line, haltIfDone_lines]

theorem haltIfDone_keeps (s : State) : Keeps s (haltIfDone s) := by
  unfold haltIfDone
  split
  · split
    · exact Keeps.refl s
    · refine Keeps.trans ?_ (enqueuePriority_keeps _ _)
      exact Keeps.sfu s _ rfl rfl rfl rfl
  · exact Keeps.refl s

theorem resign_local (s : State) (l : LineNo) (c : Call) : Local l s (resign s l c) :=
  (createCall_local s l _ _ _).trans (startDialogue_local _ l)

theorem removeCall_local (s : State) (l : LineNo) : Local l s (removeCall s l) := by
  unfold removeCall
  split
  · exact Local.refl l s
  · next c _ =>
    have h : Local l s (haltIfDone { (s.modLine l fun x => { x with call := none }) with
        forwardWait := (s.modLine l fun x => { x with call := none }).forwardWait.filter fun m => decide (m ≠ l) }) := by
      refine Local.rest ?_ (haltIfDone_keeps _) (haltIfDone_lines _)
      refine Local.rest ?_ (Keeps.forwardWait _ _) rfl
      exact Local.modLine s l _ rfl (CallStep.none _)
    dsimp only
    split
    · split
      · exact h.trans (leaveDrop_local _ l)
      · exact h
    · split
      · exact h.trans (resign_local _ l c)
      · exact h.trans (dropBare_local _ l)
    · exact h

/-! ### The billing record -/

theorem storeBounds_place {s : State} (r : BillRecord) (n m : BitVec 32) (p : Nat)
    (h : s.bst.store.length < 32) (b : StoreBounds s) : StoreBounds { s with bst := { s.bst with
      store := s.bst.store ++ [r], nextRecord := advanceNumber s.bst.nextRecord
      auditCount := n, auditCharge := m, placed := p } } := by
  refine ⟨by simp; omega, fun w => ?_, advanceNumber_range _⟩
  have := b.held w
  omega

theorem placeRecord_local (s : State) (l : LineNo) (h : s.bst.store.length < 32) : Local l s (placeRecord s l) := by
  unfold placeRecord
  split
  · exact Local.refl l s
  · next c _ =>
    split
    · exact Local.refl l s
    · next a _ =>
      refine Local.trans ?_ (removeCall_local _ l)
      refine Local.rest ?_ (recordPins_keeps _ a) rfl
      have k1 : Local l s ({ s with bst := { s.bst with
          store := s.bst.store ++ [makeRecord s l c a], nextRecord := advanceNumber s.bst.nextRecord
          auditCount := s.bst.auditCount + 1
          auditCharge := s.bst.auditCharge + BitVec.ofNat 32 (makeRecord s l c a).charge
          placed := bump s.bst.placed } } : State) :=
        Local.of_same l (Keeps.bst s _ (storeBounds_place _ _ _ _ h)) rfl
      have k2 := k1.rest (enqueueOrdered_keeps _ { tag := l.val, call := c.number, msg := .billRecord (makeRecord s l c a) })
        (enqueueOrdered_lines _ _)
      dsimp only
      split
      · exact k2.rest (raiseFault_keeps _ _ _ _ _ _) (raiseFault_lines _ _ _ _ _ _)
      · exact k2

theorem holdCall_local (s : State) (l : LineNo) (h : 32 ≤ s.bst.store.length) : Local l s (holdCall s l) := by
  have k : Local l s ({ (s.modCall l fun c => { c with phase := .held }) with
      bst := { (s.modCall l fun c => { c with phase := .held }).bst with
        held := (s.modCall l fun c => { c with phase := .held }).bst.held ++ [l]
        heldCount := bump (s.modCall l fun c => { c with phase := .held }).bst.heldCount } } : State) := by
    refine Local.trans ?_ (Local.of_same l (Keeps.bst _ _ ?_) rfl)
    · exact Local.modCall_plain s l _ fun _ => ⟨rfl, rfl, rfl, rfl, rfl, rfl, rfl⟩
    intro b
    have := b.store
    exact ⟨b.store, fun _ => by simp at this ⊢; omega, b.next⟩
  simp only [holdCall]
  split
  · exact k.trans (dropBare_local _ l)
  · exact k

theorem closeOut_local (s : State) (l : LineNo) : Local l s (closeOut s l) := by
  unfold closeOut
  split
  · next h => exact placeRecord_local s l (by simpa [Config.storeDepth] using h)
  · next h => exact holdCall_local s l (by simpa [Config.storeDepth] using h)

/-! ### The strands -/

theorem settle_local (s : State) (l : LineNo) : Local l s (settle s l) := by
  unfold settle
  split
  · exact Local.refl l s
  · split
    · split
      · exact removeCall_local s l
      · split
        · split
          · refine Local.rest ?_ (enqueueOrdered_keeps _ _) (enqueueOrdered_lines _ _)
            exact Local.modCall_plain s l _ fun _ => ⟨rfl, rfl, rfl, rfl, rfl, rfl, rfl⟩
          · exact Local.refl l s
        · split
          · exact closeOut_local s l
          · exact Local.refl l s
    · exact Local.refl l s

/-- A call's transmit buffer emptied, nothing else that is bounded changed. -/
theorem Local.modCall_drained (s : State) (l : LineNo) (f : Call → Call)
    (h : ∀ c, (f c).number = c.number ∧ (f c).nameBuf = c.nameBuf ∧ (f c).pwBuf = c.pwBuf ∧ (f c).txBuf = [] ∧
      (f c).batch = c.batch ∧ (f c).notices = c.notices ∧ (f c).meter.acc = c.meter.acc) :
    Local l s (s.modCall l f) :=
  Local.modCall s l f fun c _ => ⟨(h c).1, fun b => by
    obtain ⟨_, h2, h3, h4, h5, h6, h7⟩ := h c
    exact ⟨h2 ▸ b.name, h3 ▸ b.password, by simp [h4], h5 ▸ b.batch, h6 ▸ b.notices, h7 ▸ b.accumulator⟩⟩

theorem discardOutput_local (s : State) (l : LineNo) (r : Bool) : Local l s (discardOutput s l r) :=
  Local.modCall_drained s l _ fun _ => ⟨rfl, rfl, rfl, rfl, rfl, rfl, rfl⟩

theorem dropLine_local (s : State) (l : LineNo) : Local l s (dropLine s l) := by
  simp only [dropLine]
  split
  · split
    · refine Local.trans ?_ (settle_local _ l)
      refine Local.plain ?_ _ fun _ => ⟨rfl, rfl, rfl, rfl, rfl, rfl, rfl⟩
      exact (dropBare_local s l).trans (discardOutput_local _ l _)
    · exact dropBare_local s l
  · exact dropBare_local s l

theorem drainOver_local (s : State) (l : LineNo) : Local l s (drainOver s l) := by
  unfold drainOver
  split
  · exact Local.refl l s
  · split
    · refine Local.trans ?_ (settle_local _ l)
      exact Local.modCall_plain s l _ fun _ => ⟨rfl, rfl, rfl, rfl, rfl, rfl, rfl⟩
    · exact dropLine_local s l

theorem placeGoodbye_local (s : State) (l : LineNo) : Local l s (placeGoodbye s l) := by
  unfold placeGoodbye
  split
  · exact Local.refl l s
  · split
    · refine Local.trans ?_ (placeText_local _ l 14 none)
      exact Local.modCall_plain s l _ fun _ => ⟨rfl, rfl, rfl, rfl, rfl, rfl, rfl⟩
    · exact Local.refl l s

theorem drainCheck_local (s : State) (l : LineNo) : Local l s (drainCheck s l) := by
  unfold drainCheck
  split
  · exact Local.refl l s
  · split
    · dsimp only
      split
      · exact placeGoodbye_local s l
      · split
        · exact (placeGoodbye_local s l).trans (drainOver_local _ l)
        · exact placeGoodbye_local s l
    · exact Local.refl l s

/-! ### Carriage -/

theorem sendBatch_local (s : State) (l : LineNo) : Local l s (sendBatch s l) := by
  unfold sendBatch
  split
  · exact Local.refl l s
  · split
    · exact Local.refl l s
    · refine Local.trans ?_ (settle_local _ l)
      refine Local.trans ?_ (Local.modCarriage _ l _)
      refine Local.trans ?_ (Local.modCall _ l _ fun _ _ => ⟨rfl, fun b =>
        ⟨b.name, b.password, b.transmit, by simp, b.notices, b.accumulator⟩⟩)
      exact Local.of_same l (enqueueOrdered_keeps _ _) (enqueueOrdered_lines _ _)

theorem forwardBatch_local (s : State) (l : LineNo) : Local l s (forwardBatch s l) := by
  unfold forwardBatch
  split
  · exact sendBatch_local s l
  · split
    · exact Local.refl l s
    · exact Local.of_same l (Keeps.forwardWait _ _) rfl

theorem batchDue_local (s : State) (l : LineNo) : Local l s (batchDue s l) := by
  unfold batchDue
  split
  · exact Local.refl l s
  · split
    · exact Local.refl l s
    · refine Local.trans ?_ (forwardBatch_local _ l)
      exact Local.modCall_plain s l _ fun _ => ⟨rfl, rfl, rfl, rfl, rfl, rfl, rfl⟩

theorem serveForward_keeps (s : State) : Keeps s (serveForward s) := by
  unfold serveForward
  split
  · exact Keeps.refl s
  · exact (Keeps.forwardWait s _).trans (sendBatch_local _ _).keeps

theorem grantTest_local (s : State) (l : LineNo) : Local l s (grantTest s l) := by
  unfold grantTest
  split
  · exact Local.refl l s
  · dsimp only
    split
    · refine Local.plain ?_ _ fun _ => ⟨rfl, rfl, rfl, rfl, rfl, rfl, rfl⟩
      exact Local.of_same l (enqueuePriority_keeps _ _) (enqueuePriority_lines _ _)
    · exact Local.refl l s

theorem stopCarriage_local (s : State) (l : LineNo) : Local l s (stopCarriage s l) :=
  Local.modCall s l _ fun _ _ => ⟨rfl, fun b => ⟨b.name, b.password, b.transmit, b.batch, by simp, b.accumulator⟩⟩

theorem closingFlush_local (s : State) (l : LineNo) : Local l s (closingFlush s l) := by
  unfold closingFlush
  split
  · exact Local.refl l s
  · split
    · exact Local.refl l s
    · exact batchDue_local s l

/-! ### The meter, given what ending another call keeps -/

/-- A plain change of a call after an operation. -/
theorem Keeps.plain {s u : State} (h : Keeps s u) (l : LineNo) (f : Call → Call)
    (hf : ∀ c, (f c).number = c.number ∧ (f c).nameBuf = c.nameBuf ∧ (f c).pwBuf = c.pwBuf ∧ (f c).txBuf = c.txBuf ∧
      (f c).batch = c.batch ∧ (f c).notices = c.notices ∧ (f c).meter.acc = c.meter.acc) : Keeps s (u.modCall l f) :=
  h.trans (Local.modCall_plain u l f hf).keeps

/-- Ending a call keeps what every operation keeps. -/
def EndKeeps (endIt : Ender) : Prop := ∀ s l cause, Keeps s (endIt s l cause)

theorem startStep_local (s : State) (l : LineNo) : Local l s (startStep s l) :=
  Local.modCall_plain s l _ fun _ => ⟨rfl, rfl, rfl, rfl, rfl, rfl, rfl⟩

theorem addCause_keeps {e : Ender} (he : EndKeeps e) (s : State) (l : LineNo) (k : PendingKind) (g : Interval) :
    Keeps s (addCause e s l k g) := by
  unfold addCause
  split
  · exact Keeps.refl s
  · split
    · exact Keeps.refl s
    · split
      · exact he s l _
      · split
        · exact (sendText_local s l _ _).keeps
        · refine Keeps.trans ?_ (sendText_local _ l _ _).keeps
          exact Keeps.plain (Keeps.refl s) l _ fun _ => ⟨rfl, rfl, rfl, rfl, rfl, rfl, rfl⟩

theorem removeCause_local (s : State) (l : LineNo) (k : PendingKind) : Local l s (removeCause s l k) :=
  Local.modCall_plain s l _ fun _ => ⟨rfl, rfl, rfl, rfl, rfl, rfl, rfl⟩

theorem warnCall_local (s : State) (l : LineNo) : Local l s (warnCall s l) := by
  unfold warnCall
  split
  · exact Local.refl l s
  · split
    · exact Local.refl l s
    · refine Local.trans ?_ (sendText_local _ l _ _)
      exact Local.modCall_plain s l _ fun _ => ⟨rfl, rfl, rfl, rfl, rfl, rfl, rfl⟩

theorem warningTest_keeps (s : State) (a : FrameNo × EntryNo) (e : Entry) (r : Int) : Keeps s (warningTest s a e r) := by
  simp only [warningTest]
  split
  · exact modEntry_keeps s a _
  · split
    · exact Keeps.refl s
    · refine Keeps.trans ?_ (Keeps.foldl _ (fun s l => ?_) _ _)
      · exact (modEntry_keeps s a _).trans (Keeps.mtr _ _)
      · exact Keeps.ite (fun _ => (warnCall_local s l).keeps) fun _ => Keeps.refl s

theorem exhaustionTest_keeps {e : Ender} (he : EndKeeps e) (s : State) (a : FrameNo × EntryNo) (x : Entry) (r : Int) :
    Keeps s (exhaustionTest e s a x r) := by
  simp only [exhaustionTest]
  split
  · exact Keeps.refl s
  · refine Keeps.trans ?_ (Keeps.foldl _ (fun s l => ?_) _ _)
    · exact (modEntry_keeps s a _).trans (Keeps.mtr _ _)
    · exact Keeps.ite (fun _ => addCause_keeps he s l _ _) fun _ => Keeps.refl s

theorem restorationTest_keeps (s : State) (a : FrameNo × EntryNo) (x : Entry) (r : Int) :
    Keeps s (restorationTest s a x r) := by
  simp only [restorationTest]
  split
  · exact Keeps.refl s
  · refine Keeps.trans ?_ (Keeps.foldl _ (fun s l => ?_) _ _)
    · exact (modEntry_keeps s a _).trans (Keeps.mtr _ _)
    · exact Keeps.ite (fun _ => ((removeCause_local s l _).trans (sendText_local _ l _ _)).keeps) fun _ => Keeps.refl s

theorem evaluateAllowance_keeps {e : Ender} (he : EndKeeps e) (s : State) (a : FrameNo × EntryNo) :
    Keeps s (evaluateAllowance e s a) := by
  unfold evaluateAllowance
  split
  · exact Keeps.refl s
  · split
    · exact Keeps.refl s
    · exact ((warningTest_keeps s a _ _).trans (exhaustionTest_keeps he _ a _ _)).trans (restorationTest_keeps _ a _ _)

/-- An entry with no limit is not evaluated (R159). -/
theorem evaluateAllowance_unlimited {e : Ender} {s : State} {a : FrameNo × EntryNo} {x : Entry}
    (h : s.entryAt a = some x) (n : x.allowance = none) : evaluateAllowance e s a = s := by
  simp [evaluateAllowance, h, n]

theorem addUnits_local (s : State) (l : LineNo) (n : Nat) : Local l s (addUnits s l n) := by
  have k : Local l s (s.modCall l fun c => { c with meter := { c.meter with charge := c.meter.charge + n } }) :=
    Local.modCall_plain s l _ fun _ => ⟨rfl, rfl, rfl, rfl, rfl, rfl, rfl⟩
  unfold addUnits
  split
  · exact Local.refl l s
  · dsimp only
    split
    · exact k
    · exact k.rest (modEntry_keeps _ _ _) rfl

theorem evaluateCall_keeps {e : Ender} (he : EndKeeps e) (s : State) (l : LineNo) : Keeps s (evaluateCall e s l) := by
  unfold evaluateCall
  split
  · exact Keeps.refl s
  · exact evaluateAllowance_keeps he s _

theorem chargeUnitSeconds_keeps {e : Ender} (he : EndKeeps e) (s : State) (l : LineNo) (n : Nat) :
    Keeps s (chargeUnitSeconds e s l n) := by
  unfold chargeUnitSeconds
  split
  · exact Keeps.refl s
  · refine Keeps.trans ?_ (evaluateCall_keeps he _ l)
    refine Keeps.trans ?_ (addUnits_local _ l _).keeps
    refine Local.keeps (l := l) ?_
    exact Local.modCall s l _ fun _ _ => ⟨rfl, fun b =>
      ⟨b.name, b.password, b.transmit, b.batch, b.notices, Nat.mod_lt _ (by decide)⟩⟩

theorem completeStep_keeps {e : Ender} (he : EndKeeps e) (s : State) (l : LineNo) : Keeps s (completeStep e s l) := by
  unfold completeStep
  split
  · exact Keeps.refl s
  · next c _ =>
    split
    · exact Keeps.refl s
    · have k : Keeps s (chargeUnitSeconds e (s.modCall l fun c => { c with meter := { c.meter with stepPos := 0 } }) l
          (c.meter.stepRate * c.meter.stepLen)) := by
        refine Keeps.trans ?_ (chargeUnitSeconds_keeps he _ l _)
        exact Keeps.plain (Keeps.refl s) l _ fun _ => ⟨rfl, rfl, rfl, rfl, rfl, rfl, rfl⟩
      exact Keeps.ite (fun _ => k.trans (startStep_local _ l).keeps) fun _ => k

/-- With no step complete there is nothing to charge. -/
theorem completeStep_not_due {e : Ender} {s : State} {l : LineNo} (h : stepDue s l = false) : completeStep e s l = s := by
  unfold completeStep
  split
  · rfl
  · rw [if_pos h]

theorem finalStep_keeps {e : Ender} (he : EndKeeps e) (s : State) (l : LineNo) : Keeps s (finalStep e s l) := by
  unfold finalStep
  split
  · exact Keeps.refl s
  · exact Keeps.ite (fun _ => Keeps.refl s) fun _ => chargeUnitSeconds_keeps he s l _

theorem endRounding_keeps {e : Ender} (he : EndKeeps e) (s : State) (l : LineNo) : Keeps s (endRounding e s l) := by
  unfold endRounding
  split
  · exact Keeps.refl s
  · refine Keeps.trans ?_ (evaluateCall_keeps he _ l)
    refine Keeps.trans ?_ (addUnits_local _ l _).keeps
    refine Local.keeps (l := l) ?_
    exact Local.modCall s l _ fun _ _ => ⟨rfl, fun b =>
      ⟨b.name, b.password, b.transmit, b.batch, b.notices, by simp⟩⟩

theorem closeMeter_keeps {e : Ender} (he : EndKeeps e) (s : State) (l : LineNo) : Keeps s (closeMeter e s l) := by
  unfold closeMeter
  split
  · exact Keeps.refl s
  · exact Keeps.ite (fun _ => (finalStep_keeps he s l).trans (endRounding_keeps he _ l)) fun _ => Keeps.refl s

/-! ### The ending event -/

theorem closingTexts_local (s : State) (l : LineNo) (cause : EndCause) : Local l s (closingTexts s l cause) := by
  unfold closingTexts
  split
  · exact (placeText_local s l _ none).trans (placeText_local _ l 14 none)
  · exact placeText_local s l 14 none

theorem startDrain_local (s : State) (l : LineNo) : Local l s (startDrain s l) :=
  Local.modCall_plain s l _ fun _ => ⟨rfl, rfl, rfl, rfl, rfl, rfl, rfl⟩

theorem lineStrand_local (s : State) (l : LineNo) (was : Phase) (cause : EndCause) (lost : Bool) :
    Local l s (lineStrand s l was cause lost) := by
  simp only [lineStrand]
  split
  · split
    · exact (discardOutput_local s l _).trans (dropLine_local _ l)
    · split
      · refine Local.trans ?_ (drainOver_local _ l)
        exact Local.modCall_drained s l _ fun _ => ⟨rfl, rfl, rfl, rfl, rfl, rfl, rfl⟩
      · split
        · refine Local.trans ?_ (drainCheck_local _ l)
          exact Local.plain (startDrain_local s l) _ fun _ => ⟨rfl, rfl, rfl, rfl, rfl, rfl, rfl⟩
        · split
          · refine Local.trans ?_ (drainCheck_local _ l)
            refine Local.trans ?_ (startDrain_local _ l)
            refine Local.trans ?_ (closingTexts_local _ l cause)
            exact Local.modCall_drained s l _ fun _ => ⟨rfl, rfl, rfl, rfl, rfl, rfl, rfl⟩
          · exact ((closingTexts_local s l cause).trans (startDrain_local _ l)).trans (drainCheck_local _ l)
  · refine Local.trans ?_ (settle_local _ l)
    exact Local.plain (discardOutput_local s l _) _ fun _ => ⟨rfl, rfl, rfl, rfl, rfl, rfl, rfl⟩
  · exact (discardOutput_local s l _).trans (dropLine_local _ l)

theorem markEnded_local (s : State) (l : LineNo) (cause : EndCause) : Local l s (markEnded s l cause) :=
  Local.modCall s l _ fun _ _ => ⟨rfl, fun b => ⟨b.name, by simp, b.transmit, b.batch, b.notices, b.accumulator⟩⟩

theorem endingWork_keeps {e : Ender} (he : EndKeeps e) (s : State) (l : LineNo) (was : Phase) :
    Keeps s (endingWork e s l was) := by
  unfold endingWork
  split
  · exact withdrawLookup_keeps s l
  · exact (leaveQueue_local s l).keeps
  · exact ((stopCarriage_local s l).keeps.trans (closeMeter_keeps he _ l)).trans (closingFlush_local _ l).keeps
  · exact Keeps.refl s

theorem endCallWith_keeps {e : Ender} (he : EndKeeps e) (s : State) (l : LineNo) (cause : EndCause) (lost : Bool) :
    Keeps s (endCallWith e s l cause lost) := by
  have k := completeStep_keeps he s l
  simp only [endCallWith]
  split
  · exact k
  · split
    · exact k
    · exact ((k.trans (markEnded_local _ l cause).keeps).trans (endingWork_keeps he _ l _)).trans
        (lineStrand_local _ l _ cause lost).keeps

theorem endFuel_keeps (fuel : Nat) : EndKeeps (endFuel fuel) := by
  induction fuel with
  | zero => exact fun s _ _ => Keeps.refl s
  | succ fuel ih => exact fun s l cause => endCallWith_keeps ih s l cause false

theorem endCall_keeps : EndKeeps endCall := endFuel_keeps 49

theorem endCallLost_keeps (s : State) (l : LineNo) (cause : EndCause) : Keeps s (endCallLost s l cause) :=
  endCallWith_keeps (endFuel_keeps 48) s l cause true

theorem endAll_keeps (s : State) (ls : List LineNo) (cause : EndCause) : Keeps s (endAll s ls cause) := by
  unfold endAll
  refine Keeps.trans ?_ (Keeps.foldl _ (fun s x => ?_) _ _)
  · refine Keeps.trans ?_ (Keeps.foldl _ (fun s (x : LineNo × Phase) => (markEnded_local s x.1 cause).keeps) _ _)
    exact Keeps.foldl _ (fun s l => completeStep_keeps endCall_keeps s l) _ _
  · exact (endingWork_keeps endCall_keeps s x.1 x.2).trans (lineStrand_local _ x.1 x.2 cause false).keeps

end Sys2Proof.Machine
end

