-- ==== Sys2Proof/Laws/Blocks.lean ====
section
/-! SUPPORT. What the operations of the sign-on engine, the account cache, the admission unit, the carriage unit and the calendar may
do. -/

namespace Sys2Proof.Machine

/-! ### Sign-on -/

/-- A call's password buffer emptied. -/
theorem clearPassword_local (s : State) (l : LineNo) : Local l s (clearPassword s l) :=
  Local.modCall s l _ fun _ _ => ⟨rfl, fun b => ⟨b.name, by simp, b.transmit, b.batch, b.notices, b.accumulator⟩⟩

theorem signOnFailed_local (s : State) (l : LineNo) (a : Nat) (r : SignOnReason) (c : Option EndCause) :
    Local l s (signOnFailed s l a r c) := by
  unfold signOnFailed
  split
  · exact Local.refl l s
  · exact Local.of_same l (enqueueOrdered_keeps _ _) (enqueueOrdered_lines _ _)

theorem invalidLookup_keeps (s : State) (l : LineNo) (a : Nat) (r : SignOnReason) : Keeps s (invalidLookup s l a r) := by
  have k : Local l s ((clearPassword s l).modCall l fun c => { c with attempts := c.attempts + 1 }) := by
    refine Local.plain (clearPassword_local s l) _ fun _ => ⟨rfl, rfl, rfl, rfl, rfl, rfl, rfl⟩
  simp only [invalidLookup]
  split
  · exact k.keeps
  · split
    · exact ((k.trans (signOnFailed_local _ l _ _ _)).trans (retryDialogue_local _ l)).keeps
    · exact ((k.trans (placeText_local _ l 3 none)).trans (signOnFailed_local _ l _ _ _)).keeps.trans
        (endCall_keeps _ l _)

theorem refuseSignOn_keeps (s : State) (l : LineNo) (a : Nat) (r : SignOnReason) : Keeps s (refuseSignOn s l a r) :=
  ((placeText_local s l _ none).trans (signOnFailed_local _ l _ _ _)).keeps.trans (endCall_keeps _ l _)

theorem offer_local (s : State) (l : LineNo) (k : ClassNo) : Local l s (offer s l k) := by
  unfold offer
  split
  · exact (grant_local s l).rest (setPointers_keeps _ _) (setPointers_lines _ _)
  · exact joinTail_local s l k

theorem attachCall_local (s : State) (l : LineNo) (a : FrameNo × EntryNo) (k : ClassNo) : Local l s (attachCall s l a k) := by
  simp only [attachCall]
  refine Local.trans ?_ (offer_local _ l k)
  refine Local.plain ?_ _ fun _ => ⟨rfl, rfl, rfl, rfl, rfl, rfl, rfl⟩
  refine Local.rest ?_ (attachPins_keeps _ a) rfl
  exact Local.modCall_plain s l _ fun _ => ⟨rfl, rfl, rfl, rfl, rfl, rfl, rfl⟩

theorem actOnOutcome_keeps (s : State) (l : LineNo) (o : LookupOutcome) : Keeps s (actOnOutcome s l o) := by
  unfold actOnOutcome
  split
  · exact Keeps.refl s
  · split
    · exact ((clearPassword_local s l).trans (placeText_local _ l 15 none)).keeps.trans (endCall_keeps _ l _)
    · exact invalidLookup_keeps s l _ _
    · split
      · exact invalidLookup_keeps s l _ _
      · split
        · exact invalidLookup_keeps s l _ _
        · split
          · exact (clearPassword_local s l).keeps.trans (refuseSignOn_keeps _ l _ _)
          · exact ((clearPassword_local s l).trans (attachCall_local _ l _ _)).keeps

theorem resolveLookup_keeps (s : State) (k : Lookup) (o : LookupOutcome) : Keeps s (resolveLookup s k o) := by
  unfold resolveLookup
  split
  · exact Keeps.ite (fun _ => actOnOutcome_keeps s _ o) fun _ => Keeps.refl s
  · exact Keeps.refl s

/-! ### Lookups and fetches -/

theorem setSlot_keeps (s : State) (i : SlotNo) (x : Option FetchSlot) : Keeps s (s.setSlot i x) := Keeps.acc s _ rfl rfl

theorem issueFetch_keeps (s : State) (i : SlotNo) (f : FrameNo) (kind : FetchKind) (k : Lookup) :
    Keeps s (issueFetch s i f kind k) := by
  unfold issueFetch
  refine Keeps.trans ?_ (enqueuePriority_keeps _ _)
  refine Keeps.trans ?_ (Keeps.acc _ _ rfl rfl)
  cases kind <;> exact (setSlot_keeps s i _).trans (modFrame_keeps _ _ _)

theorem placeCases_keeps (s : State) (k : Lookup) :
    (∀ t, placeCases s k = .settled t → Keeps s t) ∧ ∀ t f kind, placeCases s k = .needs t f kind → Keeps s t := by
  unfold placeCases
  split
  · exact ⟨fun t h => by cases h; exact setSlot_keeps s _ _, fun _ _ _ h => (nomatch h)⟩
  · split
    · exact ⟨fun _ h => (nomatch h), fun _ _ _ h => by cases h; exact Keeps.refl s⟩
    · split
      · exact ⟨fun _ h => (nomatch h), fun _ _ _ h => by cases h; exact Keeps.refl s⟩
      · dsimp only
        split
        · refine ⟨fun t h => ?_, fun _ _ _ h => (nomatch h)⟩
          cases h
          exact (touchFrame_keeps s _).trans (resolveLookup_keeps _ _ _)
        · split
          · refine ⟨fun t h => ?_, fun _ _ _ h => (nomatch h)⟩
            cases h
            exact (touchFrame_keeps s _).trans (resolveLookup_keeps _ _ _)
          · refine ⟨fun _ h => (nomatch h), fun _ _ _ h => ?_⟩
            cases h
            exact touchFrame_keeps s _

theorem tryPlace_keeps (s : State) (k : Lookup) (b : Bool) : Keeps s (tryPlace s k b).1 := by
  obtain ⟨h1, h2⟩ := placeCases_keeps s k
  unfold tryPlace
  split
  · next t h => exact h1 t h
  · next t f kind h =>
    have k' := h2 t f kind h
    split
    · split
      · exact k'
      · exact k'.trans (issueFetch_keeps _ _ _ _ _)
    · exact k'

theorem arriveLookup_keeps (s : State) (k : Lookup) : Keeps s (arriveLookup s k) := by
  have h : Keeps s (tryPlace { s with acc := { s.acc with lookups := bump s.acc.lookups } } k (!s.acc.backlog.isEmpty)).1 := by
    refine Keeps.trans ?_ (tryPlace_keeps _ _ _)
    exact Keeps.acc s _ rfl rfl
  simp only [arriveLookup]
  split
  · exact h.trans (Keeps.acc _ _ rfl rfl)
  · exact h

theorem serveBacklogLoop_keeps (fuel : Nat) (s : State) : Keeps s (serveBacklogLoop fuel s) := by
  induction fuel generalizing s with
  | zero => exact Keeps.refl s
  | succ fuel ih =>
    unfold serveBacklogLoop
    split
    · exact Keeps.refl s
    · next k rest _ =>
      have h : Keeps s (tryPlace { s with acc := { s.acc with backlog := rest } } k false).1 := by
        refine Keeps.trans ?_ (tryPlace_keeps _ _ _)
        exact Keeps.acc s _ rfl rfl
      dsimp only
      split
      · exact h.trans (Keeps.acc _ _ rfl rfl)
      · exact h.trans (ih _)

theorem serveBacklog_keeps (s : State) : Keeps s (serveBacklog s) := serveBacklogLoop_keeps _ s

/-- An empty backlog needs no service. -/
theorem serveBacklog_empty {s : State} (h : s.acc.backlog = []) : serveBacklog s = s := by
  simp [serveBacklog, h, serveBacklogLoop]

theorem resolveUnavailable_keeps (s : State) (ks : List Lookup) : Keeps s (resolveUnavailable s ks) :=
  Keeps.foldl _ (fun s k => resolveLookup_keeps s k _) ks s

theorem failFetch_keeps (s : State) (i : SlotNo) (x : FetchSlot) : Keeps s (failFetch s i x) := by
  have h : Keeps s (match x.kind with
      | .load => emptyFrame s x.frame
      | .merge => if (s.frame x.frame).pins = 0 then emptyFrame s x.frame
          else s.modFrame x.frame fun y => { y with st := .refreshDue }) := by
    split
    · exact emptyFrame_keeps s _
    · exact Keeps.ite (fun _ => emptyFrame_keeps s _) fun _ => modFrame_keeps s _ _
  exact (h.trans (resolveUnavailable_keeps _ _)).trans (setSlot_keeps _ _ _)

theorem resolveWaiter_keeps (f : FrameNo) (x : List Entry) (s : State) (k : Lookup) : Keeps s (resolveWaiter f x s k) := by
  unfold resolveWaiter
  split
  · exact resolveLookup_keeps s k _
  · dsimp only
    split
    · exact (touchFrame_keeps s f).trans (resolveLookup_keeps _ k _)
    · exact (touchFrame_keeps s f).trans (resolveLookup_keeps _ k _)

theorem finishFill_keeps (s : State) (i : SlotNo) (x : FetchSlot) (e : List Entry) : Keeps s (finishFill s i x e) := by
  unfold finishFill
  refine Keeps.trans ?_ (serveBacklog_keeps _)
  refine Keeps.trans ?_ (Keeps.foldl _ (resolveWaiter_keeps x.frame e) _ _)
  exact (touchFrame_keeps s _).trans (setSlot_keeps _ _ _)

theorem applyBucketData_keeps (s : State) (body : List Byte) : Keeps s (applyBucketData s body) := by
  unfold applyBucketData
  split
  · exact Keeps.acc s _ rfl rfl
  · split
    · split
      · exact (failFetch_keeps s _ _).trans (serveBacklog_keeps _)
      · unfold applyData
        split
        · refine Keeps.trans ?_ (serveBacklog_keeps _)
          refine Keeps.trans ?_ (failFetch_keeps _ _ _)
          exact Keeps.acc s _ rfl rfl
        · split
          · unfold mergeFill
            refine Keeps.trans ?_ (finishFill_keeps _ _ _ _)
            dsimp only
            split
            · exact modFrame_keeps s _ _
            · exact Keeps.trans (modFrame_keeps s _ _) (Keeps.acc _ _ rfl rfl)
          · exact (modFrame_keeps s _ _).trans (finishFill_keeps _ _ _ _)
    · exact Keeps.acc s _ rfl rfl

/-! ### The field dialogue and the carriage of characters -/

theorem restartField_local (s : State) (l : LineNo) : Local l s (restartField s l) :=
  Local.modCall_plain s l _ fun _ => ⟨rfl, rfl, rfl, rfl, rfl, rfl, rfl⟩

theorem nameCharacter_keeps (s : State) (l : LineNo) (c : Call) (ch : Byte) (hc : s.callOn l = some c) :
    Keeps s (nameCharacter s l c ch) := by
  have hr : (restartField s l).callOn l = some { c with fieldTimer := startTimer s.soe.fieldTimeout } := by
    simp [restartField, hc]
  unfold nameCharacter
  dsimp only
  refine (restartField_local s l).keeps.trans (Local.keeps (l := l) ?_)
  split
  · unfold endName
    split
    · exact placeText_local _ l 1 none
    · refine Local.trans ?_ (placeText_local _ l 2 none)
      exact Local.modCall _ l _ fun _ _ => ⟨rfl, fun b => ⟨b.name, by simp, b.transmit, b.batch, b.notices, b.accumulator⟩⟩
  · split
    · exact Local.refl l _
    · split
      · unfold eraseName
        split
        · exact placeChars_local _ l _
        · refine Local.trans ?_ (placeChars_local _ l _)
          exact Local.modCall _ l _ fun d _ => ⟨rfl, fun b =>
            ⟨by simp; have := b.name; omega, b.password, b.transmit, b.batch, b.notices, b.accumulator⟩⟩
      · split
        · unfold clearName
          refine Local.trans ?_ (placeText_local _ l 1 none)
          exact Local.modCall _ l _ fun _ _ => ⟨rfl, fun b =>
            ⟨by simp, b.password, b.transmit, b.batch, b.notices, b.accumulator⟩⟩
        · unfold nameInput
          split
          · next h =>
            refine Local.trans ?_ (placeChars_local _ l _)
            refine Local.modCall _ l _ fun d hd => ⟨rfl, fun b =>
              ⟨?_, b.password, b.transmit, b.batch, b.notices, b.accumulator⟩⟩
            rw [hr] at hd
            cases hd
            simp only [List.length_append, List.length_singleton]
            exact h.2
          · exact placeChars_local _ l _

theorem passwordCharacter_keeps (s : State) (l : LineNo) (c : Call) (ch : Byte) (hc : s.callOn l = some c) :
    Keeps s (passwordCharacter s l c ch) := by
  have hr : (restartField s l).callOn l = some { c with fieldTimer := startTimer s.soe.fieldTimeout } := by
    simp [restartField, hc]
  unfold passwordCharacter
  dsimp only
  refine (restartField_local s l).keeps.trans ?_
  split
  · have k : Keeps (restartField s l) ((restartField s l).modCall l fun c => { c with phase := .lookup, fieldTimer := none }) :=
      Keeps.plain (Keeps.refl _) l _ fun _ => ⟨rfl, rfl, rfl, rfl, rfl, rfl, rfl⟩
    unfold endPassword
    exact Keeps.ite (fun _ => k.trans (arriveLookup_keeps _ _))
      fun _ => (k.trans (placeText_local _ l 22 none).keeps).trans (endCall_keeps _ l _)
  · refine Local.keeps (l := l) ?_
    split
    · exact Local.refl l _
    · split
      · unfold erasePassword
        split
        · exact placeChars_local _ l _
        · exact Local.modCall _ l _ fun d _ => ⟨rfl, fun b =>
            ⟨b.name, by simp; have := b.password; omega, b.transmit, b.batch, b.notices, b.accumulator⟩⟩
      · split
        · unfold clearPasswordField
          refine Local.trans ?_ (placeText_local _ l 2 none)
          exact Local.modCall _ l _ fun _ _ => ⟨rfl, fun b =>
            ⟨b.name, by simp, b.transmit, b.batch, b.notices, b.accumulator⟩⟩
        · unfold passwordInput
          split
          · next h =>
            refine Local.modCall _ l _ fun d hd => ⟨rfl, fun b =>
              ⟨b.name, ?_, b.transmit, b.batch, b.notices, b.accumulator⟩⟩
            rw [hr] at hd
            cases hd
            simp only [List.length_append, List.length_singleton]
            exact h.2.2
          · exact placeChars_local _ l _

theorem restartIdle_local (s : State) (l : LineNo) : Local l s (restartIdle s l) :=
  Local.modCall_plain s l _ fun _ => ⟨rfl, rfl, rfl, rfl, rfl, rfl, rfl⟩

theorem connectedCharacter_local (s : State) (l : LineNo) (c : Call) (ch : Byte) (hc : s.callOn l = some c) :
    Local l s (connectedCharacter s l c ch) := by
  unfold connectedCharacter
  dsimp only
  refine (restartIdle_local s l).trans ?_
  split
  · exact Local.modCall_plain _ l _ fun _ => ⟨rfl, rfl, rfl, rfl, rfl, rfl, rfl⟩
  · split
    · next h =>
      have k : Local l (restartIdle s l) ((restartIdle s l).modCall l fun c => appendBatch c ch) := by
        refine Local.modCall _ l _ fun d hd => ⟨rfl, fun b =>
          ⟨b.name, b.password, b.transmit, ?_, b.notices, b.accumulator⟩⟩
        simp only [restartIdle, State.callOn_modCall_self, hc, Option.map_some, Option.some.injEq] at hd
        subst hd
        simp only [Config.batchDepth] at h
        simp only [appendBatch, List.length_append, List.length_singleton]
        omega
      unfold storeCharacter
      exact Local.ite (fun _ => k.trans (batchDue_local _ l)) fun _ => k
    · exact Local.modCounters _ l _

theorem connectedBreak_local (s : State) (l : LineNo) (c : Call) : Local l s (connectedBreak s l c) := by
  have k : Local l s (if attentionWaits (restartIdle s l) l c then restartIdle s l
      else (enqueuePriority (restartIdle s l) (callFrame (restartIdle s l) l .attention)).modCarriage l
        fun k => { k with attentions := bump k.attentions }) := by
    refine (restartIdle_local s l).trans (Local.ite (fun _ => Local.refl l _) fun _ => ?_)
    refine Local.trans ?_ (Local.modCarriage _ l _)
    exact Local.of_same l (enqueuePriority_keeps _ _) (enqueuePriority_lines _ _)
  simp only [connectedBreak]
  refine Local.ite (fun _ => k.trans ?_) fun _ => k
  unfold attentionFlush
  refine Local.trans ?_ (grantTest_local _ l)
  exact Local.modCall_drained _ l _ fun _ => ⟨rfl, rfl, rfl, rfl, rfl, rfl, rfl⟩

theorem deliverCharacter_keeps (s : State) (l : LineNo) (ch : Byte) : Keeps s (deliverCharacter s l ch) := by
  unfold deliverCharacter
  split
  · exact Keeps.refl s
  · next c hc =>
    split
    · exact nameCharacter_keeps s l c ch hc
    · exact passwordCharacter_keeps s l c ch hc
    · exact (connectedCharacter_local s l c ch hc).keeps
    all_goals exact Keeps.refl s

theorem deliverBreak_local (s : State) (l : LineNo) : Local l s (deliverBreak s l) := by
  unfold deliverBreak
  split
  · exact Local.refl l s
  · split
    · refine (restartField_local s l).trans ?_
      unfold clearName
      refine Local.trans ?_ (placeText_local _ l 1 none)
      exact Local.modCall _ l _ fun _ _ => ⟨rfl, fun b => ⟨by simp, b.password, b.transmit, b.batch, b.notices, b.accumulator⟩⟩
    · refine (restartField_local s l).trans ?_
      unfold clearPasswordField
      refine Local.trans ?_ (placeText_local _ l 2 none)
      exact Local.modCall _ l _ fun _ _ => ⟨rfl, fun b => ⟨b.name, by simp, b.transmit, b.batch, b.notices, b.accumulator⟩⟩
    · exact connectedBreak_local s l _
    all_goals exact Local.refl l s

theorem offerOutput_local (s : State) (l : LineNo) : Local l s (offerOutput s l) := by
  have ht : ∀ (u : State) ch, Local l u (transmit u l ch) := fun u ch => Local.modLine u l _ rfl (CallStep.refl _)
  unfold offerOutput
  split
  · exact Local.refl l s
  · next c hc =>
    split
    · next f _ =>
      have k : Local l s (transmit (s.modCall l fun c => { c with pendingFlow := none }) l (flowByte f)) := by
        refine Local.trans ?_ (ht _ _)
        exact Local.modCall_plain s l _ fun _ => ⟨rfl, rfl, rfl, rfl, rfl, rfl, rfl⟩
      cases f
      · exact k
      · unfold offerFlow
        exact Local.trans k (Local.modCarriage (transmit _ l _) l _)
    · split
      · exact Local.refl l s
      · unfold offerText
        split
        · refine Local.trans ?_ (ht _ _)
          exact Local.modCall_plain s l _ fun _ => ⟨rfl, rfl, rfl, rfl, rfl, rfl, rfl⟩
        · split
          · next hn =>
            refine Local.trans ?_ (ht _ _)
            refine Local.modCall s l _ fun d hd => ⟨rfl, fun b =>
              ⟨b.name, b.password, b.transmit, b.batch, ?_, b.accumulator⟩⟩
            rw [hc] at hd
            cases hd
            have := b.notices
            rw [hn] at this
            simp only [List.length_cons] at this
            dsimp only
            omega
          · split
            · next hn =>
              refine Local.trans ?_ (grantTest_local _ l)
              refine Local.trans ?_ (ht _ _)
              refine Local.modCall s l _ fun d hd => ?_
              rw [hc] at hd
              cases hd
              refine ⟨by split <;> rfl, fun b => ?_⟩
              have := b.transmit
              rw [hn] at this
              simp only [List.length_cons] at this
              split <;> exact ⟨b.name, b.password, by dsimp only; omega, b.batch, b.notices, b.accumulator⟩
            · exact Local.refl l s

theorem acceptHostData_local (s : State) (l : LineNo) (c : Call) (chars : List Byte) (hc : s.callOn l = some c) :
    Local l s (acceptHostData s l c chars) := by
  have k : Local l s (((s.modCarriage l fun k => { k with
      hostData := bump k.hostData, excess := bumpBy k.excess (chars.length - (Config.transmitDepth - c.txBuf.length)) }).modCall l
        fun d => { d with txBuf := d.txBuf ++ chars.take (Config.transmitDepth - c.txBuf.length)
                          credit := d.credit - chars.length })) := by
    refine (Local.modCarriage s l _).trans (Local.modCall _ l _ fun d hd => ⟨rfl, fun b =>
      ⟨b.name, b.password, ?_, b.batch, b.notices, b.accumulator⟩⟩)
    simp only [State.callOn_modCarriage, hc, Option.some.injEq] at hd
    subst hd
    have := b.transmit
    simp only [List.length_append, List.length_take, Config.transmitDepth]
    omega
  simp only [acceptHostData]
  refine Local.ite (fun _ => ?_) fun _ => k
  refine Local.rest ?_ (raiseFault_keeps _ _ _ _ _ _) (raiseFault_lines _ _ _ _ _ _)
  exact k.plain _ fun _ => ⟨rfl, rfl, rfl, rfl, rfl, rfl, rfl⟩

end Sys2Proof.Machine
end

