-- ==== Sys2Proof/Laws/Lines.lean ====
section
/-! SUPPORT. What a rise of carrier-detect may do. -/

namespace Sys2Proof.Machine

/-- Carrier in ANSWER changes its own line alone. -/
theorem carrierInAnswer_local (s : State) (l : LineNo) (dataLow : Bool) : Local l s (carrierInAnswer s l dataLow) := by
  have line : ∀ (s : State) (f : Line → Line), (f (s.line l)).settings = (s.line l).settings →
      (f (s.line l)).call = (s.line l).call → Local l s (s.modLine l f) := fun s f hs hc =>
    Local.modLine s l f hs (hc ▸ CallStep.refl _)
  simp only [carrierInAnswer]
  split
  · exact ((line s _ rfl rfl).trans (line _ _ rfl rfl)).trans (createCall_local _ l _ _ _)
  · exact (((line s _ rfl rfl).trans (line _ _ rfl rfl)).trans (createCall_local _ l _ _ _)).trans (startDialogue_local _ l)

theorem chargeFade_keeps (s : State) (l : LineNo) : Keeps s (chargeFade s l) := by
  unfold chargeFade
  split
  · exact Keeps.refl s
  · refine Keeps.trans ?_ (chargeUnitSeconds_keeps endCall_keeps _ l _)
    exact (Local.modCall_plain s l _ (by intro _; exact ⟨rfl, rfl, rfl, rfl, rfl, rfl, rfl⟩)).keeps.trans (Keeps.mtr _ _)

theorem returnCarrier_keeps (s : State) (l : LineNo) (dataLow : Bool) : Keeps s (returnCarrier s l dataLow) :=
  ((Local.modLine s l _ rfl (CallStep.refl _)).keeps.trans (Local.modCounters _ l _).keeps).trans (chargeFade_keeps _ l)

/-- A rise of carrier-detect keeps what every command keeps, whichever state it finds the line in. -/
theorem raiseCarrier_keeps (s : State) (l : LineNo) (dataLow : Bool) : Keeps s (raiseCarrier s l dataLow) := by
  unfold raiseCarrier
  split
  · exact (carrierInAnswer_local s l dataLow).keeps
  · exact returnCarrier_keeps s l dataLow
  all_goals first
    | exact (Local.modLine s l _ rfl (CallStep.refl _)).keeps
    | exact Keeps.refl s

/-- Outside ANSWER, FADE, SPEED and UP a rise of carrier-detect records the levels of the pins and does nothing else. -/
theorem raiseCarrier_recorded {s : State} {l : LineNo} (dataLow : Bool)
    (h : (s.line l).st = .off ∨ (s.line l).st = .idle ∨ (s.line l).st = .ring ∨ (s.line l).st = .drop) :
    raiseCarrier s l dataLow = s.setLine l { s.line l with carrier := true, rxLow := dataLow } := by
  rcases h with h | h | h | h <;> simp [raiseCarrier, State.modLine, h]

end Sys2Proof.Machine
end

