-- ==== Sys2Proof/Laws/PerInstr.lean ====
section
/-! SUPPORT. Facts about every command, one lemma for each constructor. -/

namespace Sys2Proof.Laws

/-- A command that takes a replied request bears a message code that Table 1.2 lists as replied. -/
def RequestIsReplied.Statement (i : Instr) : Prop :=
  ∀ code, Machine.requestCode i = some code → Machine.isReplied code = true

theorem RequestIsReplied.powerOn : RequestIsReplied.Statement (.powerOn) := fun _ h => nomatch h
theorem RequestIsReplied.inboundFrameEnd (bytes : List Byte) : RequestIsReplied.Statement (.inboundFrameEnd bytes) := fun _ h => nomatch h
theorem RequestIsReplied.frameMalformed : RequestIsReplied.Statement (.frameMalformed) := fun _ h => nomatch h
theorem RequestIsReplied.serviceOpen : RequestIsReplied.Statement (.serviceOpen) := fun _ h => by cases h; decide
theorem RequestIsReplied.serviceClose (mode : CloseMode) : RequestIsReplied.Statement (.serviceClose mode) := fun _ h => by cases h; decide
theorem RequestIsReplied.restart (mode : RestartMode) : RequestIsReplied.Statement (.restart mode) := fun _ h => by cases h; decide
theorem RequestIsReplied.statusQuery (clear : Bool) : RequestIsReplied.Statement (.statusQuery clear) := fun _ h => by cases h; decide
theorem RequestIsReplied.lineQuery : RequestIsReplied.Statement (.lineQuery) := fun _ h => by cases h; decide
theorem RequestIsReplied.surveySet (lines : List LineNo) (period : Interval) : RequestIsReplied.Statement (.surveySet lines period) := fun _ h => by cases h; decide
theorem RequestIsReplied.faultClear : RequestIsReplied.Statement (.faultClear) := fun _ h => by cases h; decide
theorem RequestIsReplied.faultTest (kind : FaultKind) : RequestIsReplied.Statement (.faultTest kind) := fun _ h => by cases h; decide
theorem RequestIsReplied.faultMask (kinds : List FaultKind) : RequestIsReplied.Statement (.faultMask kinds) := fun _ h => by cases h; decide
theorem RequestIsReplied.auditClear : RequestIsReplied.Statement (.auditClear) := fun _ h => by cases h; decide
theorem RequestIsReplied.lineSet (settings : LineSettings) : RequestIsReplied.Statement (.lineSet settings) := fun _ h => by cases h; decide
theorem RequestIsReplied.lineEnable : RequestIsReplied.Statement (.lineEnable) := fun _ h => by cases h; decide
theorem RequestIsReplied.lineDisable (mode : DisableMode) : RequestIsReplied.Statement (.lineDisable mode) := fun _ h => by cases h; decide
theorem RequestIsReplied.linesFitted (n : Nat) : RequestIsReplied.Statement (.linesFitted n) := fun _ h => by cases h; decide
theorem RequestIsReplied.textLoad : RequestIsReplied.Statement (.textLoad) := fun _ h => by cases h; decide
theorem RequestIsReplied.dialogueSet (attemptLimit : Nat) (fieldTimeout drainLimit : Interval) : RequestIsReplied.Statement (.dialogueSet attemptLimit fieldTimeout drainLimit) := fun _ h => by cases h; decide
theorem RequestIsReplied.directorySet (size : Nat) (wait : Interval) : RequestIsReplied.Statement (.directorySet size wait) := fun _ h => by cases h; decide
theorem RequestIsReplied.bucketData : RequestIsReplied.Statement (.bucketData) := fun _ h => nomatch h
theorem RequestIsReplied.bucketInvalidate (bucket : Nat) : RequestIsReplied.Statement (.bucketInvalidate bucket) := fun _ h => by cases h; decide
theorem RequestIsReplied.allowanceAdjust (bucket account : Nat) (delta : Int) : RequestIsReplied.Statement (.allowanceAdjust bucket account delta) := fun _ h => by cases h; decide
theorem RequestIsReplied.accountSuspend (bucket account : Nat) : RequestIsReplied.Statement (.accountSuspend bucket account) := fun _ h => by cases h; decide
theorem RequestIsReplied.capacitySet (capacity reserve : Nat) (openWait : Interval) : RequestIsReplied.Statement (.capacitySet capacity reserve openWait) := fun _ h => by cases h; decide
theorem RequestIsReplied.classSet (cls : Nat) (fields : ClassRecord) : RequestIsReplied.Statement (.classSet cls fields) := fun _ h => by cases h; decide
theorem RequestIsReplied.openAccept : RequestIsReplied.Statement (.openAccept) := fun _ h => nomatch h
theorem RequestIsReplied.openRefuse (reason : RefuseReason) : RequestIsReplied.Statement (.openRefuse reason) := fun _ h => nomatch h
theorem RequestIsReplied.hostData : RequestIsReplied.Statement (.hostData) := fun _ h => nomatch h
theorem RequestIsReplied.hostClose : RequestIsReplied.Statement (.hostClose) := fun _ h => nomatch h
theorem RequestIsReplied.clockSet (day hour minute second : Nat) : RequestIsReplied.Statement (.clockSet day hour minute second) := fun _ h => by cases h; decide
theorem RequestIsReplied.tariffLoad (tariff : Tariff) : RequestIsReplied.Statement (.tariffLoad tariff) := fun _ h => by cases h; decide
theorem RequestIsReplied.tariffSwitch : RequestIsReplied.Statement (.tariffSwitch) := fun _ h => by cases h; decide
theorem RequestIsReplied.windowSet (window : Nat) (dayMask : Byte) (start length : Nat) (classMask : Byte) : RequestIsReplied.Statement (.windowSet window dayMask start length classMask) := fun _ h => by cases h; decide
theorem RequestIsReplied.billRead (index : Nat) : RequestIsReplied.Statement (.billRead index) := fun _ h => by cases h; decide
theorem RequestIsReplied.billRelease (number : Nat) : RequestIsReplied.Statement (.billRelease number) := fun _ h => by cases h; decide
theorem RequestIsReplied.transmissionStart (requestFirst : Bool) : RequestIsReplied.Statement (.transmissionStart requestFirst) := fun _ h => nomatch h
theorem RequestIsReplied.frameTransmitted : RequestIsReplied.Statement (.frameTransmitted) := fun _ h => nomatch h
theorem RequestIsReplied.ring (rise : LineRise) : RequestIsReplied.Statement (.ring rise) := fun _ h => nomatch h
theorem RequestIsReplied.ringGapExpiry (line : LineNo) : RequestIsReplied.Statement (.ringGapExpiry line) := fun _ h => nomatch h
theorem RequestIsReplied.carrierArrival (line : LineNo) (dataLow : Bool) : RequestIsReplied.Statement (.carrierArrival line dataLow) := fun _ h => nomatch h
theorem RequestIsReplied.answerWaitExpiry (line : LineNo) : RequestIsReplied.Statement (.answerWaitExpiry line) := fun _ h => nomatch h
theorem RequestIsReplied.widthMeasured (line : LineNo) (width : Fin 4096) : RequestIsReplied.Statement (.widthMeasured line width) := fun _ h => nomatch h
theorem RequestIsReplied.widthCounterOverflow (line : LineNo) : RequestIsReplied.Statement (.widthCounterOverflow line) := fun _ h => nomatch h
theorem RequestIsReplied.speedWaitExpiry (line : LineNo) : RequestIsReplied.Statement (.speedWaitExpiry line) := fun _ h => nomatch h
theorem RequestIsReplied.receivedCharacter (line : LineNo) (bits : Byte) (parity stop : Bool) : RequestIsReplied.Statement (.receivedCharacter line bits parity stop) := fun _ h => nomatch h
theorem RequestIsReplied.zeroCharacterEnded (line : LineNo) : RequestIsReplied.Statement (.zeroCharacterEnded line) := fun _ h => nomatch h
theorem RequestIsReplied.breakSeen (line : LineNo) : RequestIsReplied.Statement (.breakSeen line) := fun _ h => nomatch h
theorem RequestIsReplied.transmitterFree (line : LineNo) : RequestIsReplied.Statement (.transmitterFree line) := fun _ h => nomatch h
theorem RequestIsReplied.carrierLoss (line : LineNo) : RequestIsReplied.Statement (.carrierLoss line) := fun _ h => nomatch h
theorem RequestIsReplied.carrierReturn (rise : LineRise) : RequestIsReplied.Statement (.carrierReturn rise) := fun _ h => nomatch h
theorem RequestIsReplied.holdoverExpiry (line : LineNo) : RequestIsReplied.Statement (.holdoverExpiry line) := fun _ h => nomatch h
theorem RequestIsReplied.dropGuardPassed (line : LineNo) : RequestIsReplied.Statement (.dropGuardPassed line) := fun _ h => nomatch h
theorem RequestIsReplied.fieldTimerExpiry (line : LineNo) : RequestIsReplied.Statement (.fieldTimerExpiry line) := fun _ h => nomatch h
theorem RequestIsReplied.directoryWaitExpiry (slot : SlotNo) : RequestIsReplied.Statement (.directoryWaitExpiry slot) := fun _ h => nomatch h
theorem RequestIsReplied.queueWaitExpiry (line : LineNo) : RequestIsReplied.Statement (.queueWaitExpiry line) := fun _ h => nomatch h
theorem RequestIsReplied.announcementTimerExpiry (line : LineNo) : RequestIsReplied.Statement (.announcementTimerExpiry line) := fun _ h => nomatch h
theorem RequestIsReplied.openWaitExpiry (line : LineNo) : RequestIsReplied.Statement (.openWaitExpiry line) := fun _ h => nomatch h
theorem RequestIsReplied.batchGapExpiry (line : LineNo) : RequestIsReplied.Statement (.batchGapExpiry line) := fun _ h => nomatch h
theorem RequestIsReplied.oneSecondEvent : RequestIsReplied.Statement (.oneSecondEvent) := fun _ h => nomatch h
theorem RequestIsReplied.minuteChange : RequestIsReplied.Statement (.minuteChange) := fun _ h => nomatch h
theorem RequestIsReplied.stepCompletion (line : LineNo) : RequestIsReplied.Statement (.stepCompletion line) := fun _ h => nomatch h
theorem RequestIsReplied.deadlineExpiry (line : LineNo) : RequestIsReplied.Statement (.deadlineExpiry line) := fun _ h => nomatch h
theorem RequestIsReplied.idleTimerExpiry (line : LineNo) : RequestIsReplied.Statement (.idleTimerExpiry line) := fun _ h => nomatch h
theorem RequestIsReplied.drainLimitExpiry (line : LineNo) : RequestIsReplied.Statement (.drainLimitExpiry line) := fun _ h => nomatch h
theorem RequestIsReplied.surveyTimerExpiry : RequestIsReplied.Statement (.surveyTimerExpiry) := fun _ h => nomatch h
theorem RequestIsReplied.inboundFrameStart : RequestIsReplied.Statement (.inboundFrameStart) := fun _ h => nomatch h
theorem RequestIsReplied.outboundHoldChange (asserted : Bool) : RequestIsReplied.Statement (.outboundHoldChange asserted) := fun _ h => nomatch h
theorem RequestIsReplied.receiveDataRise (line : LineNo) : RequestIsReplied.Statement (.receiveDataRise line) := fun _ h => nomatch h

end Sys2Proof.Laws
end

