-- ==== Sys2Proof/Laws/Takes.lean ====
section
/-! SUPPORT. Which frame a load fetch takes (R79), what a high stop bit delivers (R41, R42), and what the take of a frame and the
refill of the priority lane do (R7, R14). -/

namespace Sys2Proof.Machine

/-- The frame chosen for a load is the one that R79 names. -/
theorem chooseFrame_eq_some_iff (s : State) (f : FrameNo) : chooseFrame s = some f ↔ LoadTakes s f := by
  unfold chooseFrame LoadTakes
  cases h : allFrames.find? fun g => decide ((s.frame g).st = .empty) with
  | some g =>
    have hg : (s.frame g).st = .empty := by simpa using List.find?_some h
    have first : ∀ k, k < g → (s.frame k).st ≠ .empty := by
      intro k hk
      have := List.find?_eq_some_iff_getElem.mp h
      obtain ⟨-, i, hi, he, before⟩ := this
      have : g.val = i := by rw [← he]; simp [allFrames]
      simpa [allFrames] using before k.val (by rw [← this]; exact hk)
    constructor
    · rintro ⟨⟩
      exact .inl ⟨hg, first⟩
    · rintro (⟨hf, hb⟩ | ⟨none_empty, -⟩)
      · rcases lt_trichotomy f g with hlt | rfl | hgt
        · exact absurd hf (first f hlt)
        · rfl
        · exact absurd hg (hb g hgt)
      · exact absurd hg (none_empty g)
  | none =>
    have full : ∀ g, (s.frame g).st ≠ .empty := fun g => by
      simpa using List.find?_eq_none.mp h g (by simp [allFrames])
    simp only [List.find?_eq_some_iff_append, Bool.and_eq_true, decide_eq_true_eq, Bool.not_eq_true', Bool.and_eq_false_imp,
      decide_eq_false_iff_not]
    constructor
    · rintro ⟨⟨hv, hp⟩, before, after, ho, hb⟩
      exact .inr ⟨full, hv, hp, before, after, ho, fun g hg hgv => Nat.pos_of_ne_zero (hb g hg hgv)⟩
    · rintro (⟨hf, -⟩ | ⟨-, hv, hp, before, after, ho, hb⟩)
      · exact absurd hf (full f)
      · exact ⟨⟨hv, hp⟩, before, after, ho, fun g hg hgv => Nat.ne_of_gt (hb g hg hgv)⟩

/-- No frame is chosen for a load exactly where R79 names none. -/
theorem chooseFrame_eq_none_iff (s : State) : chooseFrame s = none ↔ NoneToTake s := by
  unfold chooseFrame NoneToTake
  cases h : allFrames.find? fun g => decide ((s.frame g).st = .empty) with
  | some g =>
    have hg : (s.frame g).st = .empty := by simpa using List.find?_some h
    simpa using fun full => absurd hg (full g)
  | none =>
    have full : ∀ g, (s.frame g).st ≠ .empty := fun g => by
      simpa using List.find?_eq_none.mp h g (by simp [allFrames])
    simp [full, Nat.one_le_iff_ne_zero]

/-- The parity test on the data bits is that of R42 on the bits received. -/
theorem parityWrong_dataBits (f : DataFormat) (bits : Byte) (parity : Bool) :
    parityWrong f (dataBits f bits) parity = parityBad f bits parity := by
  cases f <;> cases parity <;> revert bits <;> decide +kernel

/-- A high stop bit counts a parity error if there is one and delivers one character (R41, R42, R44). -/
theorem goodStop_eq (s : State) (l : LineNo) (f : DataFormat) (bits : Byte) (parity : Bool) :
    goodStop s l f (dataBits f bits) parity = deliverCharacter (parityCounted s l f bits parity) l (delivered f bits parity) := by
  unfold goodStop parityCounted delivered
  rw [parityWrong_dataBits]
  cases parityBad f bits parity
  · cases f <;> simp [dataBits]
  · rfl

/-- The body that a frame takes at its entry rests on the lines and the survey alone. -/
theorem fixBody_hli (s : State) (h : Hli) : fixBody { s with hli := h } = fixBody s := rfl

/-- The refill keeps the lane within its depth, and loses no message that waits. -/
theorem refillPriority_bounds (kept : Nat) (s : State) (h : s.hli.prio.length ≤ 16) :
    (refillPriority kept s).hli.prio.length ≤ 16 ∧
    (refillPriority kept s).hli.prio.length + (refillPriority kept s).hli.prioWait.length =
      s.hli.prio.length + s.hli.prioWait.length := by
  simp only [refillPriority, Config.priorityDepth, List.length_append, List.length_map, List.length_take, List.length_drop]
  omega

/-- The take of a head frame that needs no REPLY. -/
theorem takeFrame_noReply {s : State} {code : Nat} {f : InFrame} {rest : List InFrame} (h : AtHead s code f rest)
    (r : isReplied code = false) : takeFrame s code = some (f, afterTake s rest) := by
  simp only [takeFrame, h.head, h.code_eq, r]
  simp [refillPriority, popFrame, afterTake, fixBody_hli, Config.priorityDepth, bump, Config.counterMax, h.form]

/-- The take of a request, before its REPLY has its place. -/
theorem takeFrame_replied {s : State} {code : Nat} {f : InFrame} {rest : List InFrame} (h : Requested s code f rest)
    (r : isReplied code = true) : takeFrame s code = some (f, popFrame s rest) := by
  simp [takeFrame, h.head, h.code_eq, h.form, h.room, r, Config.priorityDepth]

end Sys2Proof.Machine
end

