-- ==== Sys2Proof/WellFormed.lean ====
section
/-! DEFINITION. Which commands are well formed. The bounds of a line, a fetch slot and a width stand in the types. What is left
are the two commands that carry a SET, written here as a list: it names no member twice (R185, R188). A number outside
its stated range is NOT ill formed: R10 gives such a request its own outcome. -/

namespace Sys2Proof

/-- A list that stands for a set names no member twice. -/
abbrev Instr.setOnce {α : Type} [DecidableEq α] (members : List α) : Bool := decide members.Nodup

/-- The command's operands are ones the event can bring. -/
def Instr.wellFormed : Instr → Bool
  | .surveySet lines _ => Instr.setOnce lines
  | .faultMask kinds => Instr.setOnce kinds
  | .powerOn | .inboundFrameEnd _ | .frameMalformed | .serviceOpen | .serviceClose _ | .restart _ |
    .statusQuery _ | .lineQuery | .faultClear | .faultTest _ | .auditClear | .lineSet _ | .lineEnable |
    .lineDisable _ | .linesFitted _ | .textLoad | .dialogueSet _ _ _ | .directorySet _ _ | .bucketData |
    .bucketInvalidate _ | .allowanceAdjust _ _ _ | .accountSuspend _ _ | .capacitySet _ _ _ | .classSet _ _ |
    .openAccept | .openRefuse _ | .hostData | .hostClose | .clockSet _ _ _ _ | .tariffLoad _ | .tariffSwitch |
    .windowSet _ _ _ _ _ | .billRead _ | .billRelease _ | .transmissionStart _ | .frameTransmitted | .ring _ |
    .ringGapExpiry _ | .carrierArrival _ _ | .answerWaitExpiry _ | .widthMeasured _ _ | .widthCounterOverflow _ |
    .speedWaitExpiry _ | .receivedCharacter _ _ _ _ | .zeroCharacterEnded _ | .breakSeen _ | .transmitterFree _ |
    .carrierLoss _ | .carrierReturn _ | .holdoverExpiry _ | .dropGuardPassed _ | .fieldTimerExpiry _ |
    .directoryWaitExpiry _ | .queueWaitExpiry _ | .announcementTimerExpiry _ | .openWaitExpiry _ |
    .batchGapExpiry _ | .oneSecondEvent | .minuteChange | .stepCompletion _ | .deadlineExpiry _ |
    .idleTimerExpiry _ | .drainLimitExpiry _ | .surveyTimerExpiry | .inboundFrameStart | .outboundHoldChange _ |
    .receiveDataRise _ => true

end Sys2Proof
end

