-- ==== Sys2Proof/Tests/Slice0.lean ====
section
/-! SUPPORT. Tests: the ill-formed commands, the manual's worked examples, and for each statement of the obligations a witness
of its hypotheses at small concrete states, with boundary values clause by clause. -/

namespace Sys2Proof.Tests

open Sys2Proof.Machine

-- One theorem after another: each asks the kernel, and many at once would each hold a thread.
set_option Elab.async false

/-! ### States and messages -/

/-- The state a command leaves, or the state before it where it gives none. -/
def after (c : Instr) (s : State) : State :=
  match exec c s with
  | .next t => t
  | _ => s

/-- A host message. -/
def message (code : Nat) (body : List Byte) (tag : Nat := 255) (call : Nat := 0) : InFrame :=
  { code := code, tag := tag, call := call, body := body }

/-- The state with one message at the head of the inbound queue. -/
def ask (s : State) (f : InFrame) : State := { s with hli := { s.hli with inQueue := [f] } }

theorem ask_atHead (s : State) (f : InFrame) (h : frameForm f ≠ .malformed) : AtHead (ask s f) f.code f [] := ⟨rfl, rfl, h⟩

theorem ask_requested (s : State) (f : InFrame) (h : frameForm f ≠ .malformed) (r : s.hli.prio.length < 16) :
    Requested (ask s f) f.code f [] := ⟨ask_atHead s f h, r⟩

/-- A frame to the host, for filling lanes. -/
def filler : OutFrame := { tag := 255, call := 0, msg := .attention }

/-- Both lanes holding a number of frames. -/
def lanes (s : State) (prio ord : Nat) : State :=
  { s with hli := { s.hli with prio := List.replicate prio filler, ord := List.replicate ord filler } }

/-- The example tariff of chapter 9 (Table 9.3). -/
def exampleTariff : Tariff :=
  { bandCount := 3, starts := ⟨#[0, 540, 1080, 0, 0, 0, 0, 0], rfl⟩, rates := ⟨#[100, 600, 300, 0, 0, 0, 0, 0], rfl⟩
    multS := 192, multM := 256, multF := 320, tier1 := 60, tier2 := 120, factor0 := 256, factor1 := 384, factor2 := 512
    floor := 40, floorOn := false, ceiling := 1000, ceilingOn := true, stepLength := 60, partStep := .full
    rounding := .up, activation := .untimed, actDay := 0, actMinute := 0 }

/-- The account of the worked hash and check word: "KX7", account 1234, password "ab". -/
def account : Entry :=
  { status := .opened, cls := 2, sessionLimit := 2, groups := 15, bandMask := 255, account := 1234, allowance := none
    checkWord := 2775834589, userName := padName (ascii "KX7"), attached := 1, stored := 0, charged := 0
    exhausted := false, warnedAtLevel := false, withdrawn := false }

/-- The state with one entry in slot 0 of frame 0, VALID for bucket 981. -/
def cached (s : State) (e : Entry) (st : FrameState := .valid) (pins : Nat := 1) : State :=
  s.modFrame 0 fun _ =>
    { st := st, bucket := some 981, entries := ⟨#[some e, none, none, none], rfl⟩, fresh := true, pins := pins }

/-- A part in service with the example tariff in band 0, the account cached, four slots. -/
def serving : State :=
  cached { State.reset with
    sfu := { Sfu.powerOn with service := .opened }
    acc := { Acc.powerOn with size := 1000 }
    adm := { Adm.powerOn with capacity := 4 }
    ctu := { Ctu.powerOn with isSet := true, current := some exampleTariff, generation := 1, band := some 0 } } account

/-- A call on an 8-bit line, attached to the account. -/
def caller (p : Phase) : Call :=
  { Call.fresh 7 p (some .b1200) { LineSettings.powerOn with format := .none8 } with cls := some 2, attach := some (0, 0) }

/-- A call in the dialogue: no attachment, the name and the password typed. -/
def typing (p : Phase) : Call :=
  { Call.fresh 7 p (some .b1200) { LineSettings.powerOn with format := .none8 } with
    nameBuf := ascii "KX7", pwBuf := ascii "ab" }

/-- Line 3 in a state with a call. -/
def put (s : State) (st : LineState) (c : Call) : State :=
  s.setLine 3 { Line.powerOn true false with st := st, call := some c }

/-- Line 3 in a state with no call. -/
def bare (s : State) (st : LineState) : State := s.setLine 3 { Line.powerOn false false with st := st }

/-! ### Ill-formed commands (WellFormed.lean) -/

theorem test_surveySet_refuses_a_line_named_twice : (Instr.surveySet [1, 1] ⟨0, .seconds⟩).wellFormed = false := by decide
theorem test_faultMask_refuses_a_kind_named_twice :
    (Instr.faultMask [.linkFrame, .storeFull, .linkFrame]).wellFormed = false := by decide
theorem test_surveySet_takes_a_set : (Instr.surveySet [1, 2] ⟨0, .seconds⟩).wellFormed = true := by decide

/-! ### The manual's worked examples -/

/-- Section 1.2: the CRC of "123456789". -/
theorem test_crc_check_value : crc (ascii "123456789") = 0x29B1 := by decide +kernel
/-- Table 4.3 and the bucket with D = 1000. -/
theorem test_hash_of_KX7 : nameHash (ascii "KX7") = 15981 ∧ 15981 % 1000 = 981 := by decide
/-- Table 4.4. -/
theorem test_hash_of_ZZZZ : nameHash (ascii "ZZZZ") = 42840 := by decide
/-- Section 4.5, the two worked check words. -/
theorem test_check_words : checkWordOf 1234 (ascii "ab") = 2775834589 ∧ checkWordOf 1234 (ascii "ac") = 2775834851 := by decide
/-- Table 3.4. -/
theorem test_worked_widths : [17, 29, 37, 131, 150, 1200, 1300].map classifyWidth =
    [some .b9600, some .b4800, none, some .b1200, none, none, some .b110] := by decide
/-- Table 9.3, its six rows. -/
theorem test_worked_rates :
    [stepRateOf exampleTariff 1 .b1200 0 (-50), stepRateOf exampleTariff 1 .b9600 3900 (-50),
     stepRateOf exampleTariff 1 .b9600 7800 (-50), stepRateOf exampleTariff 0 .b300 0 (-50),
     stepRateOf exampleTariff 0 .b300 0 (-512), stepRateOf { exampleTariff with floorOn := true } 0 .b300 0 (-512)] =
    [550, 1000, 1000, 25, 0, 40] := by decide

/-! ### Witnesses: the host link and power -/

/-- A queue with a command, and an empty one. -/
theorem witness_StepTakesFrontCommand :
    ({ State.reset with pending := [.oneSecondEvent] } : State).pending = [.oneSecondEvent] ∧ State.reset.pending = [] := by
  decide

/-- A request that can be taken, one that finds 15 replies ahead of it, and one refused. -/
theorem witness_EveryReplyTakesItsPlaceAtTheTake :
    Requested (ask State.reset (message 0x01 [])) 0x01 (message 0x01 []) [] ∧
    Requested (ask (lanes State.reset 15 0) (message 0x42 [])) 0x42 (message 0x42 []) [] ∧
    (after .tariffSwitch (ask (lanes State.reset 15 0) (message 0x42 []))).hli.prio[15]? =
      some (replyTo (message 0x42 []) (.refused .notReady .none)) :=
  ⟨ask_requested _ (message 0x01 []) (by decide) (by decide), ask_requested _ (message 0x42 []) (by decide) (by decide),
   by decide +kernel⟩

/-- A part whose receiver is in a frame. -/
def receiving (r : Receiver) (waiting : Nat) : State :=
  { State.reset with hli := { State.reset.hli with rx := r, inQueue := List.replicate waiting (message 0x01 []) } }

/-- Seven bytes; eight with n = 289 and with n = 288; eight with n = 0 and a wrong and a right CRC. -/
theorem witness_InboundFrameIsCheckedAndQueued :
    (receiving .receiving 0).hli.rx = .receiving ∧ (List.replicate 7 (0 : Byte)).length < 8 ∧
    288 < 256 * byteAt [0, 0, 0, 0, 1, 33, 0, 0] 4 + byteAt [0, 0, 0, 0, 1, 33, 0, 0] 5 ∧
    256 * byteAt [0, 0, 0, 0, 1, 32, 0, 0] 4 + byteAt [0, 0, 0, 0, 1, 32, 0, 0] 5 = 288 ∧
    ([0, 0, 0, 0, 1, 32, 0, 0] : List Byte).length ≠ 8 + 288 ∧
    (crc ([1, 255, 0, 0, 0, 0, 0, 0].take 6)).toNat ≠ 0 ∧
    linkCheck (frameBytes 1 255 0 []) = none ∧ (frameBytes 1 255 0 []).length = 8 := by decide +kernel

/-- Seven and eight frames waiting at the rise, and the other conditions of the receiver. -/
theorem witness_FrameBegunUnderHoldIsAnOverrun :
    (receiving .idle 7).hli.rx = .idle ∧ (receiving .idle 7).hli.inQueue.length < 8 ∧
    8 ≤ (receiving .idle 8).hli.inQueue.length ∧ (receiving .receiving 0).hli.rx ≠ .idle ∧
    (receiving .overrun 8).hli.rx = .overrun ∧ (receiving .ignoring 0).hli.rx = .ignoring := by decide

theorem witness_FrameBytesAreReadBack :
    (255 < 256 ∧ 65535 < 65536 ∧ (List.replicate 288 (0 : Byte)).length ≤ 288) ∧
    frameOf (frameBytes 0x38 47 65535 [0x41]) = message 0x38 [0x41] 47 65535 := by decide +kernel

/-- Malformed heads with tag 47, 48 and a full lane; a well-formed head; rows that need a line, none, a call, none. -/
theorem witness_MalformedFrameIsAnsweredFormat :
    frameForm (message 0x81 [] 47 1) = .malformed ∧ frameForm (message 0x81 [] 48 1) = .malformed ∧
    frameForm (message 0x01 []) = .wellFormed ∧ 16 ≤ (lanes State.reset 16 0).hli.prio.length ∧
    (lanes State.reset 15 0).hli.prio.length < 16 ∧
    (∀ r ∈ catalogue, r.code ≠ 0x81) ∧ (⟨0x10, true, false, true⟩ : CatalogueRow) ∈ catalogue ∧
    (⟨0x32, true, true, false⟩ : CatalogueRow) ∈ catalogue ∧ (⟨0x01, false, false, true⟩ : CatalogueRow) ∈ catalogue := by decide

/-- Priority 1 and 16, ordered 48, 49 and 64, with and without claims on the place; a frame under way; the hold. -/
theorem witness_TransmissionStartTakesThePriorityLaneFirst :
    (lanes State.reset 1 0).hli.tx = none ∧ (lanes State.reset 1 0).hli.outHold = false ∧
    (lanes State.reset 1 0).hli.prio = filler :: [] ∧ (lanes State.reset 0 49).hli.ord = filler :: List.replicate 48 filler ∧
    (lanes State.reset 16 0).hli.prio = filler :: List.replicate 15 filler ∧
    (lanes State.reset 0 64).hli.ord = filler :: List.replicate 63 filler ∧
    ({ State.reset.hli with prioWait := [filler] } : Hli).prioWait = filler :: [] ∧
    ({ State.reset.hli with ordWait := [filler] } : Hli).ordWait = filler :: [] ∧
    isReplied (message 0x01 []).code = true ∧ (ask State.reset (message 0x01 [])).hli.inQueue = [message 0x01 []] ∧
    ({ State.reset.hli with tx := some (filler, true) } : Hli).tx.isSome = true ∧
    ({ State.reset.hli with outHold := true } : Hli).outHold = true ∧ State.reset.hli.prio = [] ∧ State.reset.hli.ord = [] := by
  decide

/-- R14: fifteen frames in the priority lane, a message that waits, and an OPEN REFUSE at the head of the inbound queue. -/
def kept : State :=
  let s := ask (lanes State.reset 15 0) (message 0x33 [1] 3 7)
  { s with hli := { s.hli with prioWait := [filler] } }

/-- A place left to a frame that is then taken and needs no REPLY goes to the message that waits. -/
theorem test_no_reply_take_gives_up_the_place :
    (after (.openRefuse .full) kept).hli.prio = List.replicate 16 filler ∧
    (after (.openRefuse .full) kept).hli.prioWait = [] ∧ (after (.openRefuse .full) kept).stale = 1 ∧
    frameForm (message 0x38 [1] 3 7) = .wellFormed ∧ isReplied 0x38 = false ∧
    frameForm (message 0x33 [1] 3 7) = .openLayout := by decide

/-- 48 frames in the ordered lane and a connected call with a batch on the forward wait list. -/
def congestedWait : State :=
  { lanes (put serving .up { caller .connected with batch := [0x41], forwardDue := true }) 0 48 with forwardWait := [3] }

theorem witness_EndOfCongestionServesTheForwardHead :
    congestedWait.hli.tx = none ∧ congestedWait.hli.outHold = false ∧ congestedWait.hli.prio = [] ∧
    congestedWait.hli.ord = filler :: List.replicate 47 filler ∧ congestedWait.hli.ordWait = [] ∧
    congestedWait.forwardWait = 3 :: [] ∧
    congestedWait.callOn 3 = some { caller .connected with batch := [0x41], forwardDue := true } := by decide +kernel

/-- A call in ENDING whose CLOSED is in transmission. -/
def closing : Call :=
  { caller .ending with endCause := some .hangup, closedDue := true, closedSent := true, slotHeld := true, released := true }

/-- The state with its CLOSED in transmission. -/
def closedUnderWay (c : Call) (live : Bool) (st : LineState := .drop) (guard : Option Nat := some 2) : State :=
  let s := serving.setLine 3 { Line.powerOn false false with st := st, dropGuard := guard, call := some c }
  { s with hli := { s.hli with tx := some ({ tag := 3, call := 7, msg := .closed (some .hangup) 0 }, live) } }

theorem witness_ClosedTransmittedReleasesTheSlotAndBills :
    State.reset.hli.tx = none ∧
    (closedUnderWay closing false).hli.tx = some ({ tag := 3, call := 7, msg := .closed (some .hangup) 0 }, false) ∧
    (closedUnderWay { closing with closedSent := false } true).callOn 3 = some { closing with closedSent := false } ∧
    (closedUnderWay closing true).callOn 3 = some closing ∧ (closedUnderWay closing true).entryAt (0, 0) = some account ∧
    (∀ k : ClassNo, (closedUnderWay closing true).adm.queues[k] = []) ∧
    (closedUnderWay closing true).bst.store.length < 31 ∧ ((closedUnderWay closing true).line 3).dropGuard = some 2 ∧
    (closedUnderWay closing true).sfu.service = .opened ∧ (closedUnderWay closing true).hli.ord.length < 47 ∧
    ((closedUnderWay closing true .drop none).line 3).dropGuard = none ∧
    ((after .frameTransmitted (closedUnderWay closing true .drop none)).line 3).st = .idle ∧
    ((closedUnderWay closing true .up none).line 3).st = .up ∧
    (slotText serving 0).length + (slotText serving 1).length ≤ 256 ∧
    ((after .frameTransmitted (closedUnderWay closing true .up none)).callOn 3).map Call.phase = some .name ∧
    ((after .frameTransmitted { closedUnderWay closing true .up none with fitted := 3 }).line 3).st = .drop := by
  decide +kernel

/-- R52: the copy of a re-sign-on keeps speed, format and stop bits of the ending call and takes the rest from the line. -/
theorem test_resign_on_keeps_the_speed :
    let settings := { LineSettings.powerOn with speed := some .b300, stopBits := .two, group := .b }
    let s := closedUnderWay closing true .up none
    ((after .frameTransmitted (s.setLine 3 { s.line 3 with settings := settings })).callOn 3).map Call.copy =
      some { settings with speed := none, format := .none8, stopBits := .one } := by decide +kernel

theorem witness_RestartReturnsToPowerOnButForTheClock :
    AtHead (ask State.reset (message 0x03 [0])) 0x03 (message 0x03 [0]) [] ∧ State.reset.hli.prio.length < 16 ∧
    State.reset.sfu.service = .halted ∧ (∀ l, State.reset.callOn l = none) ∧ State.reset.bst.store = [] ∧
    serving.sfu.service ≠ .halted :=
  ⟨ask_atHead _ (message 0x03 [0]) (by decide), by decide +kernel⟩

/-- The three service states, ready and not ready; calls in QUEUED and CONNECTED and none. -/
theorem witness_ServiceIsOpenedAndClosed :
    Requested (ask serving (message 0x01 [])) 0x01 (message 0x01 []) [] ∧
    Requested (ask serving (message 0x02 [0])) 0x02 (message 0x02 [0]) [] ∧
    serving.sfu.service = .opened ∧ State.reset.sfu.service = .halted ∧ serving.ctu.isSet = true ∧
    serving.ctu.generation ≠ 0 ∧ 1 ≤ serving.acc.size ∧ State.reset.acc.size = 0 ∧ serving.sfu.service ≠ .halted ∧
    (∀ l, stepDue (put serving .up (caller .queued)) l = false) ∧
    (put serving .up (caller .queued)).phaseIs 3 .queued = true ∧
    (put serving .up (caller .connected)).phaseIs 3 .queued = false ∧ (∀ l, serving.callOn l = none) :=
  ⟨ask_requested _ (message 0x01 []) (by decide) (by decide), ask_requested _ (message 0x02 [0]) (by decide) (by decide),
   by decide +kernel⟩

theorem witness_QueriesReportWhatStands :
    Requested (ask serving (message 0x04 [0])) 0x04 (message 0x04 [0]) [] ∧
    Requested (ask (put serving .up (caller .connected)) (message 0x05 [] 3)) 0x05 (message 0x05 [] 3) [] ∧
    ((put serving .up (caller .connected)).line 3).call = some (caller .connected) ∧
    lineOf (message 0x05 [] 3) = 3 ∧ ([5, 3, 9] : List LineNo) = [5] ++ 3 :: [9] ∧ (3 : LineNo) ∉ ([5] : List LineNo) ∧
    (∀ k : ClassNo, 3 ∉ serving.adm.queues[k]) ∧ 3 ∉ serving.forwardWait :=
  ⟨ask_requested _ (message 0x04 [0]) (by decide) (by decide), ask_requested _ (message 0x05 [] 3) (by decide) (by decide),
   by decide +kernel⟩

/-- Periods of 63 and 64, an empty set and a set; a report waiting; a timer due and one not due. -/
theorem witness_SurveyReportsFollowTheirSettings :
    Requested (ask serving (message 0x06 [0])) 0x06 (message 0x06 [0]) [] ∧
    63 < (⟨64, .seconds⟩ : Interval).count ∧ (⟨63, .minutes⟩ : Interval).count ≤ 63 ∧ ([3] : List LineNo) ≠ [] ∧
    (lanes serving 14 0).hli.prio.length < 15 ∧
    [({ tag := 255, call := 0, msg := .surveyReport [] } : OutFrame)].any isSurvey = true ∧
    serving.sfu.surveyTimer ≠ some 0 ∧ ({ serving.sfu with surveyTimer := some 0 } : Sfu).surveyTimer = some 0 :=
  ⟨ask_requested _ (message 0x06 [0]) (by decide) (by decide), by decide⟩

theorem witness_FaultRecordTakesTheFirstUnmasked :
    (∀ code ∈ [0x07, 0x08, 0x0A], frameForm (message code (if code = 0x07 then [] else [0])) ≠ .malformed) ∧
    (Vector.replicate 8 true)[faultIndex .storeFull] = true ∧ serving.sfu.mask[faultIndex .storeFull] = false ∧
    serving.sfu.record = none ∧ (after (.faultTest .storeFull) (ask serving (message 0x08 [0]))).sfu.record.isSome = true ∧
    (lanes serving 15 0).hli.prio.length < 16 ∧ 16 ≤ (lanes serving 16 0).hli.prio.length ∧ serving.hli.prioWait = [] := by
  decide +kernel

/-! ### Witnesses: billing -/

/-- A billing record of the account. -/
def record (n : Nat) : BillRecord := { makeRecord serving 3 closing (0, 0) with number := n }

/-- A store of the records 1, 2, … -/
def stored (n : Nat) : State :=
  { serving with bst := { serving.bst with store := (List.range n).map fun i => record (i + 1), nextRecord := n + 1 } }

/-- Indexes at and below the end of the store; numbers 0, 1, 2 and an unknown one. -/
theorem witness_BillingStoreAnswersTheHost :
    Requested (ask (stored 2) (message 0x50 [0])) 0x50 (message 0x50 [0]) [] ∧
    Requested (ask (stored 2) (message 0x51 [0])) 0x51 (message 0x51 [0]) [] ∧
    Requested (ask (stored 2) (message 0x09 [])) 0x09 (message 0x09 []) [] ∧
    (stored 2).bst.store[1]? = some (record 2) ∧ (stored 2).bst.store.length ≤ 2 ∧
    (∀ r ∈ (stored 2).bst.store, r.number ≠ 65535) ∧ (stored 2).bst.store = [record 1] ++ record 2 :: [] ∧
    (∀ r ∈ [record 1], r.number ≠ 2) ∧ (stored 1).bst.store = [] ++ record 1 :: [] ∧ (stored 2).bst.held = [] ∧
    (stored 1).entryAt (record 1).entry = some account ∧ account.withdrawn = false ∧
    ((stored 1).frame (record 1).entry.1).st = .valid ∧ (recordBytes (record 258)).take 6 = [1, 2, 0, 4, 210, 3] ∧
    (record 1).speed = some .b1200 ∧ (record 1).endCause = some .hangup ∧ (record 1).connectAt = none :=
  ⟨ask_requested _ (message 0x50 [0]) (by decide) (by decide), ask_requested _ (message 0x51 [0]) (by decide) (by decide),
   ask_requested _ (message 0x09 []) (by decide) (by decide), by decide +kernel⟩

/-- A full store and one call held. -/
def holding : State :=
  let s := (stored 32).setLine 3 { Line.powerOn false false with
    st := .drop, dropGuard := some 1, call := some { closing with phase := .held } }
  { s with bst := { s.bst with held := [3] } }

theorem witness_FreedPlacesGoToTheHeldOrder :
    Requested (ask holding (message 0x51 [0])) 0x51 (message 0x51 [0]) [] ∧
    holding.bst.store = [] ++ record 1 :: (List.range 31).map (fun i => record (i + 2)) ∧ holding.bst.store.length ≤ 32 ∧
    (∀ l ∈ holding.bst.held, (holding.callOn l).isSome = true) ∧ holding.bst.held.Nodup ∧ (holding.line 3).st = .drop ∧
    (after (.billRelease 1) (ask holding (message 0x51 [0]))).bst.held = [] :=
  ⟨ask_requested _ (message 0x51 [0]) (by decide) (by decide), by decide +kernel⟩

/-! ### Witnesses: lines -/

/-- Lines at and below N; a bad field after good ones; a call whose flow control goes off, and none. -/
theorem witness_LineSetLeavesTheCallsCopyButForFlowControl :
    Requested (ask serving (message 0x10 [0] 3)) 0x10 (message 0x10 [0] 3) [] ∧
    ({ serving with fitted := 3 } : State).fitted ≤ (lineOf (message 0x10 [0] 3)).val ∧
    (lineOf (message 0x10 [0] 3)).val < serving.fitted ∧
    (¬ ({ LineSettings.powerOn with batchGap := 26 } : LineSettings).batchGap ≤ 25) ∧
    LineSettings.powerOn.answerAfter ≤ 15 ∧ serving.callOn 3 = none ∧
    (put serving .up (caller .connected)).callOn 3 = some (caller .connected) ∧
    (caller .connected).copy.flowControl = true :=
  ⟨ask_requested _ (message 0x10 [0] 3) (by decide) (by decide), by decide +kernel⟩

theorem witness_LinesAreEnabledDisabledAndFitted :
    Requested (ask (bare serving .off) (message 0x11 [] 3)) 0x11 (message 0x11 [] 3) [] ∧
    Requested (ask (bare serving .drop) (message 0x12 [0] 3)) 0x12 (message 0x12 [0] 3) [] ∧
    Requested (ask serving (message 0x13 [0])) 0x13 (message 0x13 [0]) [] ∧
    ((bare serving .off).line 3).st = .off ∧ ((bare serving .drop).line 3).st = .drop ∧ (bare serving .drop).callOn 3 = none ∧
    (put serving .up (caller .connected)).callOn 3 = some (caller .connected) ∧ (caller .connected).endCause = none ∧
    (∀ l, stepDue (put serving .up (caller .connected)) l = false) ∧ serving.fitted = 48 ∧
    (∀ m : LineNo, 4 ≤ m.val → (put serving .up (caller .connected)).callOn m = none) :=
  ⟨ask_requested _ (message 0x11 [] 3) (by decide) (by decide), ask_requested _ (message 0x12 [0] 3) (by decide) (by decide),
   ask_requested _ (message 0x13 [0]) (by decide) (by decide), by decide +kernel⟩

/-- Rings that stop short of answer-after 2 and that reach it; counts of 15; expiries due and not due. -/
theorem witness_RingsAreCountedUpToTheAnswer :
    (serving.line 3).st = .idle ∧ serving.sfu.service = .opened ∧ 1 < (serving.line 3).settings.answerAfter ∧
    ((bare serving .ring).line 3).st = .ring ∧ 2 = min (1 + 1) 15 ∧ (15 : Nat) = min (15 + 1) 15 ∧
    ((bare serving .ring).line 3).settings.answerAfter ≤ 2 ∧ ((bare serving .ring).line 3).carrier = false ∧
    State.reset.sfu.service ≠ .opened ∧ ((bare serving .drop).line 3).st ≠ .idle ∧ ((bare serving .answer).line 3).st = .answer ∧
    (after (.ring ⟨3, false⟩) serving).line 3 = { Line.powerOn false false with
      st := .ring, ringCount := 1, ringGap := some 8, ctr := { LineCounters.zero with rings := 1 } } ∧
    ({ Line.powerOn false false with st := .answer, answerWait := some 0 } : Line).answerWait = some 0 ∧
    ({ Line.powerOn true false with st := .ring, ringCount := 1 } : Line).carrier = true := by decide +kernel

/-- R36, R38: a ring that answers a line whose carrier is active creates the call, which waits for a rise where data is low. -/
theorem test_answer_with_carrier_active :
    let t := after (.ring ⟨3, true⟩) (serving.setLine 3 { Line.powerOn true false with st := .ring, ringCount := 1 })
    (t.callOn 3).map Call.phase = some .speed ∧ (t.line 3).rxWait = true := by decide +kernel

/-- R36, R48: carrier that returns in DROP is active there, so the next answer finds it. -/
theorem test_carrier_return_in_drop_is_kept :
    ((after (.carrierReturn ⟨3, false⟩) (bare serving .drop)).line 3).carrier = true := by decide +kernel

theorem witness_CarrierInAnswerCreatesACall :
    ((bare serving .answer).line 3).st = .answer ∧ ((bare serving .answer).line 3).settings.speed = none ∧
    ({ LineSettings.powerOn with speed := some .b300 } : LineSettings).speed = some .b300 ∧
    ((bare serving .drop).line 3).st = .drop ∧ ((put serving .up (caller .connected)).line 3).st = .up ∧
    ((after (.carrierArrival 3 false) (bare serving .answer)).callOn 3).map Call.number = some 1 ∧
    ((after (.carrierArrival 3 false) (bare serving .answer)).callOn 3).map Call.copy =
      some LineSettings.powerOn.toCallSettings := by decide +kernel

/-- Each range of Table 3.3 at both ends, with the widths next to them. -/
theorem witness_WidthsAreClassifiedAsTable3_3 :
    [8, 13, 14, 18, 19, 27, 28, 36, 37, 55, 56, 72, 73, 111, 112, 144, 145].map classifyWidth =
      [none, none, some .b9600, some .b9600, none, none, some .b4800, some .b4800, none, none, some .b2400, some .b2400,
       none, none, some .b1200, some .b1200, none] ∧
    [223, 224, 288, 289, 447, 448, 576, 577, 895, 896, 1152, 1153, 1221, 1222, 1570, 1571, 4095].map classifyWidth =
      [none, some .b600, some .b600, none, none, some .b300, some .b300, none, none, some .b150, some .b150, none, none,
       some .b110, some .b110, none, none] := by decide

/-- Line 3 measuring its speed after a number of failed attempts. -/
def measuring (attempts : Nat) : State :=
  serving.setLine 3 { Line.powerOn true false with
    st := .speed, attempts := attempts, call := some (Call.fresh 7 .speed none LineSettings.powerOn.toCallSettings) }

theorem witness_SpeedMeasurementAcceptsOrCounts :
    (measuring 1).callOn 3 = some (Call.fresh 7 .speed none LineSettings.powerOn.toCallSettings) ∧ ((measuring 1).line 3).st = .speed ∧
    ((measuring 1).line 3).rxWait = false ∧ ((measuring 1).line 3).attempts < 2 ∧ 2 ≤ ((measuring 2).line 3).attempts ∧
    classifyWidth 8 = none ∧ classifyWidth 14 = some .b9600 ∧ stepDue (measuring 2) 3 = false ∧
    ((put serving .up (caller .connected)).line 3).st ≠ .speed ∧
    ((put serving .up (caller .connected)).line 3).zeroHeld = false := by decide +kernel

/-- Each timer due in its state and phase, one not due, and one in another phase. -/
theorem witness_ExpiredTimersEndTheCall :
    stepDue (put serving .up (caller .connected)) 3 = false ∧ (caller .connected).endCause = none ∧
    ({ Line.powerOn true false with st := .speed, speedWait := some 0 } : Line).speedWait = some 0 ∧
    ({ Line.powerOn true false with st := .fade, holdover := some 0 } : Line).holdover = some 0 ∧
    ({ typing .name with fieldTimer := some 0 } : Call).fieldTimer = some 0 ∧
    ({ caller .queued with queueWait := some 0 } : Call).queueWait = some 0 ∧
    ({ caller .connected with idle := some 0 } : Call).idle = some 0 ∧
    ({ caller .opening with pend := ⟨none, some 0, some 0⟩ } : Call).pend.allowance ≠ some 0 ∧
    (caller .ending).phase ≠ .queued ∧ (caller .connected).idle ≠ some 0 ∧
    ((after (.deadlineExpiry 3) (put serving .up { caller .opening with pend := ⟨none, some 0, some 0⟩ })).callOn 3).map
      Call.endCause = some (some .window) := by decide +kernel

/-- A drain that has run out, of an attached call and of an unattached one; a guard that has passed, with a call and without. -/
theorem witness_DrainLimitAndDropGuardClearTheLine :
    (put serving .up { closing with drain := some 0, closedSent := false }).callOn 3 =
      some { closing with drain := some 0, closedSent := false } ∧
    (put serving .up { closing with drain := some 0, attach := none }).callOn 3 =
      some { closing with drain := some 0, attach := none } ∧
    serving.hli.ord.length < 47 ∧ (∀ m, serving.sfu.service ≠ .closing m) ∧ (caller .connected).drain ≠ some 0 ∧
    ({ Line.powerOn false false with st := .drop, dropGuard := some 0 } : Line).dropGuard = some 0 ∧
    (Line.powerOn false false).disablePending = false ∧ (3 : LineNo).val < serving.fitted ∧
    ((bare serving .drop).line 3).dropGuard ≠ some 0 := by
  refine ⟨rfl, rfl, by decide +kernel, fun m => by cases m <;> decide +kernel, by decide +kernel⟩

/-- A connected call with a holdover of 10 s and of 0; an ending call; a line in FADE and one in DROP. -/
theorem witness_CarrierLossFadesOrDropsTheLine :
    stepDue (put serving .up (caller .connected)) 3 = false ∧
    (put serving .up (caller .connected)).callOn 3 = some (caller .connected) ∧ 1 ≤ (caller .connected).copy.holdover.count ∧
    ({ (caller .connected).copy with holdover := ⟨0, .seconds⟩ } : CallSettings).holdover.count = 0 ∧
    closing.endCause.isSome = true ∧ ((put serving .fade (caller .connected)).line 3).st = .fade ∧
    (caller .connected).attach = some (0, 0) ∧ (put serving .fade (caller .connected)).entryAt (0, 0) = some account ∧
    account.allowance = none ∧ ((bare serving .drop).line 3).st ≠ .up ∧ ((bare serving .answer).line 3).st = .answer ∧
    ((measuring 0).line 3).st = .speed ∧
    ((after (.carrierArrival 3 false) (put serving .fade (caller .connected))).line 3).st = .up := by decide +kernel

/-! ### Witnesses: the dialogue and sign-on -/

/-- Slots 23 and 24, lengths 80 and 81, the characters 1Fh, 20h, 7Eh, 7Fh, two marks; limits 0, 1, 7 and 8. -/
theorem witness_TextsAndDialogueSettingsAreReplaced :
    (∀ f ∈ [message 0x14 [23, 0], message 0x14 [24, 0], message 0x14 (23 :: 80 :: List.replicate 80 0x7E),
        message 0x14 (23 :: 81 :: List.replicate 81 0x20), message 0x14 [0, 1, 0x1F], message 0x14 [0, 2, 0x23, 0x23]],
      frameForm f = .wellFormed ∧ f.code = 0x14 ∧ f.tag = 255 ∧ f.call = 0) ∧
    frameForm (message 0x14 [0, 1]) = .malformed ∧ serving.soe.texts[(0 : Fin 24)] = [] ∧
    Requested (ask serving (message 0x14 [23, 0])) 0x14 (message 0x14 [23, 0]) [] ∧
    Requested (ask serving (message 0x15 [0])) 0x15 (message 0x15 [0]) [] ∧
    ((7 < 8 ∧ 63 < (⟨64, .seconds⟩ : Interval).count) ∧ 1 ≤ 7 ∧ (⟨63, .seconds⟩ : Interval).count ≤ 63) :=
  ⟨by decide, by decide, by decide, ask_requested _ (message 0x14 [23, 0]) (by decide) (by decide),
   ask_requested _ (message 0x15 [0]) (by decide) (by decide), by decide⟩

theorem hears_put (s : State) (c : Call) : Hears (put s .up c) 3 c := by
  refine ⟨?_, ?_, ?_, ?_⟩ <;> simp [put, State.callOn, State.line, State.setLine, Line.powerOn]

/-- A call with another format. -/
def formatted (f : DataFormat) (c : Call) : Call := { c with copy := { c.copy with format := f } }

/-- R41, R42: a CR with its even parity and without, in seven bits and in eight. -/
theorem test_delivered_in_each_format :
    delivered .even7 0x8D true = 0x0D ∧ delivered .even7 0x0D false = 0x1A ∧ delivered .odd7 0x0D false = 0x0D ∧
    delivered .mark7 0x0D true = 0x0D ∧ delivered .space7 0x0D true = 0x1A ∧ delivered .none8 0x8D true = 0x8D := by decide

/-- A 7-bit line: a letter is stored; one with a parity error is counted and refused with BEL. -/
theorem test_name_character_with_parity :
    let s := put serving .up (formatted .even7 (typing .name))
    Hears s 3 (formatted .even7 (typing .name)) ∧
    ((after (.receivedCharacter 3 0x5A false true) s).callOn 3).map Call.nameBuf = some (ascii "KX7Z") ∧
    ((after (.receivedCharacter 3 0x5A true true) s).callOn 3).map Call.txBuf = some [0x07] ∧
    ((after (.receivedCharacter 3 0x5A true true) s).line 3).ctr.parityErrors = 1 := ⟨hears_put _ _, by decide +kernel⟩

/-- Every kind of character, with 7 and 8 name characters stored, and the transmit buffer with and without room. -/
theorem witness_NameFieldTakesItsCharacters :
    Hears (put serving .up (typing .name)) 3 (typing .name) ∧ (typing .name).nameBuf.length < 8 ∧
    8 ≤ ({ typing .name with nameBuf := ascii "ABCDEFGH" } : Call).nameBuf.length ∧ (typing .name).nameBuf ≠ [] ∧
    ({ typing .name with nameBuf := [] } : Call).nameBuf = [] ∧ (typing .name).txBuf.length + 1 ≤ 256 ∧
    ¬ (({ typing .name with txBuf := List.replicate 256 0 } : Call).txBuf.length + 1 ≤ 256) ∧
    ((after (.receivedCharacter 3 0x7A false true) (put serving .up (typing .name))).callOn 3).map Call.nameBuf =
      some (ascii "KX7Z") ∧
    ((after (.receivedCharacter 3 0x0D false true) (put serving .up (typing .name))).callOn 3).map Call.phase =
      some .password :=
  ⟨hears_put _ _, by decide +kernel⟩

theorem witness_PasswordFieldTakesItsCharacters :
    Hears (put State.reset .up (typing .password)) 3 (typing .password) ∧ (typing .password).pwBuf.length < 12 ∧
    12 ≤ ({ typing .password with pwBuf := ascii "abcdefghijkl" } : Call).pwBuf.length ∧ (typing .password).pwBuf ≠ [] ∧
    State.reset.sfu.service ≠ .opened ∧ (typing .password).endCause = none ∧
    ((after (.receivedCharacter 3 0x0D false true) (put State.reset .up (typing .password))).callOn 3).map Call.endCause =
      some (some .serviceEnd) :=
  ⟨hears_put _ _, by decide +kernel⟩

/-- The cache empty but for another bucket in frame 0: slot 0 and frame 1 are taken. -/
def uncached : State :=
  put (serving.modFrame 0 fun x => { x with bucket := some 5 }) .up (typing .password)

theorem witness_LookupOfAnUncachedBucketIsFetched :
    Hears uncached 3 (typing .password) ∧ typedBucket uncached (typing .password) = 981 ∧
    (∀ i : SlotNo, uncached.acc.slots[i] = none) ∧ (∀ g, (uncached.frame g).bucket ≠ some 981) ∧
    uncached.acc.backlog = [] ∧ LoadTakes uncached 1 ∧ delivered .none8 0x0D false = 0x0D ∧ uncached.hli.prio.length < 16 ∧
    uncached.hli.prioWait = [] ∧ uncached.sfu.service = .opened ∧
    ((after (.receivedCharacter 3 0x0D false true) uncached).acc.slots[(0 : SlotNo)]).map FetchSlot.frame = some 1 :=
  ⟨hears_put _ _, by decide +kernel, by decide +kernel, by decide +kernel, by decide +kernel,
   .inl (by decide +kernel), by decide +kernel⟩

/-- Every frame VALID with a bucket of its own; frame 0 is the least recently used and pinned. -/
def crowded : State :=
  put { serving with acc := { serving.acc with
    frames := Vector.ofFn fun i =>
      { Frame.empty with st := .valid, bucket := some (2000 + i.val), pins := if i.val = 0 then 1 else 0 }
    order := allFrames } } .up (typing .password)

/-- R79, with no EMPTY frame: frame 1, the least recently used without pins, is taken and loses its bucket. -/
theorem test_least_recently_used_frame_is_taken :
    LoadTakes crowded 1 ∧
    ((after (.receivedCharacter 3 0x0D false true) crowded).frame 1).bucket = some 981 :=
  ⟨.inr ⟨by decide +kernel, by decide +kernel, by decide +kernel, [0], allFrames.drop 2, by decide +kernel,
    by decide +kernel⟩, by decide +kernel⟩

/-- The eight checks: an account that fails none, and one that fails the last three and not the first five. -/
theorem witness_FirstFailingCheckDecides :
    signOnCheck serving (typing .lookup) account = none ∧
    signOnCheck (stored 32) (typing .lookup) { account with allowance := some 0 } = some .allowance ∧
    signOnCheck (stored 32) (typing .lookup) account = some .accounting ∧
    signOnCheck serving (typing .lookup) { account with attached := 2 } = some .sessions := by decide +kernel

theorem looksUp_serving (s : State) (h : (put s .up (typing .password)).sfu.service = .opened)
    (n : ∀ i : SlotNo, (put s .up (typing .password)).acc.slots[i] = none)
    (b : ((put s .up (typing .password)).frame 0).bucket = some (typedBucket (put s .up (typing .password)) (typing .password)))
    (a : ∀ g, ((put s .up (typing .password)).frame g).bucket =
      some (typedBucket (put s .up (typing .password)) (typing .password)) → g = 0)
    (v : ((put s .up (typing .password)).frame 0).st = .valid) :
    LooksUp (put s .up (typing .password)) 3 (typing .password) 0 :=
  { hears_put s (typing .password) with
    phase := rfl, service := h, no_fetch := fun i x hx => by rw [n i] at hx; exact nomatch hx
    bucket := b, alone := a, valid := v }

/-- The password passes and no check fails; a slot is free, and with no capacity none is. -/
theorem witness_PassedSignOnIsAttachedAndOffered :
    Finds (put serving .up (typing .password)) 3 (typing .password) 0 0 account ∧
    passwordPasses account (typing .password).pwBuf = true ∧
    signOnCheck (put serving .up (typing .password)) (typing .password) account = none ∧
    (∀ k : ClassNo, 3 ∉ (put serving .up (typing .password)).adm.queues[k]) ∧ slotFree serving 2 = true ∧
    slotFree { serving with adm := { serving.adm with capacity := 0 } } 2 = false ∧
    serving.adm.classes[(2 : ClassNo)].announce.count = 1 ∧ placed (numbered serving 9 1) ≠ [] ∧
    ((after (.receivedCharacter 3 0x0D false true)
      (put { serving with adm := { serving.adm with capacity := 0 } } .up (typing .password))).callOn 3).map Call.txBuf =
      some (placed (numbered serving 9 1)) ∧
    ((after (.receivedCharacter 3 0x0D false true) (put serving .up (typing .password))).callOn 3).map Call.phase =
      some .opening := by
  refine ⟨{ looksUp_serving serving ?_ ?_ ?_ ?_ ?_ with
    entry := ?_, searchable := rfl, name := ?_, only := fun j d hj hd => ?_ }, ?_⟩
  · decide +kernel
  · decide +kernel
  · decide +kernel
  · decide +kernel
  · decide +kernel
  · decide +kernel
  · decide +kernel
  · have : ∀ j : EntryNo, j ≠ 0 → (put serving .up (typing .password)).entryAt (0, j) = none := by decide +kernel
    rw [this j hj] at hd
    exact nomatch hd
  · decide +kernel

/-- The same with a wrong password, with an account not there, and with the account suspended; attempts 1 and 2 of 3. -/
theorem witness_RejectedSignOnIsToldToTheHost :
    passwordPasses { account with checkWord := 0 } (typing .password).pwBuf = false ∧
    (typing .password).attempts + 1 < serving.soe.attemptLimit ∧ (typing .password).attach = none ∧
    serving.soe.attemptLimit ≤ ({ typing .password with attempts := 2 } : Call).attempts + 1 ∧
    ((put serving .up (typing .password)).frame 0).fresh = true ∧ serving.hli.ord.length < 47 ∧
    signOnCheck serving (typing .password) { account with status := .suspended } = some .suspended ∧
    1 ≤ serving.soe.drainLimit.count ∧ slotText serving 4 ++ slotText serving 14 ≠ [] ∧
    (slotText serving 4 ++ slotText serving 14).length ≤ 256 ∧
    (after (.receivedCharacter 3 0x0D false true)
      (put (cached serving { account with status := .suspended }) .up (typing .password))).hli.ord =
      [{ tag := 3, call := 7, msg := .signOnFailed (padName (ascii "KX7")) 1234 .suspended 0 (some .refused) }] ∧
    ((after (.receivedCharacter 3 0x0D false true)
      (put (cached serving { account with status := .suspended }) .up (typing .password))).callOn 3).map Call.endCause =
      some (some .refused) ∧
    ((after (.receivedCharacter 3 0x0D false true)
      (put (cached serving { account with checkWord := 0 }) .up (typing .password))).callOn 3).map Call.attempts = some 1 := by
  decide +kernel

/-! ### Witnesses: characters of a call -/

/-- A connected call whose batch holds a number of characters. -/
def batched (n : Nat) : Call := { caller .connected with batch := List.replicate n 0x41 }

/-- A flow command; 64 and 63 stored; a forwarding character and the full size; congested and not. -/
theorem witness_ConnectedCharacterIsBatched :
    Hears (put serving .up (batched 63)) 3 (batched 63) ∧ (batched 63).cls = some 2 ∧ 64 ≤ (batched 64).batch.length ∧
    (batched 63).batch.length + 1 = (batched 63).copy.forwardSize ∧ (batched 63).copy.flowControl = true ∧
    (0x0D : Byte) ∈ (batched 1).copy.forwardChars.toList.take (batched 1).copy.forwardCount ∧
    (lanes serving 0 47).hli.ord.length < 48 ∧ 48 ≤ (lanes serving 0 48).hli.ord.length ∧ serving.forwardWait = [] ∧
    (batched 1).batchGap = none ∧
    ((after (.receivedCharacter 3 0x41 false true) (put serving .up (batched 63))).callOn 3).map Call.batch = some [] :=
  ⟨hears_put _ _, by decide +kernel⟩

/-- Parity wrong and right in each 7-bit format; a low stop bit with data and without; receivers that wait. -/
theorem witness_ParityAndFramingErrorsAreCounted :
    parityWrong .even7 0x41 true = true ∧ parityWrong .even7 0x41 false = false ∧ parityWrong .odd7 0x41 false = true ∧
    parityWrong .mark7 0x41 false = true ∧ parityWrong .space7 0x41 true = true ∧ parityWrong .none8 0xC1 true = false ∧
    ({ (batched 0).copy with flowControl := false, forwardCount := 0 } : CallSettings).forwardSize ≠ 1 ∧
    ((put serving .up (batched 0)).line 3).zeroHeld = false ∧ ((put serving .fade (batched 0)).line 3).st ≠ .up ∧
    ((after (.receivedCharacter 3 0 false false) (put serving .up (batched 0))).line 3).zeroHeld = true := by decide +kernel

/-- Line 3 in UP with a zero character held undecided. -/
def undecided (c : Call) : State :=
  serving.setLine 3 { Line.powerOn true true with st := .up, zeroHeld := true, call := some c }

/-- R43: a rise discards the zero character and counts it; no BREAK is seen afterwards. -/
theorem test_rise_discards_the_zero_character :
    let t := after (.receiveDataRise 3) (undecided (batched 0))
    (t.line 3).zeroHeld = false ∧ (t.line 3).ctr.framingErrors = 1 ∧ after (.breakSeen 3) t = t := by decide +kernel

theorem witness_BreakActsByPhase :
    (undecided (typing .name)).callOn 3 = some (typing .name) ∧ ((undecided (typing .name)).line 3).st = .up ∧
    ((undecided (typing .name)).line 3).zeroHeld = true ∧ (typing .name).txBuf.length + (slotText serving 1).length ≤ 256 ∧
    (caller .connected).cls = some 2 ∧ (lanes serving 14 0).hli.prio.length < 15 ∧
    192 < ({ caller .connected with credit := 193 } : Call).credit ∧ (caller .connected).credit ≤ 192 ∧
    ((after (.breakSeen 3) (undecided (caller .connected))).line 3).ctr.breaks = 1 := by decide +kernel

/-- A call in ENDING after its carriage stopped: its line's output drains. -/
def draining : Call :=
  { caller .ending with endCause := some .hostClose, drain := some 30, goodbyePending := true, slotHeld := true, closedDue := true }

/-- R45: the letter C has three bits set; a 7-bit format sends its low seven bits and its own parity bit. -/
theorem test_characters_as_sent :
    (sentAs LineSettings.powerOn.toCallSettings 0xC3).data = 0x43 ∧ (sentAs LineSettings.powerOn.toCallSettings 0xC3).parity = some true ∧
    (sentAs { LineSettings.powerOn with format := .odd7 } 0xC3).parity = some false ∧
    (sentAs { LineSettings.powerOn with format := .none8 } 0xC3) = ⟨0xC3, none, .one⟩ := by decide

/-- Each offer: XON, XOFF, paused, emission, a notice at an insertion point, the buffer at and above the grant's threshold, nothing. -/
theorem witness_TransmitterTakesTheFirstOffer :
    ((put serving .up (caller .connected)).line 3).call = some (caller .connected) ∧ (caller .connected).phase ≠ .ending ∧
    (caller .connected).pendingFlow = none ∧ (caller .connected).outputPaused = false ∧ (caller .connected).emission = [] ∧
    192 < ([] : List Byte).length + ({ caller .connected with credit := 193 } : Call).credit ∧
    ([] : List Byte).length + ({ caller .connected with credit := 192 } : Call).credit ≤ 192 ∧
    ((bare serving .drop).line 3).st ≠ .up ∧ (typing .name).phase ≠ .connected ∧ draining.phase = .ending ∧
    draining.endCause.isSome = true ∧ slotText serving 14 ≠ [] ∧ (slotText serving 14).length ≤ 256 ∧
    draining.drain.isSome = true ∧ draining.goodbyePending = true ∧ draining.attach.isSome = true ∧
    draining.closedDue = true ∧ draining.closedSent = false ∧ draining.batch = [] ∧ serving.hli.ord.length < 47 ∧
    draining.copy.afterClose = .resign ∧
    ((after (.transmitterFree 3) (put serving .up draining)).callOn 3).map Call.txBuf = some (slotText serving 14) ∧
    ((after (.transmitterFree 3) (put serving .up { draining with goodbyePending := false })).line 3).st = .up ∧
    ((after (.transmitterFree 3) (put serving .up { draining with goodbyePending := false, endCause := some .idle })).line 3).st =
      .drop ∧
    ((after (.transmitterFree 3) (put serving .up { caller .connected with txBuf := [0x41], credit := 192 })).callOn 3).map
      Call.credit = some 256 := by decide +kernel

/-- HOST DATA of 1 and 256 characters, with room and with too little; for another call number. -/
theorem witness_HostDataFillsTheFreeSpace :
    Addressed (ask (put serving .up (caller .connected)) (message 0x38 [0x41] 3 7)) 0x38 (message 0x38 [0x41] 3 7) [] 3
      (caller .connected) ∧
    frameForm (message 0x38 (List.replicate 256 0) 3 7) = .wellFormed ∧ frameForm (message 0x38 [] 3 7) = .malformed ∧
    1 ≤ 256 - ({ caller .connected with txBuf := List.replicate 255 0 } : Call).txBuf.length ∧
    256 - ({ caller .connected with txBuf := List.replicate 256 0 } : Call).txBuf.length < 1 ∧
    (caller .connected).number ≠ (message 0x38 [0x41] 3 8).call :=
  ⟨{ ask_atHead _ (message 0x38 [0x41] 3 7) (by decide) with line_eq := rfl, call_eq := rfl, number_eq := rfl },
   by decide +kernel⟩

/-- A connected call with a step under way, a charged fee and output waiting. -/
def metered : Call :=
  { caller .connected with
    txBuf := [0x41]
    meter := { Meter.fresh with feeCharged := true, stepLen := 60, stepRate := 550, stepPos := 30, acc := 1799 } }

theorem witness_HostCloseClosesTheMeterAndDrains :
    Addressed (ask (put serving .up metered) (message 0x39 [] 3 7)) 0x39 (message 0x39 [] 3 7) [] 3 metered ∧
    Unlimited (ask (put serving .up metered) (message 0x39 [] 3 7)) metered (0, 0) account ∧
    metered.phase = .connected ∧ metered.endCause = none ∧ stepDue (put serving .up metered) 3 = false ∧
    metered.meter.feeCharged = true ∧ metered.batch = [] ∧ metered.txBuf ≠ [] ∧ serving.ctu.current = some exampleTariff ∧
    1 ≤ serving.soe.drainLimit.count ∧ metered.meter.stepPos ≠ 0 ∧ exampleTariff.partStep ≠ .free ∧
    ((after .hostClose (ask (put serving .up metered) (message 0x39 [] 3 7))).callOn 3).map (fun c => c.meter.charge) =
      some ((1799 + 550 * 60) / 3600 + 1) :=
  ⟨{ ask_atHead _ (message 0x39 [] 3 7) (by decide) with line_eq := rfl, call_eq := rfl, number_eq := rfl },
   ⟨by decide, by decide +kernel, by decide⟩, by decide +kernel⟩

/-! ### Witnesses: the account cache -/

/-- Sizes 0, 1, 16384 and 16385; the present size and another, in a used cache and an idle one; each frame state. -/
theorem witness_DirectorySetAndInvalidate :
    Requested (ask serving (message 0x20 [0])) 0x20 (message 0x20 [0]) [] ∧
    Requested (ask serving (message 0x22 [0])) 0x22 (message 0x22 [0]) [] ∧ serving.acc.size = 1000 ∧
    (serving.frame 0).pins ≠ 0 ∧ (∀ g, (State.reset.frame g).pins = 0) ∧
    (∀ i : SlotNo, State.reset.acc.slots[i] = none) ∧ State.reset.acc.backlog = [] ∧
    HeldBy serving 981 0 ∧ (∀ g, (serving.frame g).bucket ≠ some 16383) ∧ (serving.frame 0).st = .valid ∧
    1 ≤ (serving.frame 0).pins ∧ ((cached serving account .valid 0).frame 0).pins = 0 ∧
    ((cached serving account .refreshDue).frame 0).st = .refreshDue ∧
    ((cached serving account (.fetching .load)).frame 0).st = .fetching .load :=
  ⟨ask_requested _ (message 0x20 [0]) (by decide) (by decide), ask_requested _ (message 0x22 [0]) (by decide) (by decide),
   by decide +kernel, by decide +kernel, by decide +kernel, by decide +kernel, by decide +kernel,
   ⟨by decide +kernel, by decide +kernel⟩, by decide +kernel⟩

/-- A fetch of bucket 981 into frame 0. -/
def fetching (kind : FetchKind) (pins : Nat) (waiters : List Lookup) (timer : Option Nat) : State :=
  (cached serving account (.fetching kind) pins).setSlot 1 (some
    { bucket := 981, frame := 0, kind := kind, waiters := waiters, timer := timer })

/-- The 23 bytes of the account, of another account, and of an EMPTY entry. -/
def accountBytes : List Byte :=
  [1, 2, 2, 15, 255, 0, 4, 210, 255, 255, 255] ++ bytesOf 4 2775834589 ++ padName (ascii "KX7")
def otherBytes : List Byte := [1, 2, 2, 15, 255, 0, 0, 9, 255, 255, 255, 0, 0, 0, 0] ++ padName (ascii "AB")
def emptyBytes : List Byte := List.replicate 23 0

/-- A BUCKET DATA body for slot 1 and bucket 981. -/
def dataBody (entries : List (List Byte)) : List Byte := [1, 3, 213, 0] ++ entries.flatten

/-- The lookup of the typed name from line 3. -/
def asked : Lookup := ⟨3, 7, padName (ascii "KX7"), 981⟩

/-- The same fetch with that call waiting for it, in LOOKUP. -/
def awaited (kind : FetchKind) (pins : Nat) (timer : Option Nat) : State :=
  put (fetching kind pins [asked] timer) .up (typing .lookup)

/-- The fetch with a lookup of bucket 5 in the backlog. -/
def withBacklog : State :=
  let s := put (fetching .load 0 [] none) .up (typing .lookup)
  { s with acc := { s.acc with backlog := [{ asked with bucket := 5 }] } }

/-- Data for another bucket, UNAVAILABLE, duplicates, and a full bucket; a wait due and one not due, with a waiter. -/
theorem witness_FetchesAreFilledOrAbandoned :
    AtHead (ask (fetching .load 0 [] none) (message 0x21 (dataBody [accountBytes, otherBytes, emptyBytes, emptyBytes]))) 0x21
      (message 0x21 (dataBody [accountBytes, otherBytes, emptyBytes, emptyBytes])) [] ∧
    LoadTakes { withBacklog with acc := { withBacklog.acc with
      frames := withBacklog.acc.frames.set 0 { withBacklog.frame 0 with st := .valid } } } 1 ∧
    frameForm (message 0x21 (dataBody [])) ≠ .malformed ∧
    frameForm (message 0x21 (dataBody [accountBytes, accountBytes, emptyBytes, emptyBytes])) ≠ .malformed ∧
    (fetching .load 0 [] none).acc.slots[(1 : SlotNo)] =
      some { bucket := 981, frame := 0, kind := .load, waiters := [], timer := none } ∧
    (dataBody [accountBytes, otherBytes, emptyBytes, emptyBytes]).length = 96 ∧ (dataBody []).length = 4 ∧
    256 * byteAt (dataBody []) 1 + byteAt (dataBody []) 2 = 981 ∧
    ((fetching .merge 1 [] (some 0)).frame 0).pins = 1 ∧
    (put (fetching .load 0 [⟨3, 7, padName (ascii "KX7"), 981⟩] (some 0)) .up (typing .lookup)).callOn 3 =
      some (typing .lookup) ∧
    ((after .bucketData (ask (fetching .load 0 [] none)
      (message 0x21 (dataBody [accountBytes, otherBytes, emptyBytes, emptyBytes])))).frame 0).st = .valid ∧
    (awaited .load 0 none).callOn 3 = some (typing .lookup) ∧ (typing .lookup).endCause = none ∧
    (typing .lookup).attach = none ∧ (typing .lookup).attempts + 1 < serving.soe.attemptLimit ∧
    ((after .bucketData (ask (awaited .load 0 none)
      (message 0x21 (dataBody [otherBytes, emptyBytes, emptyBytes, emptyBytes])))).callOn 3).map Call.phase = some .name ∧
    signOnCheck (awaited .load 0 none) (typing .lookup) { account with attached := 0 } = none ∧
    ((after .bucketData (ask (awaited .load 0 none)
      (message 0x21 (dataBody [accountBytes, otherBytes, emptyBytes, emptyBytes])))).callOn 3).map Call.phase = some .opening ∧
    ((after (.directoryWaitExpiry 1) (awaited .merge 1 (some 0))).callOn 3).map Call.endCause =
      some (some .directoryUnavailable) ∧
    (withBacklog.acc.slots[(0 : SlotNo)] = none ∧        ∀ h, (withBacklog.frame h).bucket ≠ some 5) ∧
    ((after .bucketData (ask withBacklog
      (message 0x21 (dataBody [accountBytes, otherBytes, emptyBytes, emptyBytes])))).acc.slots[(0 : SlotNo)]).map
      FetchSlot.bucket = some 5 :=
  ⟨ask_atHead _ (message 0x21 (dataBody [accountBytes, otherBytes, emptyBytes, emptyBytes])) (by decide),
   .inl (by decide +kernel), by decide +kernel⟩

/-- A merge that matches the account and brings another, and one in which the account is absent. -/
theorem witness_MergeKeepsTheLiveStateOfAccounts :
    AtHead (ask (fetching .merge 1 [] none) (message 0x21 (dataBody [accountBytes, otherBytes, emptyBytes, emptyBytes]))) 0x21
      (message 0x21 (dataBody [accountBytes, otherBytes, emptyBytes, emptyBytes])) [] ∧
    (fetching .merge 1 [] none).acc.slots[(1 : SlotNo)] =
      some { bucket := 981, frame := 0, kind := .merge, waiters := [], timer := none } ∧
    ((fetching .merge 1 [] none).frame 0).pins = 1 ∧ (fetching .merge 1 [] none).entryAt (0, 0) = some account ∧
    ((entryOf accountBytes).map Entry.account = some 1234 ∧ (entryOf otherBytes).map Entry.account = some 9) ∧
    1 ≤ account.attached ∧
    ((after .bucketData (ask (fetching .merge 1 [] none)
      (message 0x21 (dataBody [emptyBytes, otherBytes, emptyBytes, emptyBytes])))).entryAt (0, 0)).map Entry.withdrawn =
      some true ∧
    ((after .bucketData (ask (awaited .merge 1 none)
      (message 0x21 (dataBody [accountBytes, otherBytes, emptyBytes, emptyBytes])))).callOn 3).map Call.phase = some .opening ∧
    ((after .bucketData (ask (awaited .merge 1 none)
      (message 0x21 (dataBody [otherBytes, emptyBytes, emptyBytes, emptyBytes])))).entryAt (0, 0)).map Entry.withdrawn =
      some true ∧
    (let s := (awaited .merge 1 none).modFrame 0 fun y => { y with
       entries := Vector.ofFn fun i => some { account with account := 20 + i.val, userName := padName (ascii "ZZ") } }
     ((after .bucketData (ask s (message 0x21 (dataBody [accountBytes, emptyBytes, emptyBytes, emptyBytes])))).callOn 3).map
       Call.endCause = some (some .directoryUnavailable)) :=
  ⟨ask_atHead _ (message 0x21 (dataBody [accountBytes, otherBytes, emptyBytes, emptyBytes])) (by decide), by decide +kernel⟩

theorem finds_account (s : State) (e : Entry) (hb : (s.frame 0).bucket = some 981) (ha : ∀ g, (s.frame g).bucket = some 981 → g = 0)
    (hv : (s.frame 0).st = .valid) (he : s.entryAt (0, 0) = some e) (hn : ∀ j : EntryNo, j ≠ 0 → s.entryAt (0, j) = none) :
    FindsAccount s 981 e.account 0 0 e :=
  { holds := hb, alone := ha, cached := .inl hv, entry := he, account_eq := rfl
    only := fun j d hj hd => by rw [hn j hj] at hd; exact nomatch hd }

/-- The account with an allowance of 100 and 40 of it charged, and a connected call on line 3. -/
def limited (warning : Nat) (grace : Interval) : State :=
  let s := put (cached serving { account with allowance := some 100, charged := 40 }) .up (caller .connected)
  { s with adm := { s.adm with
      classes := s.adm.classes.set 2 { s.adm.classes[(2 : ClassNo)] with warningLevel := warning, allowanceGrace := grace } } }

/-- The call on line 3 after an adjustment by `delta`. -/
def adjustedCall (s : State) (delta : Int) : Option Call :=
  (after (.allowanceAdjust 981 1234 delta) (ask s (message 0x23 [0]))).callOn 3

/-- R160, R161: an adjustment that leaves 50 warns at a level of 50; one that leaves 0 gives the grace, or ends the call. -/
theorem test_adjustment_reaches_the_call :
    (adjustedCall (limited 50 ⟨2, .minutes⟩) (-10)).map (fun c => c.meter.warned) = some true ∧
    (adjustedCall (limited 0 ⟨2, .minutes⟩) (-60)).map (fun c => c.pend.allowance) = some (some 120) ∧
    (adjustedCall (limited 0 ⟨0, .minutes⟩) (-60)).map Call.endCause = some (some .allowance) := by decide +kernel

/-- Amounts at the ends of their range and past them; a limited allowance, no limit, and an account not cached or not there. -/
theorem witness_AllowanceAdjustMovesTheAllowance :
    Requested (ask serving (message 0x23 [0])) 0x23 (message 0x23 [0]) [] ∧ FindsAccount serving 981 1234 0 0 account ∧
    account.allowance = none ∧ ({ account with allowance := some 100 } : Entry).allowance = some 100 ∧
    (∀ l, (serving.callOn l).bind Call.attach ≠ some (0, 0)) ∧ (∀ g, (serving.frame g).bucket ≠ some 16383) ∧
    Reached (limited 0 ⟨0, .minutes⟩) 3 (caller .connected) (0, 0) ∧ (∀ l, stepDue (limited 0 ⟨0, .minutes⟩) l = false) ∧
    HasRoom (caller .connected) [serving.soe.texts[11], numbered serving 12 2] ∧
    (∀ i e, serving.entryAt (0, i) = some e → e.account ≠ 999999) ∧ (serving.frame 0).st ≠ .fetching .load := by
  refine ⟨ask_requested _ (message 0x23 [0]) (by decide) (by decide),
    finds_account serving account (by decide +kernel) (by decide +kernel) (by decide +kernel) (by decide +kernel)
      (by decide +kernel), rfl, rfl, by decide +kernel, by decide +kernel,
    ⟨by decide +kernel, by decide, .inr (.inr rfl)⟩, by decide +kernel, by unfold HasRoom; decide +kernel, fun i e h => ?_,
    by decide +kernel⟩
  have : ∀ i : EntryNo, (serving.entryAt (0, i)).map Entry.account ≠ some 999999 := by decide +kernel
  intro he
  exact this i (by rw [h, Option.map_some, he])

theorem witness_AccountSuspendEndsTheAccountsCalls :
    Requested (ask serving (message 0x24 [0])) 0x24 (message 0x24 [0]) [] ∧
    FindsAccount (put serving .up (caller .connected)) 981 1234 0 0 account ∧
    (∀ l, stepDue (put serving .up (caller .connected)) l = false) ∧ (caller .connected).attach = some (0, 0) ∧
    ((after (.accountSuspend 981 1234) (ask (put serving .up (caller .connected)) (message 0x24 [0]))).callOn 3).map
      Call.endCause = some (some .suspended) :=
  ⟨ask_requested _ (message 0x24 [0]) (by decide) (by decide),
   finds_account (put serving .up (caller .connected)) account (by decide +kernel) (by decide +kernel) (by decide +kernel)
     (by decide +kernel) (by decide +kernel), by decide +kernel⟩

/-! ### Witnesses: admission -/

/-- Line 3 queued in class 2, with a capacity. -/
def queuedWith (capacity : Nat) : State :=
  let s := put serving .up (caller .queued)
  { s with adm := { s.adm with capacity := capacity, queues := s.adm.queues.set 2 [3] } }

/-- Capacities 32 and 33, reserves 8 and 9, one above the capacity; a class record whose group changes and whose announcements
start; a queue to be served. -/
theorem witness_ArbiterGrantsInRotationToItsEnd :
    Requested (ask (queuedWith 0) (message 0x30 [0])) 0x30 (message 0x30 [0]) [] ∧
    Requested (ask (queuedWith 0) (message 0x31 [0])) 0x31 (message 0x31 [0]) [] ∧ selectClass (queuedWith 1) = some 2 ∧
    (queuedWith 1).adm.queues[(2 : ClassNo)] = 3 :: [] ∧ (queuedWith 1).adm.classes[(2 : ClassNo)].group = .low ∧
    ¬ ({ ClassRecord.powerOn .low with fee := 256 } : ClassRecord).fee ≤ 255 ∧
    (ClassRecord.powerOn .high).group ≠ (queuedWith 1).adm.classes[(2 : ClassNo)].group ∧
    (ClassRecord.powerOn .low).announce.count ≠ 0 ∧
    ({ ClassRecord.powerOn .low with announce := ⟨0, .seconds⟩ } : ClassRecord).announce.count = 0 ∧
    (after (.capacitySet 1 0 ⟨20, .seconds⟩) (ask (queuedWith 0) (message 0x30 [0]))).adm.inUse = 1 :=
  ⟨ask_requested _ (message 0x30 [0]) (by decide) (by decide), ask_requested _ (message 0x31 [0]) (by decide) (by decide),
   by decide +kernel⟩

/-- A call in OPENING, one in ENDING whose open is outstanding, and one in CONNECTED. -/
def opening : Call := { caller .opening with slotHeld := true, openOutstanding := true }
def endingOpen : Call := { opening with phase := .ending, endCause := some .hangup }

theorem witness_OpenAcceptConnectsTheCall :
    Addressed (ask (put serving .up opening) (message 0x32 [] 3 7)) 0x32 (message 0x32 [] 3 7) [] 3 opening ∧
    Unlimited (put serving .up opening) opening (0, 0) account ∧
    Rated (put serving .up opening) opening exampleTariff 0 2 .b1200 ∧ account.warnedAtLevel = false ∧ opening.notices = [] ∧
    opening.credit = 0 ∧ opening.txBuf.length ≤ 192 ∧ serving.hli.prioWait = [] ∧ endingOpen.openOutstanding = true ∧
    (caller .connected).phase ≠ .opening ∧
    ((after .openAccept (ask (put serving .up opening) (message 0x32 [] 3 7))).callOn 3).map (fun c => c.meter.stepRate) =
      some 100 :=
  ⟨{ ask_atHead _ (message 0x32 [] 3 7) (by decide) with line_eq := rfl, call_eq := rfl, number_eq := rfl },
   ⟨by decide, by decide +kernel, by decide⟩, ⟨by decide, by decide, by decide, by decide⟩, by decide +kernel⟩

theorem witness_OpenRefuseReturnsOrEndsTheCall :
    Addressed (ask (put serving .up opening) (message 0x33 [0] 3 7)) 0x33 (message 0x33 [0] 3 7) [] 3 opening ∧
    opening.slotHeld = true ∧ opening.cls = some 2 ∧ serving.sfu.service ≠ .closing .finish ∧
    serving.adm.classes[(2 : ClassNo)].announce.count = 1 ∧
    ((after (.openRefuse .full) (ask (put serving .up opening) (message 0x33 [0] 3 7))).callOn 3).map Call.txBuf =
      some (placed (numbered serving 9 1)) ∧
    (∀ k : ClassNo, serving.adm.queues[k] = []) ∧ endingOpen.phase = .ending ∧ endingOpen.released = false ∧
    (caller .connected).phase ≠ .opening ∧
    ((after (.openRefuse .denied) (ask (put serving .up opening) (message 0x33 [0] 3 7))).callOn 3).map Call.endCause =
      some (some .hostDenied) :=
  ⟨{ ask_atHead _ (message 0x33 [0] 3 7) (by decide) with line_eq := rfl, call_eq := rfl, number_eq := rfl },
   by decide +kernel⟩

/-- Open waits due and not due, in OPENING, ENDING and CONNECTED; an announcement due and one not due. -/
theorem witness_OpenWaitAndAnnouncementExpire :
    (put serving .up { opening with openWait := some 0 }).callOn 3 = some { opening with openWait := some 0 } ∧
    opening.cls = some 2 ∧ opening.openWait ≠ some 0 ∧ opening.endCause = none ∧ endingOpen.released = false ∧
    (queuedWith 0).adm.queues[(2 : ClassNo)] = [] ++ 3 :: [] ∧
    (∀ j : ClassNo, j ≠ 2 → 3 ∉ (queuedWith 0).adm.queues[j]) ∧
    ({ caller .queued with announce := some 0 } : Call).announce = some 0 ∧ (caller .opening).phase ≠ .queued ∧
    ((after (.openWaitExpiry 3) (put serving .up { opening with openWait := some 0 })).callOn 3).map Call.endCause =
      some (some .hostTimeout) := by decide +kernel

/-! ### Witnesses: the calendar and the meter -/

/-- The account kept to bands 0 and 1, with a connected call on line 3 and a grace. -/
def banded (grace : Interval) : State :=
  let s := put (cached serving { account with bandMask := 3 }) .up (caller .connected)
  { s with adm := { s.adm with classes := s.adm.classes.set 2 { s.adm.classes[(2 : ClassNo)] with hoursGrace := grace } } }

/-- The call on line 3 after the clock is set to Monday at an hour. -/
def callAt (s : State) (hour : Nat) : Option Call := (after (.clockSet 0 hour 0 0) (ask s (message 0x40 [0]))).callOn 3

/-- R143: at 18:00 band 2 starts, which the account excludes; at 09:00 band 1, which it admits and which removes the cause. -/
theorem test_band_change_reaches_the_call :
    (callAt (banded ⟨5, .minutes⟩) 18).map (fun c => c.pend.hours) = some (some 300) ∧
    (callAt (banded ⟨0, .minutes⟩) 18).map Call.endCause = some (some .hours) ∧
    (callAt ((banded ⟨5, .minutes⟩).setLine 3 { (banded ⟨5, .minutes⟩).line 3 with
      call := some { caller .connected with pend := ⟨none, none, some 9⟩ } }) 9).map (fun c => c.pend.hours) = some none := by
  decide +kernel

/-- Each clock field at its last value and past it; an activation reached and one not; a minute change due and not due. -/
theorem witness_ClockSetAndMinuteChangeEvaluate :
    Requested (ask serving (message 0x40 [0])) 0x40 (message 0x40 [0]) [] ∧ serving.ctu.minuteDue = false ∧
    ({ serving.ctu with minuteDue := true } : Ctu).minuteDue = true ∧
    (after (.clockSet 6 23 59 59) (ask serving (message 0x40 [0]))).ctu.band = some 2 ∧
    (after (.clockSet 7 0 0 0) (ask serving (message 0x40 [0]))).ctu = serving.ctu ∧
    Reached (banded ⟨5, .minutes⟩) 3 (caller .connected) (0, 0) ∧
    Unlimited (banded ⟨5, .minutes⟩) (caller .connected) (0, 0) { account with bandMask := 3 } ∧
    HasRoom (caller .connected) [numbered serving 13 5] ∧
    (after (.clockSet 1 18 0 0) (ask { serving with ctu := { serving.ctu with
      waiting := some { exampleTariff with activation := .timed, actDay := 1, actMinute := 1080 } } }
      (message 0x40 [0]))).ctu.generation = 2 :=
  ⟨ask_requested _ (message 0x40 [0]) (by decide) (by decide), by decide +kernel, by decide +kernel, by decide +kernel,
   by decide +kernel, ⟨by decide +kernel, by decide, .inr (.inr rfl)⟩, ⟨by decide, by decide +kernel, by decide⟩,
   by unfold HasRoom; decide +kernel, by decide +kernel⟩

/-- A band at its first minute and the minute before; a window from Sunday 23:59 of two minutes, in and past its end. -/
theorem witness_BandAndWindowStatesFollowTheClock :
    [539, 540, 1079, 1080, 1439].map (bandAt exampleTariff) = [some 0, some 1, some 1, some 2, some 2] ∧
    (let w : Window := { dayMask := 64, start := 1439, length := 2, classMask := 4, isOpen := false }
     [10078, 10079, 0, 1].map (windowCovers w) = [false, true, true, false]) := by decide +kernel

theorem witness_TariffsAreLoadedAndSwitched :
    Requested (ask serving (message 0x41 (List.replicate 62 0))) 0x41 (message 0x41 (List.replicate 62 0)) [] ∧
    Requested (ask serving (message 0x42 [])) 0x42 (message 0x42 []) [] ∧ tariffBad exampleTariff = none ∧
    tariffBad { exampleTariff with tier1 := 120 } = some 7 ∧ tariffBad { exampleTariff with stepLength := 61 } = some 15 ∧
    serving.ctu.waiting = none ∧
    ({ serving.ctu with waiting := some exampleTariff } : Ctu).waiting = some exampleTariff ∧
    Reached (banded ⟨0, .minutes⟩) 3 (caller .connected) (0, 0) ∧ stepDue (banded ⟨0, .minutes⟩) 3 = false ∧
    (caller .connected).cls = some 2 ∧ (3 : BitVec 8).getLsbD 2 = false ∧ (3 : BitVec 8).getLsbD 1 = true :=
  ⟨ask_requested _ (message 0x41 (List.replicate 62 0)) (by decide) (by decide),
   ask_requested _ (message 0x42 []) (by decide) (by decide), by decide +kernel, by decide +kernel, by decide +kernel,
   by decide +kernel, by decide +kernel, ⟨by decide +kernel, by decide, .inr (.inr rfl)⟩, by decide +kernel⟩

/-- Class 2 barred, and its connected call with the WINDOW cause. -/
def barred : State :=
  put { serving with ctu := { serving.ctu with barred := 4 } } .up { caller .connected with pend := ⟨none, some 60, none⟩ }

/-- Starts 1439 and 1440, lengths 1440 and 1441; a queued call of class 2, one in OPENING and a connected one; a release. -/
theorem witness_WindowSetBarsItsClasses :
    Requested (ask (queuedWith 0) (message 0x43 [0])) 0x43 (message 0x43 [0]) [] ∧
    Reached (queuedWith 0) 3 (caller .queued) (0, 0) ∧ (caller .queued).endCause = none ∧
    Unlimited (queuedWith 0) (caller .queued) (0, 0) account ∧ (caller .queued).cls = some 2 ∧
    (queuedWith 0).ctu.barred.getLsbD 2 = false ∧ 1 ≤ (queuedWith 0).adm.classes[(2 : ClassNo)].hoursGrace.count ∧
    ((after (.windowSet 0 127 1439 1440 4) (ask (queuedWith 0) (message 0x43 [0]))).callOn 3).map Call.endCause =
      some (some .window) ∧
    ((after (.windowSet 0 127 0 1440 4) (ask (put serving .up (caller .connected)) (message 0x43 [0]))).callOn 3).map
      (fun c => c.pend.window) = some (some 300) ∧
    ((after (.windowSet 0 127 0 1440 4) (ask (put serving .up (caller .opening)) (message 0x43 [0]))).callOn 3).map
      (fun c => (c.phase, c.pend.window, c.txBuf)) = some (.opening, some 300, placed (numbered serving 13 5)) ∧
    HasRoom (caller .opening) [numbered serving 13 5] ∧ barred.ctu.barred.getLsbD 2 = true ∧
    ((after (.windowSet 0 127 0 0 4) (ask barred (message 0x43 [0]))).callOn 3).map (fun c => c.pend) =
      some ⟨none, none, none⟩ :=
  ⟨ask_requested _ (message 0x43 [0]) (by decide) (by decide), ⟨by decide +kernel, by decide, .inl rfl⟩, by decide,
   ⟨by decide, by decide +kernel, by decide⟩, by decide +kernel, by decide +kernel, by decide +kernel, by decide +kernel,
   by decide +kernel, by decide +kernel, by unfold HasRoom; decide +kernel, by decide +kernel, by decide +kernel⟩

/-- The last second of the week; calls in UP, FADE and QUEUED. -/
theorem witness_OneSecondEventCountsEverything :
    (∀ l, stepDue (put serving .up metered) l = false) ∧ serving.ctu.isSet = true ∧ serving.ctu.day ≤ 6 ∧
    ({ serving.ctu with day := 6, hour := 23, minute := 59, second := 59 } : Ctu).second = 59 ∧
    ((put serving .up metered).line 3).call = some metered ∧
    ((after .oneSecondEvent (put serving .up metered)).callOn 3).map (fun c => c.meter.stepPos) = some 31 := by decide +kernel

/-- A step one second short and one complete; each tier and both limits of the rate. -/
theorem witness_CompleteStepIsChargedAtItsRate :
    stepDue (put serving .up { metered with meter := { metered.meter with stepPos := 59 } }) 3 = false ∧
    Unlimited (put serving .up metered) metered (0, 0) account ∧
    Rated (put serving .up metered) metered exampleTariff 0 2 .b1200 ∧ metered.phase = .connected ∧
    1 ≤ metered.meter.stepLen ∧ ({ metered.meter with stepPos := 60 } : Meter).stepPos = metered.meter.stepLen ∧
    exampleTariff.tier2 * 60 ≤ 7200 ∧ 7199 < exampleTariff.tier2 * 60 ∧ exampleTariff.tier1 * 60 ≤ 3600 ∧
    3599 < exampleTariff.tier1 * 60 ∧ exampleTariff.floor ≤ 4095 ∧
    ((after (.stepCompletion 3) (put serving .up { metered with meter := { metered.meter with stepPos := 60 } })).callOn 3).map
      (fun c => (c.meter.charge, c.meter.acc, c.meter.stepPos)) = some (9, 2399, 0) :=
  ⟨by decide +kernel, ⟨by decide, by decide +kernel, by decide⟩, ⟨by decide, by decide, by decide, by decide⟩,
   by decide +kernel⟩

/-! ### Witnesses: rules of the whole part -/

theorem witness_SettingsChangeOnlyByTheirRequests :
    Completes (.outboundHoldChange true) serving { serving with hli := { serving.hli with outHold := true } } := rfl

/-- A part with one connected call and a command waiting. -/
def running : State :=
  { put serving .up { caller .connected with slotHeld := true } with
    adm := { serving.adm with inUse := 1 }, nextCall := 8, pending := [.transmitterFree 3] }

theorem running_call {l : LineNo} {c : Call} (h : running.callOn l = some c) :
    l = 3 ∧ c = { caller .connected with slotHeld := true } := by
  have e : ∀ l, running.callOn l = if l = 3 then some { caller .connected with slotHeld := true } else none := by
    decide +kernel
  rw [e l] at h
  split at h
  · next hl => exact ⟨hl, (Option.some.inj h).symm⟩
  · exact nomatch h

theorem witness_EveryStepKeepsCallNumbersDistinct : NumbersDistinct running :=
  ⟨by decide, fun l c h => by obtain ⟨-, rfl⟩ := running_call h; decide,
   fun l m c d h k _ => (running_call h).1.trans (running_call k).1.symm⟩

theorem witness_EveryStepKeepsLinesCallsAndSlots : LinesFit running ∧ SlotsCounted running :=
  ⟨fun l => (by decide +kernel : ∀ l, (running.line l).fits = true) l,
   { count := by decide +kernel, most := by decide, capacity := by decide
     flag := fun l c h _ => by obtain ⟨-, rfl⟩ := running_call h; decide
     attached := fun l c h hp => by obtain ⟨-, rfl⟩ := running_call h; exact absurd hp (by decide)
     unattached := fun l c h hp => by obtain ⟨-, rfl⟩ := running_call h; exact absurd hp (by decide)
     queued := by decide +kernel, held := by decide, once := by decide }⟩

theorem witness_EveryStepKeepsTheBounds :
    step running = .next (after (.transmitterFree 3) { running with pending := [] }) ∧ LinkBounds running ∧
    StoreBounds running ∧ BuffersBounded running ∧ LinesFit running ∧ SlotsCounted running ∧ CreditBounded running :=
  ⟨rfl, ⟨by decide, by decide, by decide, by decide, by decide⟩, ⟨by decide, by decide, by decide⟩,
   fun l c h => by obtain ⟨-, rfl⟩ := running_call h; exact ⟨by decide, by decide, by decide, by decide, by decide, by decide⟩,
   witness_EveryStepKeepsLinesCallsAndSlots.1, witness_EveryStepKeepsLinesCallsAndSlots.2,
   fun l c h => by obtain ⟨-, rfl⟩ := running_call h; decide⟩

end Sys2Proof.Tests
end

section
namespace Sys2Proof.Machine

/-! ### Reading bytes, high byte first -/

theorem field_zero (bytes : List Byte) (i : Nat) : field bytes i 0 = [] := List.take_zero

theorem field_succ {bytes : List Byte} {i : Nat} (h : i < bytes.length) (k : Nat) :
    field bytes i (k + 1) = bytes.getD i 0 :: field bytes (i + 1) k := by
  rw [field, List.drop_eq_getElem_cons h, List.take_succ_cons, List.getD_eq_getElem bytes 0 h, field]

theorem numberOf_field_one {bytes : List Byte} {i : Nat} (h : i < bytes.length) :
    numberOf (field bytes i 1) = byteAt bytes i := by
  rw [field_succ h 0, field_zero]
  simp [numberOf, byteAt]

theorem numberOf_field_two {bytes : List Byte} {i : Nat} (h : i + 1 < bytes.length) :
    numberOf (field bytes i 2) = 256 * byteAt bytes i + byteAt bytes (i + 1) := by
  rw [field_succ (Nat.lt_of_succ_lt h) 1, field_succ h 0, field_zero]
  simp [numberOf, byteAt, Nat.mul_comm]

/-! ### The link checks of Table 1.1 -/

/-- The saturation of the byte count (R2) does not reach the counts that the checks compare it with. -/
theorem byteCount_eq_iff (bytes : List Byte) {k : Nat} (h : k < 65535) : byteCount bytes = k ↔ bytes.length = k := by
  unfold byteCount
  omega

theorem byteCount_lt_iff (bytes : List Byte) {k : Nat} (h : k ≤ 65535) : byteCount bytes < k ↔ bytes.length < k := by
  unfold byteCount
  omega

/-- The checks on the frame's length itself, the saturating count left out. -/
theorem linkCheck_eq (bytes : List Byte) : linkCheck bytes =
    if bytes.length < 8 then some 1
    else if 288 < bodyLength bytes then some 2
    else if bytes.length ≠ 8 + bodyLength bytes then some 3
    else if (crc (bytes.take (6 + bodyLength bytes))).toNat ≠ numberOf (field bytes (6 + bodyLength bytes) 2) then some 4
    else none := by
  unfold linkCheck
  simp only [byteCount_lt_iff bytes (show 8 ≤ 65535 by decide)]
  by_cases hn : 288 < bodyLength bytes
  · simp only [hn, if_true]
  · simp only [hn, if_false, ne_eq, byteCount_eq_iff bytes (show 8 + bodyLength bytes < 65535 by omega)]

theorem linkCheck_short {bytes : List Byte} (h : bytes.length < 8) : linkCheck bytes = some 1 := by
  rw [linkCheck_eq, if_pos h]

theorem linkCheck_bodyTooLong {bytes : List Byte} (h : 8 ≤ bytes.length) (hn : 288 < bodyLength bytes) :
    linkCheck bytes = some 2 := by
  rw [linkCheck_eq, if_neg (Nat.not_lt.2 h), if_pos hn]

theorem linkCheck_wrongCount {bytes : List Byte} (h : 8 ≤ bytes.length) (hn : bodyLength bytes ≤ 288)
    (hc : bytes.length ≠ 8 + bodyLength bytes) : linkCheck bytes = some 3 := by
  rw [linkCheck_eq, if_neg (Nat.not_lt.2 h), if_neg (Nat.not_lt.2 hn), if_pos hc]

/-- With the right count the CRC alone decides. -/
theorem linkCheck_of_count {bytes : List Byte} (hn : bodyLength bytes ≤ 288) (hc : bytes.length = 8 + bodyLength bytes) :
    linkCheck bytes =
      if (crc (bytes.take (6 + bodyLength bytes))).toNat ≠
        256 * byteAt bytes (6 + bodyLength bytes) + byteAt bytes (7 + bodyLength bytes) then some 4 else none := by
  have hcrc := numberOf_field_two (show 6 + bodyLength bytes + 1 < bytes.length by omega)
  rw [show 6 + bodyLength bytes + 1 = 7 + bodyLength bytes by omega] at hcrc
  rw [linkCheck_eq, if_neg (by omega), if_neg (Nat.not_lt.2 hn), if_neg (not_not.2 hc), hcrc]

theorem bodyLength_eq {bytes : List Byte} (h : 8 ≤ bytes.length) :
    bodyLength bytes = 256 * byteAt bytes 4 + byteAt bytes 5 :=
  numberOf_field_two (by omega)

theorem frameOf_eq {bytes : List Byte} (h : 8 ≤ bytes.length) : frameOf bytes =
    { code := byteAt bytes 0, tag := byteAt bytes 1, call := 256 * byteAt bytes 2 + byteAt bytes 3
      body := (bytes.drop 6).take (bodyLength bytes) } := by
  have hcall : numberOf (field bytes 2 2) = 256 * byteAt bytes 2 + byteAt bytes 3 := numberOf_field_two (by omega)
  have hcode : numberOf (field bytes 0 1) = byteAt bytes 0 := numberOf_field_one (by omega)
  have htag : numberOf (field bytes 1 1) = byteAt bytes 1 := numberOf_field_one (by omega)
  rw [frameOf, hcode, htag, hcall, field]

/-! ### The end of a received frame -/

/-- The end of a frame begun without the hold is `endFrame` (R5). -/
theorem inboundFrameEnd_received {s : State} (bytes : List Byte) (hrx : s.hli.rx = .receiving) :
    Completes (.inboundFrameEnd bytes) s (endFrame s bytes) := by
  change execInboundFrameEnd bytes s = .next (endFrame s bytes)
  rw [execInboundFrameEnd, hrx]

/-- A frame that fails a check is discarded, counted and reported with the check's detail (R5). -/
theorem inboundFrameEnd_failed {s : State} {bytes : List Byte} {detail : Nat} (hrx : s.hli.rx = .receiving)
    (hc : linkCheck bytes = some detail) :
    Completes (.inboundFrameEnd bytes) s
      (raiseFault { s with hli := { s.hli with rx := .idle, linkFrames := oneMore s.hli.linkFrames } }
        .linkFrame none none detail) := by
  have ends := inboundFrameEnd_received bytes hrx
  rw [endFrame, hc] at ends
  exact ends

/-- A frame that passes every check goes to the tail of the inbound queue (R5). -/
theorem inboundFrameEnd_passed {s : State} {bytes : List Byte} (hrx : s.hli.rx = .receiving)
    (hc : linkCheck bytes = none) :
    Completes (.inboundFrameEnd bytes) s
      { s with hli := { s.hli with rx := .idle, inQueue := s.hli.inQueue ++ [frameOf bytes] } } := by
  have ends := inboundFrameEnd_received bytes hrx
  rw [endFrame, hc] at ends
  exact ends

/-- Settles O3: the outcome of `linkCheck` is worked out for each row of Table 1.1 and for a frame that passes them all;
what the command does then depends on that outcome alone. -/
theorem inboundFrameIsCheckedAndQueued : Obligations.InboundFrameIsCheckedAndQueued := by
  intro s bytes hrx n bad sent
  have hlen (h : 8 ≤ bytes.length) : bodyLength bytes = n := bodyLength_eq h
  have hlast (hn : n ≤ 288) (hc : bytes.length = 8 + n) :
      linkCheck bytes = if (crc (bytes.take (6 + n))).toNat ≠ sent then some 4 else none := by
    have e : bodyLength bytes = n := hlen (by omega)
    have check := linkCheck_of_count (bytes := bytes) (by rwa [e]) (by rwa [e])
    rwa [e] at check
  refine ⟨fun short => ?short, fun h8 tooLong => ?bodyTooLong, fun h8 hn hc => ?wrongCount,
    fun hn hc hcrc => ?wrongCrc, fun hn hc hcrc => ?passed⟩
  case short => exact inboundFrameEnd_failed hrx (linkCheck_short short)
  case bodyTooLong => exact inboundFrameEnd_failed hrx (linkCheck_bodyTooLong h8 (by rwa [hlen h8]))
  case wrongCount =>
    exact inboundFrameEnd_failed hrx (linkCheck_wrongCount h8 (by rwa [hlen h8]) (by rwa [hlen h8]))
  case wrongCrc => exact inboundFrameEnd_failed hrx (by rw [hlast hn hc, if_pos hcrc])
  case passed =>
    have queued := inboundFrameEnd_passed hrx (by rw [hlast hn hc, if_neg (not_not.2 hcrc)])
    have h8 : 8 ≤ bytes.length := by omega
    rwa [frameOf_eq h8, hlen h8] at queued

end Sys2Proof.Machine
end

section
namespace Sys2Proof.Machine

/-! ### A request that is checked field by field (R7, R9, R10) -/

/-- A request that can be taken is carried out on the state that holds its place for the REPLY, which then takes the
answer (R9). -/
theorem takeReplied_eq {s : State} {code : Nat} {f : InFrame} {rest : List InFrame} (h : Requested s code f rest)
    (r : isReplied code = true) (carry : InFrame → State → State × Answer) :
    takeReplied s code carry =
      setPriority (carry f (afterReply s f rest .format)).1 s.hli.prio.length
        (replyTo f (carry f (afterReply s f rest .format)).2) := by
  rw [takeReplied, takeFrame_replied h r]
  rfl

theorem setPriority_afterReply (s : State) (f : InFrame) (rest : List InFrame) (a b : Answer) :
    setPriority (afterReply s f rest a) s.hli.prio.length (replyTo f b) = afterReply s f rest b := by
  simp [setPriority, afterReply]

theorem checked_none (s : State) (carry : State → State × Answer) : checked none s carry = carry s := rfl

/-- A request with a field out of range is answered BAD VALUE and does nothing else (R10). -/
theorem takeReplied_bad {s : State} {code : Nat} {f : InFrame} {rest : List InFrame} (h : Requested s code f rest)
    (r : isReplied code = true) (bad : InFrame → Option Nat) (carry : InFrame → State → State × Answer) {i : Nat}
    (hb : bad f = some i) :
    takeReplied s code (fun f s => checked (bad f) s (carry f)) = afterReply s f rest (.refused .badValue (.index i)) := by
  rw [takeReplied_eq h r, hb]
  exact setPriority_afterReply s f rest _ _

/-- A request with every field in range that changes the Sign-On Engine alone. -/
theorem takeReplied_soe {s : State} {code : Nat} {f : InFrame} {rest : List InFrame} (h : Requested s code f rest)
    (r : isReplied code = true) (bad : InFrame → Option Nat) (effect : InFrame → Soe → Soe) (a : Answer)
    (hb : bad f = none) :
    takeReplied s code (fun f s => checked (bad f) s fun s => ({ s with soe := effect f s.soe }, a)) =
      { afterReply s f rest a with soe := effect f s.soe } := by
  rw [takeReplied_eq h r, hb, checked_none, ← setPriority_afterReply s f rest .format a]
  rfl

/-! ### TEXT LOAD (R58) and DIALOGUE SET (R74) -/

/-- The form of a TEXT LOAD (R58). -/
theorem bodyForm_textLoad (body : List Byte) :
    bodyForm 0x14 body =
      if 2 ≤ body.length ∧ body.length = 2 + byteAt body 1 then .wellFormed else .malformed := by
  by_cases h : 2 ≤ body.length
  · simp only [bodyForm, numberOf_field_one (show 1 < body.length by omega)]
  · simp only [bodyForm, h, false_and, if_false]

theorem catalogueRow_textLoad : catalogueRow 0x14 = some ⟨0x14, false, false, true⟩ := by decide

theorem frameForm_textLoad {f : InFrame} (hcode : f.code = 0x14) (htag : f.tag = 255) (hcall : f.call = 0) :
    frameForm f = bodyForm 0x14 f.body := by
  simp [frameForm, hcode, catalogueRow_textLoad, headerOk, htag, hcall]

/-- A TEXT LOAD that is not malformed has its slot byte. -/
theorem textLoad_body_length {f : InFrame} (hcode : f.code = 0x14) (h : frameForm f ≠ .malformed) :
    2 ≤ f.body.length := by
  by_contra short
  have malformed : bodyForm 0x14 f.body = .malformed := by
    rw [bodyForm_textLoad, if_neg fun right => short right.1]
  exact h (by simp [frameForm, hcode, catalogueRow_textLoad, malformed])

/-- R58: the character set of a text and its one mark. -/
theorem textChars_ok_iff (chars : List Byte) :
    (chars.all (fun c => decide (0x20 ≤ c) && decide (c ≤ 0x7E)) && decide (chars.count chHash ≤ 1)) = true ↔
      ¬ ((∃ ch ∈ chars, ch < 0x20 ∨ 0x7E < ch) ∨ 1 < chars.count 0x23) := by
  rw [Bool.and_eq_true, decide_eq_true_iff, not_or, not_lt]
  exact and_congr_left' (by simp)

theorem textLoadBad_slot {slot : Nat} (chars : List Byte) (h : 23 < slot) : textLoadBad slot chars = some 0 := by
  simp [textLoadBad, firstBad, Nat.not_le.2 h]

theorem textLoadBad_length {slot : Nat} {chars : List Byte} (h : slot ≤ 23) (hl : 80 < chars.length) :
    textLoadBad slot chars = some 1 := by
  simp [textLoadBad, firstBad, h, Nat.not_le.2 hl]

/-- With slot and length in range the characters alone decide. -/
theorem textLoadBad_chars {slot : Nat} {chars : List Byte} (h : slot ≤ 23) (hl : chars.length ≤ 80) :
    textLoadBad slot chars =
      if (∃ ch ∈ chars, ch < 0x20 ∨ 0x7E < ch) ∨ 1 < chars.count 0x23 then some 2 else none := by
  simp only [textLoadBad, firstBad, h, hl, decide_true, if_true, textChars_ok_iff, ite_not]

theorem intervalOk_iff (i : Interval) : intervalOk i = true ↔ i.count ≤ 63 := by simp [intervalOk]

/-- R74: DIALOGUE SET's ranges, field by field. -/
theorem dialogueSetBad_eq (limit : Nat) (fieldTime drain : Interval) : dialogueSetBad limit fieldTime drain =
    if ¬ (1 ≤ limit ∧ limit ≤ 7) then some 0 else if ¬ fieldTime.count ≤ 63 then some 1
    else if ¬ drain.count ≤ 63 then some 2 else none := by
  simp only [dialogueSetBad, firstBad, intervalOk_iff, Bool.and_eq_true, decide_eq_true_eq, ite_not]

/-- An empty text places nothing and queues nothing (R59, R130). -/
theorem textChars_empty {s : State} {slot : Fin 24} (n : Option Nat) (h : s.soe.texts[slot] = []) :
    textChars s slot n = [] := by
  cases n <;> simp [textChars, h, substituteHash]

/-- Settles O27: each command is a checked request, so its outcome is what the range checks give. -/
theorem textsAndDialogueSettingsAreReplaced : Obligations.TextsAndDialogueSettingsAreReplaced := by
  refine ⟨fun f hcode htag hcall => ?form, fun s f rest h => ?textLoad, fun s l slot n empty => ?emptyText,
    fun s f rest limit fieldTime drain h => ?dialogueSet⟩
  case form =>
    intro right
    rw [frameForm_textLoad hcode htag hcall, bodyForm_textLoad]
    exact ⟨fun h => if_pos h, fun h => if_neg h⟩
  case textLoad =>
    intro slot chars bad
    have hslot : textSlot f.body = slot :=
      numberOf_field_one (by have := textLoad_body_length h.code_eq h.form; omega)
    have refused {i : Nat} (hb : textLoadBad slot chars = some i) :
        OnlyAnswers .textLoad s f rest (.refused .badValue (.index i)) :=
      congrArg Host.Outcome.next (takeReplied_bad h (by decide)
        (fun f => textLoadBad (textSlot f.body) (textBody f.body)) _ (by rw [hslot]; exact hb))
    refine ⟨fun big => refused (textLoadBad_slot chars big), fun hs long => refused (textLoadBad_length hs long),
      fun hs hl hbad => refused (by rw [textLoadBad_chars hs hl]; exact if_pos hbad), fun hs hl hgood => ?_⟩
    refine ⟨s.soe.texts.set (Fin.ofNat 24 (textSlot f.body)) (textBody f.body), ?_, fun i => ?_⟩
    · exact congrArg Host.Outcome.next (takeReplied_soe h (by decide)
        (fun f => textLoadBad (textSlot f.body) (textBody f.body))
        (fun f soe => { soe with texts := soe.texts.set (Fin.ofNat 24 (textSlot f.body)) (textBody f.body) })
        (.done .none) (by rw [hslot, textBody, textLoadBad_chars hs hl]; exact if_neg hgood))
    · have hval : (Fin.ofNat 24 (textSlot f.body)).val = slot := by
        rw [hslot]
        exact Nat.mod_eq_of_lt (by omega)
      simp only [Fin.getElem_fin, Vector.getElem_set, hval, eq_comm (a := slot), textBody, chars]
  case emptyText => simp [placeText, queueNotice, textChars_empty n empty]
  case dialogueSet =>
    intro c
    have refused {i : Nat} (hb : dialogueSetBad limit fieldTime drain = some i) :
        OnlyAnswers c s f rest (.refused .badValue (.index i)) :=
      congrArg Host.Outcome.next (takeReplied_bad h (by decide) (fun _ => dialogueSetBad limit fieldTime drain) _ hb)
    refine ⟨fun hl => refused ?limit, fun h1 h7 hf => refused ?fieldTime, fun h1 h7 hf hd => refused ?drain,
      fun h1 h7 hf hd => ?done⟩
    case limit => rw [dialogueSetBad_eq, if_pos (by omega)]
    case fieldTime => rw [dialogueSetBad_eq, if_neg (by omega), if_pos (by omega)]
    case drain => rw [dialogueSetBad_eq, if_neg (by omega), if_neg (by omega), if_pos (by omega)]
    case done =>
      exact congrArg Host.Outcome.next (takeReplied_soe h (by decide) (fun _ => dialogueSetBad limit fieldTime drain)
        (fun _ soe => { soe with attemptLimit := limit, fieldTimeout := fieldTime, drainLimit := drain }) (.done .none)
        (by rw [dialogueSetBad_eq, if_neg (by omega), if_neg (by omega), if_neg (by omega)]))

end Sys2Proof.Machine
end

section
namespace Sys2Proof.Machine

/-! ### What a character that is heard leaves in its call's record -/

@[simp] theorem callOn_heard (s : State) (l : LineNo) (d : Call) : (heard s l d).callOn l = some d :=
  State.callOn_setLine_self s l _

@[simp] theorem soe_heard (s : State) (l : LineNo) (d : Call) : (heard s l d).soe = s.soe := rfl

@[simp] theorem sfu_heard (s : State) (l : LineNo) (d : Call) : (heard s l d).sfu = s.sfu := rfl

theorem heard_othersKept (s : State) (l : LineNo) (d : Call) : OtherLinesKept s (heard s l d) l :=
  fun _ h => State.line_setLine_ne s _ h

@[simp] theorem modCall_heard (s : State) (l : LineNo) (d : Call) (f : Call → Call) :
    (heard s l d).modCall l f = heard s l (f d) := by
  rw [State.modCall_some f (callOn_heard s l d)]
  simp [heard]

@[simp] theorem soe_parityCounted (s : State) (l : LineNo) (f : DataFormat) (bits : Byte) (parity : Bool) :
    (parityCounted s l f bits parity).soe = s.soe := by
  simp only [parityCounted]
  split <;> rfl

@[simp] theorem sfu_parityCounted (s : State) (l : LineNo) (f : DataFormat) (bits : Byte) (parity : Bool) :
    (parityCounted s l f bits parity).sfu = s.sfu := by
  simp only [parityCounted]
  split <;> rfl

theorem parityCounted_othersKept (s : State) (l : LineNo) (f : DataFormat) (bits : Byte) (parity : Bool) :
    OtherLinesKept s (parityCounted s l f bits parity) l := by
  intro m h
  simp only [parityCounted]
  split
  · exact State.line_setLine_ne s _ h
  · rfl

/-- Receive data falls with the start bit whether or not a parity error is counted; the call's record is as it was. -/
theorem parityCounted_lowered {s : State} {l : LineNo} {c : Call} (hc : s.callOn l = some c) (f : DataFormat) (bits : Byte)
    (parity : Bool) :
    parityCounted (s.modLine l fun x => { x with rxLow := false }) l f bits parity =
      heard (parityCounted s l f bits parity) l c := by
  rw [State.callOn_eq] at hc
  simp only [parityCounted, heard]
  split <;> simp [State.modLine, hc]

/-- A high stop bit delivers its character to the call that the line hears (R41, R42, R44). -/
theorem receivedCharacter_heard {s : State} {l : LineNo} {c : Call} (h : Hears s l c) (bits : Byte) (parity : Bool) :
    Completes (.receivedCharacter l bits parity true) s
      (deliverCharacter (heard (parityCounted s l c.copy.format bits parity) l c) l
        (delivered c.copy.format bits parity)) := by
  change execReceivedCharacter l bits parity true s = _
  simp only [execReceivedCharacter, h.call_eq, h.up, h.no_wait, h.no_zero, and_self, if_true, goodStop_eq,
    parityCounted_lowered h.call_eq]

/-! ### Characters placed for a call that is heard (R59) -/

/-- The state in which characters have been placed for the call, which was heard and had become `d`: whole in its transmit
buffer, or dropped and counted (R59). -/
def heardPlacing (s : State) (l : LineNo) (d : Call) (chars : List Byte) : State :=
  if chars = [] ∨ d.txBuf.length + chars.length ≤ 256 then heard s l { d with txBuf := d.txBuf ++ chars }
  else { heard s l d with soe := { s.soe with textDrops := oneMore s.soe.textDrops } }

theorem placeChars_heard (s : State) (l : LineNo) (d : Call) {chars : List Byte} (h : chars ≠ []) :
    placeChars (heard s l d) l chars = heardPlacing s l d chars := by
  simp only [placeChars, callOn_heard, modCall_heard, heardPlacing, h, false_or]
  rfl

theorem placeText_heard (s : State) (l : LineNo) (d : Call) (slot : Fin 24) :
    placeText (heard s l d) l slot = heardPlacing s l d (slotText s slot) := by
  have text : textChars (heard s l d) slot none = s.soe.texts[slot] := rfl
  by_cases empty : s.soe.texts[slot] = []
  · simp [placeText, text, empty, heardPlacing, slotText, placed]
  · simp only [placeText, text, empty, if_false, slotText, placed]
    exact placeChars_heard s l d (List.cons_ne_nil _ _)

/-- Placing characters changes no field of the record but the transmit buffer. -/
theorem callOn_heardPlacing (s : State) (l : LineNo) (d : Call) (chars : List Byte) :
    ∃ buf, (heardPlacing s l d chars).callOn l = some { d with txBuf := buf } := by
  unfold heardPlacing
  split
  · exact ⟨_, callOn_heard s l _⟩
  · exact ⟨d.txBuf, callOn_heard s l d⟩

theorem heardPlacing_othersKept (s : State) (l : LineNo) (d : Call) (chars : List Byte) :
    OtherLinesKept s (heardPlacing s l d chars) l := by
  unfold heardPlacing
  split
  · exact heard_othersKept s l _
  · exact heard_othersKept s l d

/-- The two outcomes of placing characters, as the statements about the fields give them. -/
theorem completes_placing {cmd : Instr} {s s' : State} {l : LineNo} {d : Call} {chars : List Byte} (hsoe : s'.soe = s.soe)
    (h : Completes cmd s (heardPlacing s' l d chars)) :
    if chars = [] ∨ d.txBuf.length + chars.length ≤ 256 then
      Completes cmd s (heard s' l { d with txBuf := d.txBuf ++ chars })
    else Completes cmd s { heard s' l d with soe := { s.soe with textDrops := oneMore s.soe.textDrops } } := by
  unfold heardPlacing at h
  rw [hsoe] at h
  split
  · next room => rwa [if_pos room] at h
  · next full => rwa [if_neg full] at h

/-! ### The kinds of character in a field (R62) -/

theorem isDiscarded_iff (ch : Byte) : isDiscarded ch = true ↔ ch = 0x0A ∨ ch = 0x11 ∨ ch = 0x13 := by
  rw [isDiscarded, Bool.or_eq_true, Bool.or_eq_true, decide_eq_true_iff, decide_eq_true_iff, decide_eq_true_iff, or_assoc]
  rfl

/-- What a field does with a character, by its kind: CR, one that is discarded, BS or DEL, CAN, or one of the field's own
text. -/
def byKind {α : Type} (ch : Byte) (cr discard erase cancel input : α) : α :=
  if ch = chCR then cr else if isDiscarded ch then discard else if ch = chBS ∨ ch = chDEL then erase
  else if ch = chCAN then cancel else input

section
variable {α : Type} {ch : Byte} {cr discard erase cancel input : α}

theorem byKind_cr (h : ch = 0x0D) : byKind ch cr discard erase cancel input = cr := if_pos h

theorem byKind_discard (h : ch = 0x0A ∨ ch = 0x11 ∨ ch = 0x13) : byKind ch cr discard erase cancel input = discard := by
  rcases h with rfl | rfl | rfl <;> rfl

theorem byKind_erase (h : ch = 0x08 ∨ ch = 0x7F) : byKind ch cr discard erase cancel input = erase := by
  rcases h with rfl | rfl <;> rfl

theorem byKind_cancel (h : ch = 0x18) : byKind ch cr discard erase cancel input = cancel := by
  rw [h]; rfl

theorem byKind_input
    (h : ¬ (ch = 0x0D ∨ ch = 0x0A ∨ ch = 0x11 ∨ ch = 0x13 ∨ ch = 0x08 ∨ ch = 0x7F ∨ ch = 0x18)) :
    byKind ch cr discard erase cancel input = input := by
  have discarded : ¬ isDiscarded ch = true := fun hd => by
    rcases (isDiscarded_iff ch).1 hd with rfl | rfl | rfl <;> exact h (by decide)
  have cr : ch ≠ chCR := fun hcr => h (.inl hcr)
  have erase : ¬ (ch = chBS ∨ ch = chDEL) := by
    rintro (rfl | rfl) <;> exact h (by decide)
  have cancel : ch ≠ chCAN := by
    rintro rfl; exact h (by decide)
  rw [byKind, if_neg cr, if_neg discarded, if_neg erase, if_neg cancel]

end

theorem isNameChar_iff (b : Byte) : isNameChar b = true ↔ (0x41 ≤ b ∧ b ≤ 0x5A) ∨ (0x30 ≤ b ∧ b ≤ 0x39) := by
  simp [isNameChar]

/-- No control character is a letter or a digit, folded or not. -/
theorem not_control_of_isNameChar {ch : Byte} (h : isNameChar (upperCase ch) = true) :
    ¬ (ch = 0x0D ∨ ch = 0x0A ∨ ch = 0x11 ∨ ch = 0x13 ∨ ch = 0x08 ∨ ch = 0x7F ∨ ch = 0x18) := by
  rintro (rfl | rfl | rfl | rfl | rfl | rfl | rfl) <;> exact absurd h (by decide)

/-- No control character is printable. -/
theorem not_control_of_printable {ch : Byte} (low : 0x20 ≤ ch) (high : ch ≤ 0x7E) :
    ¬ (ch = 0x0D ∨ ch = 0x0A ∨ ch = 0x11 ∨ ch = 0x13 ∨ ch = 0x08 ∨ ch = 0x7F ∨ ch = 0x18) := by
  rintro (rfl | rfl | rfl | rfl | rfl | rfl | rfl)
  case inr.inr.inr.inr.inr.inl => exact absurd high (by decide)
  all_goals exact absurd low (by decide)

/-! ### The field NAME (R61 to R63, R66) -/

theorem restartField_heard (s : State) (l : LineNo) (d : Call) :
    restartField (heard s l d) l = heard s l { d with fieldTimer := startTimer s.soe.fieldTimeout } :=
  modCall_heard s l d _

theorem nameCharacter_eq (s : State) (l : LineNo) (c : Call) (ch : Byte) : nameCharacter s l c ch =
    byKind ch (endName (restartField s l) l c) (restartField s l) (eraseName (restartField s l) l c)
      (clearName (restartField s l) l) (nameInput (restartField s l) l c ch) := rfl

theorem nameInput_heard (s : State) (l : LineNo) (c d : Call) (ch : Byte) : nameInput (heard s l d) l c ch =
    if isNameChar (upperCase ch) = true ∧ c.nameBuf.length < 8 then
      heardPlacing s l { d with nameBuf := d.nameBuf ++ [upperCase ch] } [upperCase ch]
    else heardPlacing s l d [0x07] := by
  simp only [nameInput, modCall_heard, placeChars_heard _ _ _ (List.cons_ne_nil _ _), chBEL]

theorem eraseName_heard (s : State) (l : LineNo) (c d : Call) : eraseName (heard s l d) l c =
    if c.nameBuf = [] then heardPlacing s l d [0x07]
    else heardPlacing s l { d with nameBuf := d.nameBuf.dropLast } [0x08, 0x20, 0x08] := by
  simp only [eraseName, modCall_heard, placeChars_heard _ _ _ (List.cons_ne_nil _ _), chBEL, chBS, chSpace]

theorem clearName_heard (s : State) (l : LineNo) (d : Call) :
    clearName (heard s l d) l = heardPlacing s l { d with nameBuf := [] } (slotText s 1) := by
  rw [clearName, modCall_heard, placeText_heard]

theorem endName_heard (s : State) (l : LineNo) (c d : Call) : endName (heard s l d) l c =
    if c.nameBuf = [] then heardPlacing s l d (slotText s 1)
    else heardPlacing s l { d with phase := .password, pwBuf := [] } (slotText s 2) := by
  simp only [endName, modCall_heard, placeText_heard]

theorem slotText_parityCounted (s : State) (l : LineNo) (f : DataFormat) (bits : Byte) (parity : Bool) (slot : Fin 24) :
    slotText (parityCounted s l f bits parity) slot = slotText s slot := by
  simp only [slotText, soe_parityCounted]

/-- A character heard in NAME has the effect of `nameCharacter`'s branch for its kind. -/
theorem receivedCharacter_name {s : State} {l : LineNo} {c : Call} (h : Hears s l c) (hphase : c.phase = .name) (bits : Byte)
    (parity : Bool) :
    let s' := parityCounted s l c.copy.format bits parity
    let ch := delivered c.copy.format bits parity
    let t := heard s' l { c with fieldTimer := startTimer s.soe.fieldTimeout }
    Completes (.receivedCharacter l bits parity true) s
      (byKind ch (endName t l c) t (eraseName t l c) (clearName t l) (nameInput t l c ch)) := by
  have out := receivedCharacter_heard h bits parity
  simpa only [deliverCharacter, callOn_heard, hphase, nameCharacter_eq, restartField_heard, soe_parityCounted] using out

/-- Settles O28: the branch of `nameCharacter` for each kind of character, each a change of the record and a placing of
characters. -/
theorem nameFieldTakesItsCharacters : Obligations.NameFieldTakesItsCharacters := by
  intro s l c bits parity h hphase ch s' cmd after becomes placing upper letter control
  have out := receivedCharacter_name h hphase bits parity
  simp only [nameInput_heard, eraseName_heard, clearName_heard, endName_heard, slotText_parityCounted] at out
  have soe : s'.soe = s.soe := soe_parityCounted s l c.copy.format bits parity
  have hletter : isNameChar (upperCase ch) = true ↔ letter := isNameChar_iff _
  refine ⟨fun hl room => ?stored, fun hc refused => ?refused, fun hd => ?discarded, fun he empty => ?nothingToErase,
    fun he typed => ?erased, fun hcan => ?cancelled, fun hcr empty => ?emptyName, fun hcr typed => ?nameGiven⟩
  case stored =>
    rw [byKind_input (not_control_of_isNameChar (hletter.2 hl)), if_pos ⟨hletter.2 hl, room⟩] at out
    exact completes_placing soe out
  case refused =>
    have notStored : ¬ (isNameChar (upperCase ch) = true ∧ c.nameBuf.length < 8) := by
      rintro ⟨hl, room⟩
      exact refused.elim (fun no => no (hletter.1 hl)) (Nat.not_le.2 room)
    rw [byKind_input hc, if_neg notStored] at out
    exact completes_placing soe out
  case discarded => rwa [byKind_discard hd] at out
  case nothingToErase =>
    rw [byKind_erase he, if_pos empty] at out
    exact completes_placing soe out
  case erased =>
    rw [byKind_erase he, if_neg typed] at out
    exact completes_placing soe out
  case cancelled =>
    rw [byKind_cancel hcan] at out
    exact completes_placing soe out
  case emptyName =>
    rw [byKind_cr hcr, if_pos empty] at out
    exact completes_placing soe out
  case nameGiven =>
    rw [byKind_cr hcr, if_neg typed] at out
    exact completes_placing soe out

/-! ### The record of a call that has ended (R24) -/

section
variable {s t : State} {l : LineNo} {c : Call} {cause : EndCause}

/-- What the ending event has written on a call's record stands in the record that follows it. -/
def EndKept (d d' : Call) : Prop :=
  d'.number = d.number ∧ d'.endCause = d.endCause ∧ d'.phase = d.phase ∧ d'.pend = d.pend ∧ d'.idle = d.idle

theorem CarriesCause.of_callOn_eq (h : CarriesCause s l c cause) (e : t.callOn l = s.callOn l) :
    CarriesCause t l c cause := fun d hd => h d (e ▸ hd)

theorem CarriesCause.of_removed (h : t.callOn l = none) : CarriesCause t l c cause :=
  fun d hd => absurd (h ▸ hd) (Option.some_ne_none d).symm

theorem CarriesCause.modCall (h : CarriesCause s l c cause) {f : Call → Call} (hf : ∀ d, EndKept d (f d)) :
    CarriesCause (s.modCall l f) l c cause := by
  intro d hd
  rw [State.callOn_modCall_self, Option.map_eq_some_iff] at hd
  obtain ⟨d₀, h₀, rfl⟩ := hd
  obtain ⟨number, endCause, phase, pend, idle⟩ := hf d₀
  rw [number, endCause, phase, pend, idle]
  exact h d₀ h₀

theorem CarriesCause.placeChars (h : CarriesCause s l c cause) (chars : List Byte) :
    CarriesCause (placeChars s l chars) l c cause := by
  unfold Machine.placeChars
  split
  · exact h
  · split
    · exact h.modCall fun _ => ⟨rfl, rfl, rfl, rfl, rfl⟩
    · exact h.of_callOn_eq rfl

theorem CarriesCause.placeText (h : CarriesCause s l c cause) (slot : Fin 24) :
    CarriesCause (placeText s l slot) l c cause := by
  unfold Machine.placeText
  split
  · exact h
  · exact h.placeChars _

theorem CarriesCause.discardOutput (h : CarriesCause s l c cause) (residue : Bool) :
    CarriesCause (discardOutput s l residue) l c cause := h.modCall fun _ => ⟨rfl, rfl, rfl, rfl, rfl⟩

/-! ### The end of a line strand at DROP (R29, R172 to R176) -/

theorem line_dropBare (s : State) (l : LineNo) :
    ((dropBare s l).line l).st = .drop ∧ (dropBare s l).callOn l = s.callOn l := by
  simp [dropBare, State.callOn_eq]

/-- A record removed at DROP leaves its line without a call: only a line still UP signs on again (R173). -/
theorem callOn_removeCall (hst : (s.line l).st = .drop) : (removeCall s l).callOn l = none := by
  unfold removeCall
  split
  · assumption
  · next c hc =>
    have bare : (haltIfDone { (s.modLine l fun x => { x with call := none }) with
        forwardWait := (s.modLine l fun x => { x with call := none }).forwardWait.filter fun m => decide (m ≠ l) }).line l =
        { s.line l with call := none } := by
      rw [haltIfDone_line]
      exact State.line_modLine_self s l fun x => { x with call := none }
    simp only [bare, hst]
    split
    · unfold leaveDrop goOff
      split <;> simp [State.callOn_eq]
    · rw [State.callOn_eq, bare]

theorem CarriesCause.placeRecord (h : CarriesCause s l c cause) (hst : (s.line l).st = .drop) :
    CarriesCause (placeRecord s l) l c cause := by
  unfold Machine.placeRecord
  split
  · exact h
  · split
    · exact h
    · refine .of_removed (callOn_removeCall ?_)
      rw [recordPins, State.line_modEntry]
      split <;> simp [hst]

theorem CarriesCause.holdCall (h : CarriesCause s l c cause) (hst : (s.line l).st = .drop) :
    CarriesCause (holdCall s l) l c cause := by
  have up : (s.line l).st ≠ .up := by rw [hst]; decide
  intro d hd
  have record : (s.callOn l).map (fun d => { d with phase := .held }) = some d := by
    simpa [Machine.holdCall, up, State.callOn_eq] using hd
  rw [Option.map_eq_some_iff] at record
  obtain ⟨d₀, h₀, rfl⟩ := record
  obtain ⟨number, endCause, -, pend, idle⟩ := h d₀ h₀
  exact ⟨number, endCause, .inr rfl, pend, idle⟩

theorem CarriesCause.settle (h : CarriesCause s l c cause) (hst : (s.line l).st = .drop) :
    CarriesCause (settle s l) l c cause := by
  unfold Machine.settle
  split
  · exact h
  · split
    · split
      · exact .of_removed (callOn_removeCall hst)
      · split
        · split
          · exact (h.modCall (f := fun c => { c with closedSent := true }) fun _ => ⟨rfl, rfl, rfl, rfl, rfl⟩).of_callOn_eq
              (by simp only [State.callOn_eq, enqueueOrdered_line])
          · exact h
        · split
          · unfold closeOut
            split
            · exact h.placeRecord hst
            · exact h.holdCall hst
          · exact h
    · exact h

theorem CarriesCause.dropLine (h : CarriesCause s l c cause) : CarriesCause (dropLine s l) l c cause := by
  obtain ⟨st, call⟩ := line_dropBare s l
  have bare : CarriesCause (dropBare s l) l c cause := h.of_callOn_eq call
  simp only [Machine.dropLine]
  split
  · split
    · refine CarriesCause.settle ?record ?state
      case record => exact (bare.discardOutput _).modCall fun _ => ⟨rfl, rfl, rfl, rfl, rfl⟩
      case state => simp [Machine.discardOutput, st]
    · exact bare
  · exact bare

/-! ### The line strand of a call that cannot sign on again (R165 to R168) -/

/-- The line is left UP at the end of a drain after a host close alone (R168). -/
theorem CarriesCause.drainOver (h : CarriesCause s l c cause) (hcause : cause ≠ .hostClose) :
    CarriesCause (drainOver s l) l c cause := by
  unfold Machine.drainOver
  split
  · exact h
  · next d hd =>
    have notHost : d.endCause ≠ some .hostClose := by
      rw [(h d hd).2.1]
      exact fun e => hcause (Option.some.inj e)
    rw [if_neg fun resigns => notHost resigns.1]
    exact h.dropLine

theorem CarriesCause.drainCheck (h : CarriesCause s l c cause) (hcause : cause ≠ .hostClose) :
    CarriesCause (drainCheck s l) l c cause := by
  have goodbye : CarriesCause (placeGoodbye s l) l c cause := by
    unfold placeGoodbye
    split
    · exact h
    · split
      · refine CarriesCause.placeText ?_ 14
        exact h.modCall fun _ => ⟨rfl, rfl, rfl, rfl, rfl⟩
      · exact h
  unfold Machine.drainCheck
  split
  · exact h
  · split
    · dsimp only
      split
      · exact goodbye
      · split
        · exact goodbye.drainOver hcause
        · exact goodbye
    · exact h

theorem CarriesCause.closingTexts (h : CarriesCause s l c cause) (k : EndCause) :
    CarriesCause (closingTexts s l k) l c cause := by
  unfold Machine.closingTexts
  split
  · exact (h.placeText _).placeText 14
  · exact h.placeText 14

theorem CarriesCause.startDrain (h : CarriesCause s l c cause) : CarriesCause (startDrain s l) l c cause :=
  h.modCall fun _ => ⟨rfl, rfl, rfl, rfl, rfl⟩

theorem CarriesCause.lineStrand (h : CarriesCause s l c cause) (hcause : cause ≠ .hostClose) (was : Phase) (lost : Bool) :
    CarriesCause (lineStrand s l was cause lost) l c cause := by
  simp only [Machine.lineStrand]
  split
  · split
    · exact (h.discardOutput _).dropLine
    · split
      · refine CarriesCause.drainOver ?_ hcause
        exact h.modCall fun _ => ⟨rfl, rfl, rfl, rfl, rfl⟩
      · rw [if_neg fun closed => hcause closed.2]
        split
        · refine CarriesCause.drainCheck (CarriesCause.startDrain (CarriesCause.closingTexts ?_ cause)) hcause
          exact h.modCall fun _ => ⟨rfl, rfl, rfl, rfl, rfl⟩
        · exact (h.closingTexts cause).startDrain.drainCheck hcause
  · next st =>
    refine CarriesCause.settle ?record ?state
    case record => exact (h.discardOutput _).modCall fun _ => ⟨rfl, rfl, rfl, rfl, rfl⟩
    case state => simp [Machine.discardOutput, st]
  · exact (h.discardOutput _).dropLine

/-! ### The ending event of a call that is not connected (R24) -/

theorem markEnded_carriesCause (hc : s.callOn l = some c) (cause : EndCause) :
    CarriesCause (markEnded s l cause) l c cause := by
  intro d hd
  rw [markEnded, State.callOn_modCall_self, hc, Option.map_some, Option.some.injEq] at hd
  subst hd
  exact ⟨rfl, rfl, .inl rfl, rfl, rfl⟩

theorem CarriesCause.endingWork (h : CarriesCause s l c cause) {was : Phase} (hwas : was ≠ .connected) (e : Ender) :
    CarriesCause (endingWork e s l was) l c cause := by
  unfold Machine.endingWork
  split
  · exact h.of_callOn_eq rfl
  · refine CarriesCause.modCall ?_ fun _ => ⟨rfl, rfl, rfl, rfl, rfl⟩
    exact h.of_callOn_eq rfl
  · exact absurd rfl hwas
  · exact h

theorem endingWork_local (e : Ender) (s : State) (l : LineNo) {was : Phase} (hwas : was ≠ .connected) :
    Local l s (endingWork e s l was) := by
  unfold endingWork
  split
  · exact Local.of_same l (withdrawLookup_keeps s l) rfl
  · exact leaveQueue_local s l
  · exact absurd rfl hwas
  · exact Local.refl l s

/-- The ending event gives a call that is not connected its cause, and touches no line but the call's. -/
theorem endCall_ends (hc : s.callOn l = some c) (running : c.endCause = none) (hphase : c.phase ≠ .connected)
    (hcause : cause ≠ .hostClose) :
    CarriesCause (endCall s l cause) l c cause ∧ Local l s (endCall s l cause) := by
  have notDue : stepDue s l = false := by simp [stepDue, hc, hphase]
  have result : endCall s l cause =
      lineStrand (endingWork (endFuel 48) (markEnded s l cause) l c.phase) l c.phase cause false := by
    change endCallWith (endFuel 48) s l cause false = _
    simp [endCallWith, completeStep_not_due notDue, hc, running]
  rw [result]
  exact ⟨((markEnded_carriesCause hc cause).endingWork hphase _).lineStrand hcause _ _,
    ((markEnded_local s l cause).trans (endingWork_local _ _ l hphase)).trans (lineStrand_local _ l _ cause false)⟩

end

/-! ### The field PASSWORD (R62, R64 to R66) -/

theorem passwordCharacter_eq (s : State) (l : LineNo) (c : Call) (ch : Byte) : passwordCharacter s l c ch =
    byKind ch (endPassword (restartField s l) l c) (restartField s l) (erasePassword (restartField s l) l c)
      (clearPasswordField (restartField s l) l) (passwordInput (restartField s l) l c ch) := rfl

theorem passwordInput_heard (s : State) (l : LineNo) (c d : Call) (ch : Byte) : passwordInput (heard s l d) l c ch =
    if 0x20 ≤ ch ∧ ch ≤ 0x7E ∧ c.pwBuf.length < 12 then heard s l { d with pwBuf := d.pwBuf ++ [ch] }
    else heardPlacing s l d [0x07] := by
  simp only [passwordInput, modCall_heard, placeChars_heard _ _ _ (List.cons_ne_nil _ _), chBEL]

theorem erasePassword_heard (s : State) (l : LineNo) (c d : Call) : erasePassword (heard s l d) l c =
    if c.pwBuf = [] then heardPlacing s l d [0x07] else heard s l { d with pwBuf := d.pwBuf.dropLast } := by
  simp only [erasePassword, modCall_heard, placeChars_heard _ _ _ (List.cons_ne_nil _ _), chBEL]

theorem clearPasswordField_heard (s : State) (l : LineNo) (d : Call) :
    clearPasswordField (heard s l d) l = heardPlacing s l { d with pwBuf := [] } (slotText s 2) := by
  rw [clearPasswordField, modCall_heard, placeText_heard]

/-- A password ended while the service is not open: the text and the end of the call (R65). -/
theorem endPassword_notOpen {s : State} (l : LineNo) (c d : Call) (service : s.sfu.service ≠ .opened) :
    endPassword (heard s l d) l c =
      endCall (heardPlacing s l { d with phase := .lookup, fieldTimer := none } (slotText s 22)) l .serviceEnd := by
  have closed (d : Call) : serviceOpen (heard s l d) = false := by simp [serviceOpen, service]
  simp only [endPassword, modCall_heard, closed, Bool.false_eq_true, if_false, placeText_heard]

/-- A character heard in PASSWORD has the effect of `passwordCharacter`'s branch for its kind. -/
theorem receivedCharacter_password {s : State} {l : LineNo} {c : Call} (h : Hears s l c) (hphase : c.phase = .password)
    (bits : Byte) (parity : Bool) :
    let s' := parityCounted s l c.copy.format bits parity
    let ch := delivered c.copy.format bits parity
    let t := heard s' l { c with fieldTimer := startTimer s.soe.fieldTimeout }
    Completes (.receivedCharacter l bits parity true) s
      (byKind ch (endPassword t l c) t (erasePassword t l c) (clearPasswordField t l) (passwordInput t l c ch)) := by
  have out := receivedCharacter_heard h bits parity
  simpa only [deliverCharacter, callOn_heard, hphase, passwordCharacter_eq, restartField_heard, soe_parityCounted] using out

/-- Settles O29: the branch of `passwordCharacter` for each kind of character; the end of the call at a CR is that of a
call in LOOKUP. -/
theorem passwordFieldTakesItsCharacters : Obligations.PasswordFieldTakesItsCharacters := by
  intro s l c bits parity h hphase ch s' cmd after becomes placing control
  have out := receivedCharacter_password h hphase bits parity
  simp only [passwordInput_heard, erasePassword_heard, clearPasswordField_heard, slotText_parityCounted] at out
  have soe : s'.soe = s.soe := soe_parityCounted s l c.copy.format bits parity
  refine ⟨fun low high room => ?stored, fun hc refused => ?refused, fun hd => ?discarded, fun he empty => ?nothingToErase,
    fun he typed => ?erased, fun hcan => ?cancelled, fun hcr service running => ?notOpen⟩
  case stored => rwa [byKind_input (not_control_of_printable low high), if_pos ⟨low, high, room⟩] at out
  case refused =>
    have notStored : ¬ (0x20 ≤ ch ∧ ch ≤ 0x7E ∧ c.pwBuf.length < 12) := by
      rintro ⟨low, high, room⟩
      rcases refused with below | above | full
      · exact absurd low (BitVec.not_le.2 below)
      · exact absurd high (BitVec.not_le.2 above)
      · omega
    rw [byKind_input hc, if_neg notStored] at out
    exact completes_placing soe out
  case discarded => rwa [byKind_discard hd] at out
  case nothingToErase =>
    rw [byKind_erase he, if_pos empty] at out
    exact completes_placing soe out
  case erased => rwa [byKind_erase he, if_neg typed] at out
  case cancelled =>
    rw [byKind_cancel hcan] at out
    exact completes_placing soe out
  case notOpen =>
    have service' : s'.sfu.service ≠ .opened := by rwa [sfu_parityCounted]
    rw [byKind_cr hcr, endPassword_notOpen l c _ service'] at out
    obtain ⟨buf, record⟩ := callOn_heardPlacing s' l
      { c with phase := .lookup, fieldTimer := none } (slotText s' 22)
    obtain ⟨ended, onLine⟩ := endCall_ends (cause := .serviceEnd) record running (by simp) (by decide)
    refine ⟨_, out, ended, fun m hm _ => ?_⟩
    calc _ = _ := onLine.others m hm
      _ = s'.line m := heardPlacing_othersKept s' l _ _ m hm
      _ = s.line m := parityCounted_othersKept s l _ bits parity m hm

end Sys2Proof.Machine
end

section
namespace Sys2Proof.Machine

/-! ### A session message that is taken (R22) -/

@[simp] theorem callOn_afterTake (s : State) (rest : List InFrame) (l : LineNo) :
    (afterTake s rest).callOn l = s.callOn l := rfl

/-- A message that names no call in an accepting phase is discarded and counted. -/
theorem takeSession_stale {s : State} {code : Nat} {f : InFrame} {rest : List InFrame} (h : AtHead s code f rest)
    (r : isReplied code = false) {accepts : Call → Bool} (carry : InFrame → LineNo → Call → State → State)
    (stale : ∀ c, s.callOn (lineOf f) = some c → c.number = f.call → accepts c = false) :
    takeSession s code accepts carry = { afterTake s rest with stale := oneMore s.stale } := by
  have noCall : sessionCall (afterTake s rest) f accepts = none := by
    cases hc : s.callOn (lineOf f) with
    | none => simp [sessionCall, hc]
    | some c => simpa [sessionCall, hc] using stale c hc
  simp only [takeSession, takeFrame_noReply h r, noCall]
  rfl

/-- A message for a call in an accepting phase is carried out on the state that its take leaves. -/
theorem takeSession_accepted {s : State} {code : Nat} {f : InFrame} {rest : List InFrame} {l : LineNo} {c : Call}
    (h : Addressed s code f rest l c) (r : isReplied code = false) {accepts : Call → Bool}
    (carry : InFrame → LineNo → Call → State → State) (accepted : accepts c = true) :
    takeSession s code accepts carry = carry f l c (afterTake s rest) := by
  have named : sessionCall (afterTake s rest) f accepts = some c := by
    simp [sessionCall, h.line_eq, h.call_eq, h.number_eq, accepted]
  simp only [takeSession, takeFrame_noReply h.toAtHead r, named, h.line_eq]

/-! ### HOST DATA (R125) -/

/-- A HOST DATA that is not malformed carries 1 to 256 characters. -/
theorem hostData_body_length {f : InFrame} (hcode : f.code = 0x38) (h : frameForm f ≠ .malformed) :
    1 ≤ f.body.length ∧ f.body.length ≤ 256 := by
  have row : catalogueRow 0x38 = some ⟨0x38, true, true, false⟩ := by decide
  by_contra outside
  have malformed : bodyForm 0x38 f.body = .malformed := if_neg outside
  exact h (by simp [frameForm, hcode, row, malformed])

/-- The line with `chars` appended to its call's transmit buffer, the call's credit as given, and `excess` characters
counted as discarded. -/
def filledLine (x : Line) (c : Call) (chars : List Byte) (credit excess : Nat) : Line :=
  { x with
    car := { x.car with hostData := oneMore x.car.hostData, excess := min (x.car.excess + excess) 65535 }
    call := some { c with txBuf := c.txBuf ++ chars, credit := credit } }

/-- Characters that fit are all appended, and the credit falls by their number. -/
theorem acceptHostData_fits {s : State} {l : LineNo} {c : Call} {chars : List Byte} (hc : (s.line l).call = some c)
    (fits : chars.length ≤ 256 - c.txBuf.length) :
    acceptHostData s l c chars = s.setLine l (filledLine (s.line l) c chars (c.credit - chars.length) 0) := by
  have noExcess : chars.length - (256 - c.txBuf.length) = 0 := Nat.sub_eq_zero_of_le fits
  simp [acceptHostData, filledLine, Config.transmitDepth, noExcess, List.take_of_length_le fits, State.modCarriage,
    State.modCall, State.modLine, hc, bump, bumpBy, Config.counterMax]

/-- Of characters that do not fit the free space is filled; the rest is counted and reported, and no credit is left. -/
theorem acceptHostData_overfills {s : State} {l : LineNo} {c : Call} {chars : List Byte} (hc : (s.line l).call = some c)
    (exceeds : 256 - c.txBuf.length < chars.length) :
    let room := 256 - c.txBuf.length
    acceptHostData s l c chars =
      raiseFault (s.setLine l (filledLine (s.line l) c (chars.take room) 0 (chars.length - room)))
        .creditExceeded (some l) (some c.number) (chars.length - room) := by
  simp [acceptHostData, filledLine, Config.transmitDepth, exceeds, State.modCarriage, State.modCall, State.modLine, hc, bump,
    bumpBy, Config.counterMax]

/-- Settles O39: the stale test of R22, then whether the characters fit the free space. -/
theorem hostDataFillsTheFreeSpace : Obligations.HostDataFillsTheFreeSpace := by
  rintro s f rest _ h rfl
  have notReplied : isReplied 0x38 = false := by decide
  refine ⟨hostData_body_length h.code_eq h.form, fun other => ?stale, fun c addressed connected => ?accepted⟩
  case stale =>
    exact congrArg Host.Outcome.next (takeSession_stale h notReplied _ fun c hc hn => decide_eq_false (other c hc hn))
  case accepted =>
    have carried : exec .hostData s = .next (acceptHostData (afterTake s rest) (lineOf f) c f.body) :=
      congrArg Host.Outcome.next (takeSession_accepted addressed notReplied _ (decide_eq_true connected))
    have hc : ((afterTake s rest).line (lineOf f)).call = some c := addressed.call_eq
    exact ⟨fun fits => carried.trans (congrArg _ (acceptHostData_fits hc fits)),
      fun exceeds => carried.trans (congrArg _ (acceptHostData_overfills hc exceeds))⟩

end Sys2Proof.Machine
end

section
namespace Sys2Proof.Machine

/-! ### The bytes of a billing record (R19, Table 1.8) -/

/-- The number that the `n` bytes from byte `i` spell, high byte first. -/
def numberAt (bytes : List Byte) (i n : Nat) : Nat :=
  (List.range n).foldl (fun v j => 256 * v + byteAt bytes (i + j)) 0

@[simp] theorem length_bytesOf (k v : Nat) : (bytesOf k v).length = k := by
  induction k with
  | zero => rfl
  | succ k ih => simp [bytesOf, ih]

/-- Bytes that lie wholly before the place read do not matter. -/
theorem numberAt_append_of_le {p : List Byte} {i : Nat} (h : p.length ≤ i) (q : List Byte) (n : Nat) :
    numberAt (p ++ q) i n = numberAt q (i - p.length) n := by
  have later (j : Nat) : byteAt (p ++ q) (i + j) = byteAt q (i - p.length + j) := by
    rw [byteAt, List.getD_append_right _ _ _ _ (Nat.le_add_right_of_le h), Nat.sub_add_comm h, byteAt]
  simp only [numberAt, later]

/-- Reading `k` bytes on from the number `a` read so far. -/
theorem foldl_byteAt_bytesOf (k v a : Nat) (q : List Byte) :
    (List.range k).foldl (fun n j => 256 * n + byteAt (bytesOf k v ++ q) (0 + j)) a = a * 256 ^ k + v % 256 ^ k := by
  induction k generalizing a with
  | zero => simp [Nat.mod_one]
  | succ k ih =>
    have first : byteAt (bytesOf (k + 1) v ++ q) (0 + 0) = v / 256 ^ k % 256 := by simp [byteAt, bytesOf]
    have later (j : Nat) : byteAt (bytesOf (k + 1) v ++ q) (0 + j.succ) = byteAt (bytesOf k v ++ q) (0 + j) := by
      simp [byteAt, bytesOf]
    rw [List.range_succ_eq_map, List.foldl_cons, List.foldl_map, first]
    simp only [later, ih]
    rw [Nat.pow_succ, Nat.mod_mul]
    ring

/-- A field of `k` bytes reads back as its number, cut to `k` bytes. -/
theorem numberAt_bytesOf_append (k v : Nat) (q : List Byte) : numberAt (bytesOf k v ++ q) 0 k = v % 256 ^ k := by
  rw [numberAt, foldl_byteAt_bytesOf, Nat.zero_mul, Nat.zero_add]

/-- A layout written out: the fields in order, each its width in bytes and its number. -/
def layoutBytes (fields : List (Nat × Nat)) : List Byte := fields.flatMap fun x => bytesOf x.1 x.2

/-- Where field `i` of a layout begins, by the widths of its fields. -/
def layoutStart (widths : List Nat) (i : Nat) : Nat := (widths.take i).sum

/-- Every field of a layout reads back at its place, cut to its width. -/
theorem numberAt_layoutBytes {fields : List (Nat × Nat)} {i width v : Nat} (h : fields[i]? = some (width, v)) :
    numberAt (layoutBytes fields) (layoutStart (fields.map Prod.fst) i) width = v % 256 ^ width := by
  induction fields generalizing i with
  | nil => simp at h
  | cons x fields ih =>
    have bytes : layoutBytes (x :: fields) = bytesOf x.1 x.2 ++ layoutBytes fields := List.flatMap_cons
    cases i with
    | zero =>
      obtain rfl : x = (width, v) := by simpa using h
      exact bytes ▸ numberAt_bytesOf_append width v _
    | succ i =>
      have start : layoutStart ((x :: fields).map Prod.fst) (i + 1) = x.1 + layoutStart (fields.map Prod.fst) i := by
        simp [layoutStart]
      rw [bytes, start, numberAt_append_of_le (by simp), length_bytesOf, Nat.add_sub_cancel_left]
      exact ih (by simpa using h)

/-- Table 1.8 as a layout; a field that may be absent stands with what its bytes hold then. -/
def recordLayout (r : BillRecord) : List (Nat × Nat) :=
  [(2, r.number), (3, r.account), (1, r.line.val), (2, r.call),
   (1, (r.speed.map speedCode).getD Config.fieldWhenNone), (1, (r.cls.map Fin.val).getD Config.fieldWhenNone),
   (1, (r.endCause.map causeCode).getD Config.fieldWhenNone), (1, recordFlags r),
   (1, (r.signOn.map DayTime.day).getD Config.fieldWhenNone), (3, (r.signOn.map DayTime.second).getD Config.fieldWhenNone),
   (1, (r.connectAt.map DayTime.day).getD 0xFF), (3, (r.connectAt.map DayTime.second).getD 0), (4, r.connectSecs),
   (3, r.queueSecs), (4, r.charge), (2, r.fadeSecs), (2, r.residue), (2, r.generation)]

/-- The widths of Table 1.8. They do not depend on the record, so where a field begins is a closed number. -/
def recordWidths : List Nat := [2, 3, 1, 2, 1, 1, 1, 1, 1, 3, 1, 3, 4, 3, 4, 2, 2, 2]

theorem recordLayout_widths (r : BillRecord) : (recordLayout r).map Prod.fst = recordWidths := rfl

theorem presentTime_eq (t : Option DayTime) : presentTime t =
    bytesOf 1 ((t.map DayTime.day).getD Config.fieldWhenNone) ++
    bytesOf 3 ((t.map DayTime.second).getD Config.fieldWhenNone) := by cases t <;> rfl

theorem optionalTime_eq (t : Option DayTime) : optionalTime t =
    bytesOf 1 ((t.map DayTime.day).getD 0xFF) ++ bytesOf 3 ((t.map DayTime.second).getD 0) := by cases t <;> rfl

theorem recordBytes_eq (r : BillRecord) : recordBytes r = layoutBytes (recordLayout r) := by
  simp [recordBytes, layoutBytes, recordLayout, presentTime_eq, optionalTime_eq]

theorem length_recordBytes (r : BillRecord) : (recordBytes r).length = 37 := by
  simp [recordBytes, presentTime_eq, optionalTime_eq]

/-- Every field of a record reads back at its place in Table 1.8. -/
theorem numberAt_recordBytes {r : BillRecord} {i width v : Nat} (h : (recordLayout r)[i]? = some (width, v)) :
    numberAt (recordBytes r) (layoutStart recordWidths i) width = v % 2 ^ (8 * width) := by
  rw [recordBytes_eq, ← recordLayout_widths r, numberAt_layoutBytes h, Nat.pow_mul]

theorem flagBit_le (b : Bool) (weight : Nat) : flagBit b weight ≤ weight := by cases b <;> simp [flagBit]

theorem recordFlags_lt (r : BillRecord) : recordFlags r < 256 := by
  have warned := flagBit_le r.warned 1
  have grace := flagBit_le r.graceEntered 2
  have tariff := flagBit_le r.tariffChanged 4
  have never := flagBit_le r.neverConnected 8
  rw [recordFlags]
  omega

theorem speedCode_lt (v : Speed) : speedCode v < 256 := by cases v <;> decide

theorem causeCode_lt (v : EndCause) : causeCode v < 256 := by cases v <;> decide

/-! ### BILL RELEASE gives up the pins of the records it removes (R78, R178) -/

/-- Nothing but the Account Cache differs. -/
def CacheOnly (s t : State) : Prop := t = { s with acc := t.acc }

theorem CacheOnly.refl (s : State) : CacheOnly s s := rfl

theorem CacheOnly.trans {s t u : State} (a : CacheOnly s t) (b : CacheOnly t u) : CacheOnly s u := by
  unfold CacheOnly at *
  rw [b, a]

theorem modFrame_cacheOnly (s : State) (g : FrameNo) (f : Frame → Frame) : CacheOnly s (s.modFrame g f) := rfl

theorem sweepEntry_cacheOnly (s : State) (a : FrameNo × EntryNo) : CacheOnly s (sweepEntry s a) := by
  unfold sweepEntry
  split
  · split
    · exact modFrame_cacheOnly s _ _
    · exact .refl s
  · exact .refl s

theorem sweepEntry_frame_ne (s : State) {a : FrameNo × EntryNo} {g : FrameNo} (h : g ≠ a.1) :
    (sweepEntry s a).frame g = s.frame g := by
  unfold sweepEntry
  split
  · split
    · exact State.frame_modFrame_ne s _ h
    · rfl
  · rfl

/-- An entry that is not WITHDRAWN stays in its slot. -/
theorem sweepEntry_kept {s : State} {a : FrameNo × EntryNo} {e : Entry} (he : s.entryAt a = some e)
    (hw : e.withdrawn = false) : sweepEntry s a = s := by
  simp [sweepEntry, he, hw]

/-- The entry and its frame lose the pin, before what the loss of the last pin brings. -/
def unpinned (s : State) (a : FrameNo × EntryNo) : State :=
  (s.modEntry a fun e => { e with stored := e.stored - 1 }).modFrame a.1 fun x => { x with pins := x.pins - 1 }

theorem releasePins_eq (s : State) (a : FrameNo × EntryNo) : releasePins s a =
    let t := sweepEntry (unpinned s a) a
    if (t.frame a.1).pins = 0 ∧ (t.frame a.1).st = .refreshDue then emptyFrame t a.1 else t := rfl

theorem unpinned_frame_ne (s : State) {a : FrameNo × EntryNo} {g : FrameNo} (h : g ≠ a.1) :
    (unpinned s a).frame g = s.frame g := by
  simp [unpinned, State.modEntry, h]

theorem unpinned_pins (s : State) (a : FrameNo × EntryNo) :
    ((unpinned s a).frame a.1).pins = (s.frame a.1).pins - 1 := by
  simp [unpinned, State.modEntry]

theorem unpinned_st (s : State) (a : FrameNo × EntryNo) : ((unpinned s a).frame a.1).st = (s.frame a.1).st := by
  simp [unpinned, State.modEntry]

theorem unpinned_entryAt (s : State) (a : FrameNo × EntryNo) :
    (unpinned s a).entryAt a = (s.entryAt a).map fun e => { e with stored := e.stored - 1 } := by
  rw [← State.entryAt_modEntry_self s a]
  simp [unpinned, State.entryAt]

theorem releasePins_cacheOnly (s : State) (a : FrameNo × EntryNo) : CacheOnly s (releasePins s a) := by
  have swept : CacheOnly s (sweepEntry (unpinned s a) a) :=
    CacheOnly.trans (t := unpinned s a) rfl (sweepEntry_cacheOnly _ a)
  rw [releasePins_eq]
  dsimp only
  split
  · exact swept.trans (modFrame_cacheOnly _ _ _)
  · exact swept

theorem releasePins_frame_ne (s : State) {a : FrameNo × EntryNo} {g : FrameNo} (h : g ≠ a.1) :
    (releasePins s a).frame g = s.frame g := by
  have swept : (sweepEntry (unpinned s a) a).frame g = s.frame g := by
    rw [sweepEntry_frame_ne _ h, unpinned_frame_ne s h]
  rw [releasePins_eq]
  dsimp only
  split
  · rw [emptyFrame, State.frame_modFrame_ne _ _ h, swept]
  · exact swept

/-- An entry that is not WITHDRAWN, in a VALID frame, loses the pin and nothing more. -/
theorem releasePins_valid {s : State} {a : FrameNo × EntryNo} {e : Entry} (he : s.entryAt a = some e)
    (hw : e.withdrawn = false) (hv : (s.frame a.1).st = .valid) : releasePins s a = unpinned s a := by
  have entry := (unpinned_entryAt s a).trans (congrArg _ he)
  rw [releasePins_eq, sweepEntry_kept entry hw]
  exact if_neg fun due => by simp [unpinned_st, hv] at due

theorem foldl_releasePins_cacheOnly (rs : List BillRecord) (s : State) :
    CacheOnly s (rs.foldl (fun s r => releasePins s r.entry) s) := by
  induction rs generalizing s with
  | nil => exact .refl s
  | cons r rs ih => exact (releasePins_cacheOnly s r.entry).trans (ih _)

theorem foldl_releasePins_frame {rs : List BillRecord} {g : FrameNo} (h : ∀ x ∈ rs, x.entry.1 ≠ g) (s : State) :
    (rs.foldl (fun s r => releasePins s r.entry) s).frame g = s.frame g := by
  induction rs generalizing s with
  | nil => rfl
  | cons r rs ih =>
    rw [List.forall_mem_cons] at h
    rw [List.foldl_cons, ih h.2, releasePins_frame_ne s h.1.symm]

/-- The state with the records `behind` as its store, the pins of the records `gone` given up. -/
def withoutRecords (s : State) (gone behind : List BillRecord) : State :=
  gone.foldl (fun s r => releasePins s r.entry) { s with bst := { s.bst with store := behind } }

theorem removeRecords_eq {s : State} {gone behind : List BillRecord} (h : s.bst.store = gone ++ behind) :
    removeRecords s gone.length = withoutRecords s gone behind := by
  simp [removeRecords, withoutRecords, h]

/-- A single record whose entry is not WITHDRAWN and whose frame is VALID takes its own pin with it and nothing more. -/
theorem withoutRecords_one {s : State} {r : BillRecord} {behind : List BillRecord} {e : Entry}
    (he : s.entryAt r.entry = some e) (hw : e.withdrawn = false) (hv : (s.frame r.entry.1).st = .valid) :
    withoutRecords s [r] behind = unpinned { s with bst := { s.bst with store := behind } } r.entry :=
  releasePins_valid (s := { s with bst := { s.bst with store := behind } }) he hw hv

theorem withoutRecords_cacheOnly (s : State) (gone behind : List BillRecord) :
    CacheOnly { s with bst := { s.bst with store := behind } } (withoutRecords s gone behind) :=
  foldl_releasePins_cacheOnly gone _

/-- The first record of the number is the one named. -/
theorem findIdx?_number {ahead behind : List BillRecord} {r : BillRecord} {number : Nat} (hr : r.number = number)
    (ha : ∀ x ∈ ahead, x.number ≠ number) :
    (ahead ++ r :: behind).findIdx? (fun x => decide (x.number = number)) = some ahead.length := by
  have notAhead : ahead.findIdx? (fun x => decide (x.number = number)) = none := by simpa using ha
  simp [List.findIdx?_append, notAhead, List.findIdx?_cons, hr]

theorem releaseRecords_unknown {s : State} {number : Nat} (h : ∀ r ∈ s.bst.store, r.number ≠ number) :
    releaseRecords s number = (s, .refused .notFound .none) := by
  have missing : s.bst.store.findIdx? (fun r => decide (r.number = number)) = none := by simpa using h
  rw [releaseRecords, missing]

/-- With no call held, the removal is all that a BILL RELEASE does. -/
theorem releaseRecords_none_held {s : State} {number : Nat} {ahead behind : List BillRecord} {r : BillRecord}
    (hs : s.bst.store = ahead ++ r :: behind) (hr : r.number = number) (ha : ∀ x ∈ ahead, x.number ≠ number)
    (held : s.bst.held = []) :
    releaseRecords s number =
      (withoutRecords s (ahead ++ [r]) behind, .done (.released (ahead.length + 1) 0)) := by
  have removed : removeRecords s (ahead.length + 1) = withoutRecords s (ahead ++ [r]) behind := by
    rw [← removeRecords_eq (by rw [hs, List.append_assoc]; rfl), List.length_append, List.length_singleton]
  have stillNone : (withoutRecords s (ahead ++ [r]) behind).bst.held = [] :=
    (congrArg (fun t => t.bst.held) (withoutRecords_cacheOnly s (ahead ++ [r]) behind)).trans held
  rw [releaseRecords, hs, findIdx?_number hr ha]
  simp only [removed, stillNone, placeHeld]

/-! ### BILL READ, AUDIT CLEAR and BILL RELEASE (R177, R178, R179) -/

/-- A request with every field in range is carried out, and its answer stands in the lane. -/
theorem takeReplied_good {s : State} {code : Nat} {f : InFrame} {rest : List InFrame} (h : Requested s code f rest)
    (r : isReplied code = true) {bad : Option Nat} (carry : State → State × Answer) (hb : bad = none) :
    takeReplied s code (fun _ s => checked bad s carry) =
      setPriority (carry (afterReply s f rest .format)).1 s.hli.prio.length
        (replyTo f (carry (afterReply s f rest .format)).2) := by
  rw [takeReplied_eq h r, hb]
  rfl

/-- A request with every field in range that is only answered. -/
theorem takeReplied_answers {s : State} {code : Nat} {f : InFrame} {rest : List InFrame} (h : Requested s code f rest)
    (r : isReplied code = true) {bad : Option Nat} {carry : State → State × Answer} {a : Answer} (hb : bad = none)
    (ha : carry (afterReply s f rest .format) = (afterReply s f rest .format, a)) :
    takeReplied s code (fun _ s => checked bad s carry) = afterReply s f rest a := by
  rw [takeReplied_good h r carry hb, ha]
  exact setPriority_afterReply s f rest _ _

theorem readRecord_some {s : State} {index : Nat} {r : BillRecord} (h : s.bst.store[index]? = some r) :
    readRecord s index = .done (.record (recordBytes r)) := by rw [readRecord, h]

theorem readRecord_none {s : State} {index : Nat} (h : s.bst.store.length ≤ index) :
    readRecord s index = .refused .notFound .none := by rw [readRecord, List.getElem?_eq_none h]

theorem billRead_answers {s : State} {f : InFrame} {rest : List InFrame} {index : Nat} (h : Requested s 0x50 f rest)
    (hi : index ≤ 255) : OnlyAnswers (.billRead index) s f rest (readRecord s index) :=
  congrArg Host.Outcome.next (takeReplied_answers h (by decide) (by simp [firstBad, hi]) rfl)

theorem auditClear_zeroes {s : State} {f : InFrame} {rest : List InFrame} (h : Requested s 0x09 f rest) :
    Completes .auditClear s
      { afterReply s f rest (.done (.audit s.bst.auditCount s.bst.auditCharge)) with
        bst := { s.bst with auditCount := 0, auditCharge := 0 } } := by
  refine congrArg Host.Outcome.next ((takeReplied_eq h (by decide) _).trans ?_)
  rw [← setPriority_afterReply s f rest .format (.done (.audit s.bst.auditCount s.bst.auditCharge))]
  rfl

theorem billRelease_zero {s : State} {f : InFrame} {rest : List InFrame} (h : Requested s 0x51 f rest) :
    OnlyAnswers (.billRelease 0) s f rest (.refused .badValue (.index 0)) :=
  congrArg Host.Outcome.next (takeReplied_bad h (by decide) (fun _ => _) (fun _ s => releaseRecords s 0) rfl)

section
variable {s : State} {f : InFrame} {rest : List InFrame} {number : Nat}

theorem billReleaseBad_none (h1 : 1 ≤ number) (h2 : number ≤ 65535) :
    firstBad [(0, decide (1 ≤ number) && decide (number ≤ 65535))] = none := by
  simp [firstBad, h1, h2]

theorem billRelease_unknown (h : Requested s 0x51 f rest) (h1 : 1 ≤ number) (h2 : number ≤ 65535)
    (missing : ∀ r ∈ s.bst.store, r.number ≠ number) :
    OnlyAnswers (.billRelease number) s f rest (.refused .notFound .none) :=
  congrArg Host.Outcome.next
    (takeReplied_answers h (by decide) (billReleaseBad_none h1 h2) (releaseRecords_unknown missing))

/-- With no call held: the request is answered, the store is what was behind the named record, and of the rest only the
Account Cache differs. -/
theorem billRelease_none_held {ahead behind : List BillRecord} {r : BillRecord} (h : Requested s 0x51 f rest)
    (h1 : 1 ≤ number) (h2 : number ≤ 65535) (hs : s.bst.store = ahead ++ r :: behind) (hr : r.number = number)
    (ha : ∀ x ∈ ahead, x.number ≠ number) (held : s.bst.held = []) :
    Completes (.billRelease number) s
      { afterReply s f rest (.done (.released (ahead.length + 1) 0)) with
        bst := { s.bst with store := behind }
        acc := (withoutRecords (afterReply s f rest .format) (ahead ++ [r]) behind).acc } := by
  have released := releaseRecords_none_held (s := afterReply s f rest .format) hs hr ha held
  have cache := withoutRecords_cacheOnly (afterReply s f rest .format) (ahead ++ [r]) behind
  refine congrArg Host.Outcome.next
    ((takeReplied_good h (by decide) (fun s => releaseRecords s number) (billReleaseBad_none h1 h2)).trans ?_)
  rw [released, cache, ← setPriority_afterReply s f rest .format (.done (.released (ahead.length + 1) 0))]
  rfl

end

/-- Settles O16: the bytes of a record are those of a layout whose fields read back one by one; BILL RELEASE removes the
records up to the named one and changes nothing else but the Account Cache, where each gives up its own pin. -/
theorem billingStoreAnswersTheHost : Obligations.BillingStoreAnswersTheHost := by
  refine ⟨fun s f rest index => ⟨fun h hi => ⟨fun r hr => ?read, fun big => ?readNone⟩, auditClear_zeroes⟩,
    fun r => ?bytes, fun s f rest number h => ⟨fun zero => zero ▸ billRelease_zero h,
      billRelease_unknown h, fun ahead r behind h1 h2 hs hr ha held => ?release⟩⟩
  case read => exact readRecord_some hr ▸ billRead_answers h hi
  case readNone => exact readRecord_none big ▸ billRead_answers h hi
  case bytes =>
    intro field speedCodes causeCodes
    have hspeed (v : Speed) : speedCodes v = speedCode v := by cases v <;> rfl
    have hcause (v : EndCause) : causeCodes v = causeCode v := by cases v <;> rfl
    have reads (i : Nat) {width v : Nat} (h : (recordLayout r)[i]? = some (width, v)) :
        field (layoutStart recordWidths i) width = v % 2 ^ (8 * width) := numberAt_recordBytes h
    have readsByte (i : Nat) {v : Nat} (h : (recordLayout r)[i]? = some (1, v)) (small : v < 256) :
        field (layoutStart recordWidths i) 1 = v := (reads i h).trans (Nat.mod_eq_of_lt small)
    -- Opaque from here on, so that a clause is matched by its place and width and not by running the fold.
    clear_value field speedCodes causeCodes
    refine ⟨length_recordBytes r, reads 0 rfl, reads 1 rfl, readsByte 2 rfl (by omega), reads 3 rfl, fun v hv => ?speed,
      fun k hk => ?cls, fun v hv => ?cause, readsByte 7 rfl (recordFlags_lt r), fun d hd => ?signOn,
      fun d hd => ?connectAt, fun hd => ?neverConnected, reads 12 rfl, reads 13 rfl, reads 14 rfl, reads 15 rfl,
      reads 16 rfl, reads 17 rfl⟩
    case speed => exact (readsByte 4 (by simp [recordLayout, hv]) (speedCode_lt v)).trans (hspeed v).symm
    case cls => exact readsByte 5 (by simp [recordLayout, hk]) (by omega)
    case cause => exact (readsByte 6 (by simp [recordLayout, hv]) (causeCode_lt v)).trans (hcause v).symm
    case signOn => exact ⟨reads 8 (by simp [recordLayout, hd]), reads 9 (by simp [recordLayout, hd])⟩
    case connectAt => exact ⟨reads 10 (by simp [recordLayout, hd]), reads 11 (by simp [recordLayout, hd])⟩
    case neverConnected =>
      exact ⟨readsByte 10 (by simp [recordLayout, hd]) (by decide), reads 11 (v := 0) (by simp [recordLayout, hd])⟩
  case release =>
    refine ⟨_, billRelease_none_held h h1 h2 hs hr ha held, rfl, rfl, rfl, rfl, rfl, rfl, fun g hg => ?other,
      fun e alone he hw hv => ?own⟩
    case other => exact foldl_releasePins_frame hg _
    case own =>
      subst alone
      have kept := withoutRecords_one (s := afterReply s f rest .format) (behind := behind) he hw hv
      refine ⟨?_, ?_, ?_⟩
      · exact (congrArg (·.entryAt r.entry) kept).trans ((unpinned_entryAt _ _).trans (congrArg _ he))
      · exact (congrArg (fun t => (t.frame r.entry.1).pins) kept).trans (unpinned_pins _ _)
      · exact (congrArg (fun t => (t.frame r.entry.1).st) kept).trans ((unpinned_st _ _).trans hv)

end Sys2Proof.Machine
end

section
namespace Sys2Proof.Machine

/-! ### The groups of settings, and what each command leaves of them (R12, R32, R51, R58, R74, R95, R99, R100, R140, R145) -/

/-- The groups of settings, by the rule that gives each its requests. -/
inductive SettingGroup where
  | lines | fitted | texts | dialogue | directory | classes | reserve | capacity | windows | tariffs | waiting | mask
  | survey | hold

/-- The settings of the group are in `t` what they are in `s`. -/
def SettingGroup.Same (s t : State) : SettingGroup → Prop
  | .lines => ∀ l, (t.line l).settings = (s.line l).settings
  | .fitted => t.fitted = s.fitted
  | .texts => t.soe.texts = s.soe.texts
  | .dialogue => t.soe.attemptLimit = s.soe.attemptLimit ∧ t.soe.fieldTimeout = s.soe.fieldTimeout ∧
      t.soe.drainLimit = s.soe.drainLimit
  | .directory => t.acc.size = s.acc.size ∧ t.acc.wait = s.acc.wait
  | .classes => t.adm.classes = s.adm.classes
  | .reserve => t.adm.reserve = s.adm.reserve ∧ t.adm.openWait = s.adm.openWait
  | .capacity => t.adm.capacity = s.adm.capacity
  | .windows => ∀ i : Fin 4, t.ctu.windows[i] = { s.ctu.windows[i] with isOpen := t.ctu.windows[i].isOpen }
  | .tariffs => t.ctu.current = s.ctu.current ∧ t.ctu.generation = s.ctu.generation
  | .waiting => t.ctu.waiting = s.ctu.waiting
  | .mask => t.sfu.mask = s.sfu.mask
  | .survey => t.sfu.surveyLines = s.sfu.surveyLines ∧ t.sfu.surveyPeriod = s.sfu.surveyPeriod
  | .hold => t.hli.outHold = s.hli.outHold

theorem SettingGroup.Same.trans {s t u : State} {g : SettingGroup} (a : g.Same s t) (b : g.Same t u) : g.Same s u := by
  cases g
  case lines => exact fun l => (b l).trans (a l)
  case dialogue => exact ⟨b.1.trans a.1, b.2.1.trans a.2.1, b.2.2.trans a.2.2⟩
  case directory => exact ⟨b.1.trans a.1, b.2.trans a.2⟩
  case reserve => exact ⟨b.1.trans a.1, b.2.trans a.2⟩
  case windows => exact fun i => by rw [b i, a i]
  case tariffs => exact ⟨b.1.trans a.1, b.2.trans a.2⟩
  case survey => exact ⟨b.1.trans a.1, b.2.trans a.2⟩
  all_goals exact Eq.trans (b := _) b a

/-- The bounds of lanes, queues, store and buffers, and the call numbers, hold in `t` if they hold in `s`. -/
structure BoundsKept (s t : State) : Prop where
  link : LinkBounds s → LinkBounds t
  store : StoreBounds s → StoreBounds t
  buffers : BuffersBounded s → BuffersBounded t
  numbers : NumbersDistinct s → NumbersDistinct t

theorem BoundsKept.trans {s t u : State} (a : BoundsKept s t) (b : BoundsKept t u) : BoundsKept s u :=
  ⟨b.link ∘ a.link, b.store ∘ a.store, b.buffers ∘ a.buffers, b.numbers ∘ a.numbers⟩

/-- What a command that may change the settings `free` leaves and keeps. -/
structure Kept (free : SettingGroup → Prop) (s t : State) : Prop where
  pending : t.pending = s.pending
  same : ∀ g, ¬ free g → g.Same s t
  bounds : BoundsKept s t

variable {free : SettingGroup → Prop} {s t u : State}

theorem Kept.trans (a : Kept free s t) (b : Kept free t u) : Kept free s u :=
  ⟨b.pending.trans a.pending, fun g h => (a.same g h).trans (b.same g h), a.bounds.trans b.bounds⟩

/-- The later of two changes first: it says which state stands between them. -/
theorem Kept.after (b : Kept free t u) (a : Kept free s t) : Kept free s u := a.trans b

theorem Keeps.after (b : Keeps t u) (a : Keeps s t) : Keeps s u := a.trans b

theorem Local.after {l : LineNo} (b : Local l t u) (a : Local l s t) : Local l s u := a.trans b

/-- The operations below the commands change no settings. -/
theorem Keeps.kept (h : Keeps s t) : Kept free s t where
  pending := h.pending
  same g _ := by
    cases g
    case lines => exact h.settings
    case fitted => exact h.fitted
    case texts => exact h.texts
    case dialogue => exact ⟨h.attemptLimit, h.fieldTimeout, h.drainLimit⟩
    case directory => exact ⟨h.size, h.wait⟩
    case classes => exact h.classes
    case reserve => exact ⟨h.reserve, h.openWait⟩
    case capacity => exact h.capacity
    case windows => exact fun i => by rw [h.ctu]
    case tariffs => exact ⟨by rw [h.ctu], by rw [h.ctu]⟩
    case waiting => exact congrArg Ctu.waiting h.ctu
    case mask => exact h.mask
    case survey => exact ⟨h.surveyLines, h.surveyPeriod⟩
    case hold => exact h.outHold
  bounds := ⟨h.link, h.store, h.buffers, h.numbers⟩

theorem Kept.refl (s : State) : Kept free s s := (Keeps.refl s).kept

theorem Local.kept {l : LineNo} (h : Local l s t) : Kept free s t := h.keeps.kept

/-- The lanes and the inbound queue apart, nothing the invariants speak of has changed. -/
theorem BoundsKept.of_parts (hb : t.bst = s.bst) (hn : t.nextCall = s.nextCall) (hc : ∀ l, t.callOn l = s.callOn l)
    (hl : LinkBounds s → LinkBounds t) : BoundsKept s t where
  link := hl
  store h := ⟨by simpa [hb] using h.store, by simpa [hb] using h.held, by simpa [hb] using h.next⟩
  buffers h l c hlc := h l c (by simpa [hc] using hlc)
  numbers h := ⟨by simpa [hn] using h.next, fun l c hlc => h.range l c (by simpa [hc] using hlc),
    fun l m c d hl' hm => h.distinct l m c d (by simpa [hc] using hl') (by simpa [hc] using hm)⟩

/-- The host link changed within its bounds, and nothing else. -/
theorem Kept.hli (x : Hli) (ho : free .hold ∨ x.outHold = s.hli.outHold)
    (hl : LinkBounds s → LinkBounds { s with hli := x }) : Kept free s { s with hli := x } where
  pending := rfl
  same g h := by
    cases g
    case hold => exact ho.resolve_left h
    all_goals simp [SettingGroup.Same]
  bounds := .of_parts rfl rfl (fun _ => rfl) hl

theorem Kept.soe (x : Soe) (ht : free .texts ∨ x.texts = s.soe.texts)
    (hd : free .dialogue ∨ x.attemptLimit = s.soe.attemptLimit ∧ x.fieldTimeout = s.soe.fieldTimeout ∧
      x.drainLimit = s.soe.drainLimit) : Kept free s { s with soe := x } where
  pending := rfl
  same g h := by
    cases g
    case texts => exact ht.resolve_left h
    case dialogue => exact hd.resolve_left h
    all_goals simp [SettingGroup.Same]
  bounds := .of_parts rfl rfl (fun _ => rfl) fun h => ⟨h.inbound, h.receiving, h.priority, h.ordered, h.waiting⟩

theorem Kept.acc (x : Acc) (hd : free .directory ∨ x.size = s.acc.size ∧ x.wait = s.acc.wait) :
    Kept free s { s with acc := x } where
  pending := rfl
  same g h := by
    cases g
    case directory => exact hd.resolve_left h
    all_goals simp [SettingGroup.Same]
  bounds := .of_parts rfl rfl (fun _ => rfl) fun h => ⟨h.inbound, h.receiving, h.priority, h.ordered, h.waiting⟩

theorem Kept.adm (x : Adm) (hk : free .classes ∨ x.classes = s.adm.classes)
    (hr : free .reserve ∨ x.reserve = s.adm.reserve ∧ x.openWait = s.adm.openWait)
    (hc : free .capacity ∨ x.capacity = s.adm.capacity) : Kept free s { s with adm := x } where
  pending := rfl
  same g h := by
    cases g
    case classes => exact hk.resolve_left h
    case reserve => exact hr.resolve_left h
    case capacity => exact hc.resolve_left h
    all_goals simp [SettingGroup.Same]
  bounds := .of_parts rfl rfl (fun _ => rfl) fun h => ⟨h.inbound, h.receiving, h.priority, h.ordered, h.waiting⟩

theorem Kept.ctu (x : Ctu)
    (hw : free .windows ∨ ∀ i : Fin 4, x.windows[i] = { s.ctu.windows[i] with isOpen := x.windows[i].isOpen })
    (ht : free .tariffs ∨ x.current = s.ctu.current ∧ x.generation = s.ctu.generation)
    (hp : free .waiting ∨ x.waiting = s.ctu.waiting) : Kept free s { s with ctu := x } where
  pending := rfl
  same g h := by
    cases g
    case windows => exact hw.resolve_left h
    case tariffs => exact ht.resolve_left h
    case waiting => exact hp.resolve_left h
    all_goals simp [SettingGroup.Same]
  bounds := .of_parts rfl rfl (fun _ => rfl) fun h => ⟨h.inbound, h.receiving, h.priority, h.ordered, h.waiting⟩

theorem Kept.sfu (x : Sfu) (hm : free .mask ∨ x.mask = s.sfu.mask)
    (hs : free .survey ∨ x.surveyLines = s.sfu.surveyLines ∧ x.surveyPeriod = s.sfu.surveyPeriod) :
    Kept free s { s with sfu := x } where
  pending := rfl
  same g h := by
    cases g
    case mask => exact hm.resolve_left h
    case survey => exact hs.resolve_left h
    all_goals simp [SettingGroup.Same]
  bounds := .of_parts rfl rfl (fun _ => rfl) fun h => ⟨h.inbound, h.receiving, h.priority, h.ordered, h.waiting⟩

theorem Kept.fitted (n : Nat) (hf : free .fitted) : Kept free s { s with fitted := n } where
  pending := rfl
  same g h := by
    cases g
    case fitted => exact absurd hf h
    all_goals simp [SettingGroup.Same]
  bounds := .of_parts rfl rfl (fun _ => rfl) fun h => ⟨h.inbound, h.receiving, h.priority, h.ordered, h.waiting⟩

theorem Kept.stale (n : Nat) : Kept free s { s with stale := n } where
  pending := rfl
  same g h := by cases g <;> simp [SettingGroup.Same]
  bounds := .of_parts rfl rfl (fun _ => rfl) fun h => ⟨h.inbound, h.receiving, h.priority, h.ordered, h.waiting⟩

theorem Kept.ite {p : Prop} [Decidable p] (a : p → Kept free s t) (b : ¬ p → Kept free s u) :
    Kept free s (if p then t else u) := by
  split
  · exact a ‹_›
  · exact b ‹_›

theorem Kept.foldl {α : Type} (f : State → α → State) (h : ∀ s a, Kept free s (f s a)) (xs : List α) (s : State) :
    Kept free s (xs.foldl f s) := by
  induction xs generalizing s with
  | nil => exact Kept.refl s
  | cons x xs ih => exact (h s x).trans (ih _)

/-! ### The take of a host message -/

theorem popFrame_kept {f : InFrame} {rest : List InFrame} (h : s.hli.inQueue = f :: rest) : Kept free s (popFrame s rest) :=
  .hli _ (.inr rfl) fun b => by
    have inbound := b.inbound
    have receiving := b.receiving
    rw [h, List.length_cons] at inbound receiving
    exact ⟨by dsimp; omega, fun r => by have := receiving r; dsimp; omega, b.priority, b.ordered, b.waiting⟩

theorem refillPriority_kept (kept : Nat) (s : State) : Kept free s (refillPriority kept s) :=
  .hli _ (.inr rfl) fun b => ⟨b.inbound, b.receiving, (refillPriority_bounds kept s b.priority).1, b.ordered, b.waiting⟩

theorem pushPriority_kept (f : OutFrame) (h : s.hli.prio.length < 16) : Kept free s (pushPriority s f) :=
  .hli _ (.inr rfl) fun b => ⟨b.inbound, b.receiving, by simpa using h, b.ordered, b.waiting⟩

theorem setPriority_kept (s : State) (i : Nat) (f : OutFrame) : Kept free s (setPriority s i f) :=
  .hli _ (.inr rfl) fun b => ⟨b.inbound, b.receiving, by simpa using b.priority, b.ordered, b.waiting⟩

/-- What a take leaves: for a replied code the priority lane as it was, with a place for the REPLY (R7). -/
theorem takeFrame_some {code : Nat} {f : InFrame} (h : takeFrame s code = some (f, t)) :
    ∃ rest, s.hli.inQueue = f :: rest ∧ f.code = code ∧ frameForm f ≠ .malformed ∧
      ((isReplied code = true ∧ s.hli.prio.length < 16 ∧ t = popFrame s rest) ∨
        (isReplied code = false ∧ t = refillPriority 0 (popFrame s rest))) := by
  unfold takeFrame at h
  split at h
  · simp at h
  · next g rest hq =>
    split at h
    · next ok =>
      obtain ⟨hcode, hform, hroom⟩ := ok
      simp only [Option.some.injEq, Prod.mk.injEq] at h
      obtain ⟨rfl, rfl⟩ := h
      refine ⟨rest, hq, hcode, hform, ?_⟩
      cases r : isReplied code
      · exact .inr ⟨rfl, by simp⟩
      · exact .inl ⟨rfl, hroom r, by simp⟩
    · simp at h

theorem takeFrame_kept {code : Nat} {f : InFrame} (h : takeFrame s code = some (f, t)) : Kept free s t := by
  obtain ⟨rest, hq, -, -, ⟨-, -, rfl⟩ | ⟨-, rfl⟩⟩ := takeFrame_some h
  · exact popFrame_kept hq
  · exact (popFrame_kept hq).trans (refillPriority_kept 0 _)

theorem takeFrame_room {code : Nat} {f : InFrame} (h : takeFrame s code = some (f, t)) (r : isReplied code = true) :
    t.hli.prio.length < 16 := by
  obtain ⟨rest, -, -, -, ⟨-, room, rfl⟩ | ⟨no, -⟩⟩ := takeFrame_some h
  · exact room
  · exact absurd r (by simp [no])

/-- A replied request keeps what its effect keeps. -/
theorem takeReplied_kept {code : Nat} (r : isReplied code = true) {carry : InFrame → State → State × Answer}
    (h : ∀ f u, Kept free u (carry f u).1) (s : State) : Kept free s (takeReplied s code carry) := by
  unfold takeReplied
  split
  · exact Kept.refl s
  · next f t ht =>
    have place := (takeFrame_kept (free := free) ht).trans (pushPriority_kept (replyFrame f .format) (takeFrame_room ht r))
    exact (place.trans (h f _)).trans (setPriority_kept _ _ _)

theorem checked_kept {bad : Option Nat} {carry : State → State × Answer} (h : ∀ u, Kept free u (carry u).1) (s : State) :
    Kept free s (checked bad s carry).1 := by
  cases bad
  · exact h s
  · exact Kept.refl s

theorem takeSession_kept {code : Nat} {accepts : Call → Bool} {carry : InFrame → LineNo → Call → State → State}
    (h : ∀ f l c u, u.callOn l = some c → Kept free u (carry f l c u)) (s : State) :
    Kept free s (takeSession s code accepts carry) := by
  unfold takeSession
  split
  · exact Kept.refl s
  · next f t ht =>
    refine (takeFrame_kept ht).trans ?_
    split
    · exact .stale _
    · next c hc =>
      unfold sessionCall at hc
      split at hc
      · next d hd =>
        split at hc
        · exact h f _ c t (hc ▸ hd)
        · simp at hc
      · simp at hc

end Sys2Proof.Machine
end

section
namespace Sys2Proof.Machine

variable {free : SettingGroup → Prop} {s t u : State}

/-! ### What leaves the Billing Store alone -/

@[simp] theorem enqueuePriority_bst (s : State) (f : OutFrame) : (enqueuePriority s f).bst = s.bst := by
  unfold enqueuePriority; split <;> rfl

@[simp] theorem enqueueOrdered_bst (s : State) (f : OutFrame) : (enqueueOrdered s f).bst = s.bst := by
  unfold enqueueOrdered; split <;> rfl

@[simp] theorem raiseFault_bst (s : State) (k : FaultKind) (l : Option LineNo) (c : Option Nat) (d : Nat) (x : Bool) :
    (raiseFault s k l c d x).bst = s.bst := by
  simp only [raiseFault]
  split
  · rfl
  · split <;> simp

@[simp] theorem placeChars_bst (s : State) (l : LineNo) (chars : List Byte) : (placeChars s l chars).bst = s.bst := by
  unfold placeChars
  split
  · rfl
  · split <;> rfl

@[simp] theorem placeText_bst (s : State) (l : LineNo) (slot : Fin 24) (n : Option Nat) :
    (placeText s l slot n).bst = s.bst := by
  unfold placeText
  split <;> simp

@[simp] theorem haltIfDone_bst (s : State) : (haltIfDone s).bst = s.bst := by
  unfold haltIfDone
  split
  · split <;> simp
  · rfl

@[simp] theorem dropBare_bst (s : State) (l : LineNo) : (dropBare s l).bst = s.bst := rfl

@[simp] theorem leaveDrop_bst (s : State) (l : LineNo) : (leaveDrop s l).bst = s.bst := by
  unfold leaveDrop; split <;> rfl

@[simp] theorem createCall_bst (s : State) (l : LineNo) (p : Phase) (v : Option Speed) (k : CallSettings) :
    (createCall s l p v k).bst = s.bst := rfl

@[simp] theorem resign_bst (s : State) (l : LineNo) (c : Call) : (resign s l c).bst = s.bst := by
  simp [resign, startDialogue, enterName]

@[simp] theorem removeCall_bst (s : State) (l : LineNo) : (removeCall s l).bst = s.bst := by
  unfold removeCall
  split
  · rfl
  · dsimp only
    split
    · split <;> simp
    · split <;> simp
    · simp

/-- A record placed stands at the store's tail; the held order is not touched (R175). -/
theorem placeRecord_bst (s : State) (l : LineNo) :
    (placeRecord s l).bst.held = s.bst.held ∧
    ((placeRecord s l).bst.store = s.bst.store ∧ (placeRecord s l).bst.nextRecord = s.bst.nextRecord ∨
      ∃ r, (placeRecord s l).bst.store = s.bst.store ++ [r] ∧
        (placeRecord s l).bst.nextRecord = advanceNumber s.bst.nextRecord) := by
  unfold placeRecord
  split
  · exact ⟨rfl, .inl ⟨rfl, rfl⟩⟩
  · next c _ =>
    split
    · exact ⟨rfl, .inl ⟨rfl, rfl⟩⟩
    · next a _ =>
      dsimp only
      rw [removeCall_bst, recordPins, State.bst_modEntry]
      split
      · rw [raiseFault_bst, enqueueOrdered_bst]
        exact ⟨rfl, .inr ⟨makeRecord s l c a, rfl, rfl⟩⟩
      · rw [enqueueOrdered_bst]
        exact ⟨rfl, .inr ⟨makeRecord s l c a, rfl, rfl⟩⟩

/-! ### BILL RELEASE keeps the bounds (R175, R176, R178) -/

/-- The head of the held order leaves it. -/
theorem popHeld_keeps {l : LineNo} {rest : List LineNo} (h : s.bst.held = l :: rest) :
    Keeps s { s with bst := { s.bst with held := rest } } :=
  Keeps.bst s _ fun b => ⟨b.store, fun _ => b.held (by simp [h]), b.next⟩

theorem placeHeld_keeps (held : List LineNo) (s : State) (h : s.bst.held = held) : Keeps s (placeHeld held s).1 := by
  induction held generalizing s with
  | nil => exact Keeps.refl s
  | cons l rest ih =>
    unfold placeHeld
    split
    · next room =>
      refine ((popHeld_keeps h).trans (placeRecord_local _ l (by simpa [Config.storeDepth] using room)).keeps).trans (ih _ ?_)
      exact (placeRecord_bst _ l).1
    · exact Keeps.refl s

/-- Held calls go on being placed until none is left or the store is full (R178). -/
theorem placeHeld_store (held : List LineNo) (s : State) (h : s.bst.held = held) (room : s.bst.store.length ≤ 32)
    (next : 1 ≤ s.bst.nextRecord ∧ s.bst.nextRecord ≤ 65535) : StoreBounds (placeHeld held s).1 := by
  induction held generalizing s with
  | nil => exact ⟨room, fun w => absurd h w, next⟩
  | cons l rest ih =>
    unfold placeHeld
    split
    · next less =>
      obtain ⟨hheld, hstore⟩ := placeRecord_bst { s with bst := { s.bst with held := rest } } l
      simp only [Config.storeDepth] at less
      refine ih _ hheld ?_ ?_
      · rcases hstore with ⟨e, -⟩ | ⟨r, e, -⟩
        · rw [e]; exact room
        · rw [e, List.length_append, List.length_singleton]; exact less
      · rcases hstore with ⟨-, e⟩ | ⟨r, -, e⟩
        · rw [e]; exact next
        · rw [e]; exact advanceNumber_range _
    · next full =>
      simp only [Config.storeDepth] at full
      exact ⟨room, fun _ => by dsimp only; omega, next⟩

theorem withoutRecords_keeps (s : State) (gone behind : List BillRecord) :
    Keeps { s with bst := { s.bst with store := behind } } (withoutRecords s gone behind) :=
  Keeps.foldl (fun s (r : BillRecord) => releasePins s r.entry) (fun s r => releasePins_keeps s r.entry) gone _

theorem removeRecords_eq_take (s : State) (n : Nat) :
    removeRecords s n = withoutRecords s (s.bst.store.take n) (s.bst.store.drop n) := rfl

theorem releaseRecords_kept (number : Nat) (s : State) : Kept free s (releaseRecords s number).1 := by
  unfold releaseRecords
  split
  · exact Kept.refl s
  · next i _ =>
    rw [removeRecords_eq_take]
    have cache := withoutRecords_cacheOnly s (s.bst.store.take (i + 1)) (s.bst.store.drop (i + 1))
    have removed := withoutRecords_keeps s (s.bst.store.take (i + 1)) (s.bst.store.drop (i + 1))
    generalize withoutRecords s (s.bst.store.take (i + 1)) (s.bst.store.drop (i + 1)) = v at cache removed
    have bst : v.bst = { s.bst with store := s.bst.store.drop (i + 1) } := congrArg State.bst cache
    have rest : Kept free { s with bst := { s.bst with store := s.bst.store.drop (i + 1) } } (placeHeld v.bst.held v).1 :=
      (removed.trans (placeHeld_keeps _ _ rfl)).kept
    have bounded : StoreBounds s →
        StoreBounds (placeHeld v.bst.held v).1 := by
      intro b
      have := b.store
      refine placeHeld_store _ _ rfl ?_ ?_
      · rw [bst, List.length_drop]
        omega
      · rw [bst]; exact b.next
    dsimp only
    generalize (placeHeld v.bst.held v).1 = u at rest bounded
    refine ⟨rest.pending, fun g h => SettingGroup.Same.trans (by cases g <;> simp [SettingGroup.Same]) (rest.same g h), ?_⟩
    exact ⟨fun b => rest.bounds.link ⟨b.inbound, b.receiving, b.priority, b.ordered, b.waiting⟩, bounded,
      fun b => rest.bounds.buffers b, fun b => rest.bounds.numbers ⟨b.next, b.range, b.distinct⟩⟩

/-! ### The host link -/

theorem noCalls_bounds (hb : t.bst = Bst.powerOn) (hn : t.nextCall = 1) (hc : ∀ l, t.callOn l = none) (hl : LinkBounds t) :
    BoundsKept s t where
  link _ := hl
  store _ := ⟨by simp [hb, Bst.powerOn], by simp [hb, Bst.powerOn], by simp [hb, Bst.powerOn]⟩
  buffers _ l c h := by simp [hc] at h
  numbers _ := ⟨by simp [hn], fun l c h => by simp [hc] at h, fun l m c d h => by simp [hc] at h⟩

theorem powerOnState_kept (s : State) (rx : Receiver) : Kept (fun _ => True) s (powerOnState s rx) where
  pending := rfl
  same _ h := absurd trivial h
  bounds := noCalls_bounds rfl rfl (fun l => by simp [powerOnState, Line.powerOn])
    ⟨by simp [powerOnState, Hli.powerOn], by simp [powerOnState, Hli.powerOn], by simp [powerOnState, Hli.powerOn],
      by simp [powerOnState, Hli.powerOn], by simp [powerOnState, Hli.powerOn]⟩

theorem restartState_kept (s : State) : Kept (fun _ => True) s (restartState s) where
  pending := rfl
  same _ h := absurd trivial h
  bounds := noCalls_bounds rfl rfl (fun l => by simp [restartState, Line.powerOn])
    ⟨by simp [restartState, Hli.powerOn], by simp [restartState, Hli.powerOn], by simp [restartState, Hli.powerOn],
      by simp [restartState, Hli.powerOn], by simp [restartState, Hli.powerOn]⟩

/-- A receiver that is not receiving any more. -/
theorem receiver_kept (s : State) (rx : Receiver) (n m : Nat) (h : rx ≠ .receiving) :
    Kept free s { s with hli := { s.hli with rx := rx, linkFrames := n, overruns := m } } :=
  .hli _ (.inr rfl) fun b => ⟨b.inbound, fun e => absurd e h, b.priority, b.ordered, b.waiting⟩

theorem endFrame_kept (bytes : List Byte) (h : s.hli.rx = .receiving) : Kept free s (endFrame s bytes) := by
  unfold endFrame
  dsimp only
  split
  · exact (receiver_kept s .idle _ s.hli.overruns (by decide)).trans (raiseFault_keeps _ _ _ _ _ _).kept
  · refine .hli _ (.inr rfl) fun b => ⟨?_, fun e => (nomatch e), b.priority, b.ordered, b.waiting⟩
    have := b.receiving h
    simp only [List.length_append, List.length_singleton]
    omega

theorem execInboundFrameEnd_kept {bytes : List Byte} (h : execInboundFrameEnd bytes s = .next t) : Kept free s t := by
  obtain rfl := Host.Outcome.next.inj h
  split
  · exact Kept.refl s
  · next h => exact endFrame_kept bytes h
  · exact (receiver_kept s .idle s.hli.linkFrames _ (by decide)).trans (raiseFault_keeps _ _ _ _ _ _).kept
  · exact receiver_kept s .idle s.hli.linkFrames s.hli.overruns (by decide)

theorem execInboundFrameStart_kept (h : execInboundFrameStart s = .next t) : Kept free s t := by
  obtain rfl := Host.Outcome.next.inj h
  refine .ite (fun _ => .hli _ (.inr rfl) fun b => ?_) fun _ => Kept.refl s
  refine ⟨b.inbound, fun e => ?_, b.priority, b.ordered, b.waiting⟩
  by_contra full
  have hold : inboundHold s = true := decide_eq_true (Nat.not_lt.1 full)
  simp [hold] at e

theorem takeMalformed_kept {f : InFrame} {rest : List InFrame} (h : s.hli.inQueue = f :: rest)
    (room : s.hli.prio.length < 16) : Kept free s (takeMalformed s f rest) := by
  have replied : Kept free s (pushPriority (popFrame s rest) (replyFrame f .format)) :=
    (popFrame_kept h).trans (pushPriority_kept _ room)
  have counted := replied.trans (Kept.hli { (pushPriority (popFrame s rest) (replyFrame f .format)).hli with
    formatErrors := bump (pushPriority (popFrame s rest) (replyFrame f .format)).hli.formatErrors } (.inr rfl)
    fun b => ⟨b.inbound, b.receiving, b.priority, b.ordered, b.waiting⟩)
  unfold takeMalformed
  exact .ite (fun _ => counted.trans (raiseFault_keeps _ _ _ _ _ _).kept)
    fun _ => counted.trans (raiseFault_keeps _ _ _ _ _ _).kept

theorem execFrameMalformed_kept (h : execFrameMalformed s = .next t) : Kept free s t := by
  obtain rfl := Host.Outcome.next.inj h
  split
  · exact Kept.refl s
  · next h => exact .ite (fun ok => takeMalformed_kept h ok.2) fun _ => Kept.refl s

/-- The place freed in a full ordered lane goes to the head of the wait order, so that a message waits only while the lane is
full (R13). -/
theorem refillOrdered_kept {f : OutFrame} {rest : List OutFrame} (h : s.hli.ord = f :: rest) (x : Option (OutFrame × Bool)) :
    Kept free s (refillOrdered { s with hli := { s.hli with ord := rest, tx := x } }) := by
  unfold refillOrdered
  split
  · next none =>
    refine .hli _ (.inr rfl) fun b => ⟨b.inbound, b.receiving, b.priority, ?_, fun w => absurd none w⟩
    have := b.ordered
    rw [h, List.length_cons] at this
    dsimp only
    omega
  · next g more hw =>
    have waits : s.hli.ordWait = g :: more := hw
    unfold enqueueOrdered
    split
    · refine .hli _ (.inr rfl) fun b => ⟨b.inbound, b.receiving, b.priority, ?_, fun _ => ?_⟩
      all_goals
        have full := b.waiting (by simp [waits])
        rw [h, List.length_cons] at full
        simp only [List.length_append, List.length_singleton]
        omega
    · next big =>
      refine .hli _ (.inr rfl) fun b => ?_
      have := b.ordered
      rw [h, List.length_cons] at this
      simp only [Config.orderedDepth] at big
      omega

theorem startOrdered_kept {f : OutFrame} {rest : List OutFrame} (h : s.hli.ord = f :: rest) :
    Kept free s (startOrdered s f rest) := by
  have refilled : Kept free s (refillOrdered { s with hli := { s.hli with ord := rest, tx := some (f, true) } }) :=
    refillOrdered_kept h _
  exact .ite (fun _ => refilled.trans (serveForward_keeps _).kept) fun _ => refilled

theorem startPriority_kept {f : OutFrame} {rest : List OutFrame} (h : s.hli.prio = f :: rest) (requestFirst : Bool) :
    Kept free s (startPriority s f rest requestFirst) := by
  refine Kept.trans (.hli { s.hli with prio := rest, tx := some (f, true) } (.inr rfl) fun b => ?_) (refillPriority_kept _ _)
  have := b.priority
  rw [h, List.length_cons] at this
  exact ⟨b.inbound, b.receiving, by dsimp only; omega, b.ordered, b.waiting⟩

theorem execTransmissionStart_kept {requestFirst : Bool} (h : execTransmissionStart requestFirst s = .next t) :
    Kept free s t := by
  obtain rfl := Host.Outcome.next.inj h
  refine .ite (fun _ => Kept.refl s) fun _ => ?_
  split
  · next h => exact startPriority_kept h requestFirst
  · split
    · next h => exact startOrdered_kept h
    · exact Kept.refl s

theorem closedTransmitted_keeps (s : State) (l : LineNo) (n : Nat) : Keeps s (closedTransmitted s l n) := by
  unfold closedTransmitted
  split
  · exact Keeps.refl s
  · exact .ite (fun _ => (releaseSlot_keeps s l).trans (closeOut_local _ l).keeps) fun _ => Keeps.refl s

theorem execFrameTransmitted_kept (h : execFrameTransmitted s = .next t) : Kept free s t := by
  obtain rfl := Host.Outcome.next.inj h
  split
  · exact Kept.refl s
  · have idle : Kept free s { s with hli := { s.hli with tx := none } } :=
      .hli _ (.inr rfl) fun b => ⟨b.inbound, b.receiving, b.priority, b.ordered, b.waiting⟩
    dsimp only
    split
    · exact .ite (fun _ => idle.trans (closedTransmitted_keeps _ _ _).kept) fun _ => idle
    · exact idle

end Sys2Proof.Machine
end

section
namespace Sys2Proof.Machine

variable {free : SettingGroup → Prop} {s t u : State}

/-! ### The service, the survey and the faults -/

theorem openService_kept (s : State) : Kept free s (openService s).1 := by
  unfold openService
  split
  · exact Kept.refl s
  · exact .sfu _ (.inr rfl) (.inr ⟨rfl, rfl⟩)
  · split
    · exact .sfu _ (.inr rfl) (.inr ⟨rfl, rfl⟩)
    · exact Kept.refl s

theorem leaveOpenLine_local (s : State) (l : LineNo) : Local l s (leaveOpenLine s l) := by
  unfold leaveOpenLine
  split
  · exact Local.modLine s l _ rfl (CallStep.refl _)
  · exact dropBare_local s l
  · exact Local.refl l s

theorem closeService_kept (s : State) (mode : CloseMode) : Kept free s (closeService s mode).1 := by
  unfold closeService
  split
  · exact Kept.refl s
  · have left : Keeps s (if s.sfu.service = .opened then allLines.foldl leaveOpenLine s else s) :=
      .ite (fun _ => Keeps.foldl _ (fun s l => (leaveOpenLine_local s l).keeps) _ s) fun _ => Keeps.refl s
    unfold closeFrom
    refine left.kept.trans (Kept.trans ?_ ((endAll_keeps _ _ _).trans (haltIfDone_keeps _)).kept)
    exact .sfu _ (.inr rfl) (.inr ⟨rfl, rfl⟩)

theorem execRestart_kept {mode : RestartMode} (h : execRestart mode s = .next t) : Kept (fun _ => True) s t := by
  obtain rfl := Host.Outcome.next.inj h
  split
  · exact Kept.refl s
  · next f u hu =>
    have taken : Kept (fun _ => True) s u := takeFrame_kept hu
    refine .ite (fun _ => taken.trans (pushPriority_kept _ (takeFrame_room hu (by decide)))) fun _ => ?_
    exact (taken.trans (restartState_kept u)).trans (pushPriority_kept _ (by simp [restartState, Hli.powerOn]))

theorem clearCounters_kept (s : State) : Kept free s (clearCounters s) where
  pending := rfl
  same g _ := by cases g <;> simp [SettingGroup.Same, clearCounters]
  bounds := { link := fun h => ⟨h.inbound, h.receiving, h.priority, h.ordered, h.waiting⟩
              store := fun h => ⟨h.store, h.held, h.next⟩
              buffers := fun h l c hc => h l c (by simpa [clearCounters, State.callOn_eq] using hc)
              numbers := fun h => ⟨h.next, fun l c hc => h.range l c (by simpa [clearCounters, State.callOn_eq] using hc),
                fun l m c d hc hd => h.distinct l m c d (by simpa [clearCounters, State.callOn_eq] using hc)
                  (by simpa [clearCounters, State.callOn_eq] using hd)⟩ }

theorem produceSurvey_keeps (s : State) : Keeps s (produceSurvey s) := by
  unfold produceSurvey
  split
  · exact Keeps.refl s
  · exact enqueuePriority_keeps s _

theorem setSurvey_kept (hf : free .survey) (s : State) (lines : List LineNo) (period : Interval) :
    Kept free s (setSurvey s lines period) := by
  unfold setSurvey
  dsimp only
  split
  · have withdrawn : Kept free s { s with hli := { s.hli with prioWait := s.hli.prioWait.filter fun f => !isSurvey f } } :=
      .hli _ (.inr rfl) fun b => ⟨b.inbound, b.receiving, b.priority, b.ordered, b.waiting⟩
    exact withdrawn.trans (.sfu _ (.inr rfl) (.inl hf))
  · exact (produceSurvey_keeps _).kept.after (.sfu _ (.inr rfl) (.inl hf))

/-! ### Lines -/

/-- The settings of a line change, within the same call. -/
theorem setLineSettings_kept (hf : free .lines) (s : State) (l : LineNo) (x : LineSettings) :
    Kept free s (setLineSettings s l x) := by
  have plain : ∀ c, (changeFlow c x.flowControl).number = c.number ∧ (changeFlow c x.flowControl).nameBuf = c.nameBuf ∧
      (changeFlow c x.flowControl).pwBuf = c.pwBuf ∧ (changeFlow c x.flowControl).txBuf = c.txBuf ∧
      (changeFlow c x.flowControl).batch = c.batch ∧ (changeFlow c x.flowControl).notices = c.notices ∧
      (changeFlow c x.flowControl).meter.acc = c.meter.acc := by
    intro c
    unfold changeFlow
    split
    · simp
    · dsimp only
      split <;> simp
  refine Kept.after (Local.modCall_plain _ l _ plain).kept ⟨rfl, fun g h => ?_, ?_⟩
  · cases g
    case lines => exact absurd hf h
    all_goals simp [SettingGroup.Same]
  · refine .of_parts rfl rfl (fun m => ?_) fun h => ⟨h.inbound, h.receiving, h.priority, h.ordered, h.waiting⟩
    by_cases e : m = l
    · subst e; simp [State.callOn_eq]
    · simp [State.callOn_eq, e]

theorem enableLine_local (s : State) (l : LineNo) : Local l s (enableLine s l) :=
  .ite (fun _ => Local.modLine s l _ rfl (CallStep.refl _)) fun _ => Local.refl l s

theorem bareOff_local (s : State) (l : LineNo) : Local l s (bareOff s l) := by
  unfold bareOff
  split
  · split
    · exact goOff_local s l
    · exact goOff_local s l
    · exact goOff_local s l
    · exact goOff_local s l
    · exact Local.refl l s
    · exact Local.refl l s
    · exact Local.refl l s
    · exact Local.refl l s
  · exact Local.refl l s

theorem disableLine_keeps (s : State) (l : LineNo) (mode : DisableMode) : Keeps s (disableLine s l mode) := by
  unfold disableLine
  split
  · exact (bareOff_local s l).keeps
  · have marked : Keeps s (s.modLine l fun x => { x with disablePending := true }) :=
      (Local.modLine s l _ rfl (CallStep.refl _)).keeps
    cases mode
    · exact marked.trans (endCall_keeps _ l _)
    · exact marked

theorem setFitted_kept (hf : free .fitted) (s : State) (n : Nat) : Kept free s (setFitted s n) := by
  have fitted : Kept free s { s with fitted := n } := .fitted n hf
  refine .ite (fun _ => fitted.trans (Keeps.kept ?_)) fun _ => fitted
  exact (Keeps.foldl _ (fun s l => (bareOff_local s l).keeps) _ _).trans (endAll_keeps _ _ _)

theorem enterAnswer_local (s : State) (l : LineNo) (dataLow : Bool) : Local l s (enterAnswer s l dataLow) := by
  have answered : Local l s ((s.modLine l fun x => { x with
      st := .answer, ringCount := 0, ringGap := none, answerWait := startTimerAtLeastOne x.settings.answerWait }).modCounters l
        fun k => { k with answers := bump k.answers }) :=
    (Local.modLine s l _ rfl (CallStep.refl _)).trans (Local.modCounters _ l _)
  exact .ite (fun _ => answered.trans (carrierInAnswer_local _ l dataLow)) fun _ => answered

theorem countRing_local (s : State) (l : LineNo) (dataLow : Bool) (n : Nat) : Local l s (countRing s l dataLow n) := by
  have counted : Local l s ((s.modLine l fun x => { x with
      st := .ring, ringCount := n, ringGap := some Config.ringGapSeconds, rxLow := dataLow }).modCounters l
        fun k => { k with rings := bump k.rings }) :=
    (Local.modLine s l _ rfl (CallStep.refl _)).trans (Local.modCounters _ l _)
  exact .ite (fun _ => counted.trans (enterAnswer_local _ l dataLow)) fun _ => counted

theorem execRing_keeps {rise : LineRise} (h : execRing rise s = .next t) : Keeps s t := by
  obtain rfl := Host.Outcome.next.inj h
  split
  · exact Keeps.refl s
  · split
    · exact .ite (fun _ => (countRing_local s _ _ _).keeps) fun _ => Keeps.refl s
    · exact (countRing_local s _ _ _).keeps
    all_goals exact Keeps.refl s

theorem failAttempt_keeps (s : State) (l : LineNo) : Keeps s (failAttempt s l) := by
  have counted : Keeps s ((s.modLine l fun x => { x with attempts := x.attempts + 1 }).modCounters l
      fun k => { k with autobaudFailures := bump k.autobaudFailures }) :=
    ((Local.modLine s l _ rfl (CallStep.refl _)).trans (Local.modCounters _ l _)).keeps
  exact .ite (fun _ => counted.trans (endCall_keeps _ l _)) fun _ => counted

theorem acceptSpeed_local (s : State) (l : LineNo) (v : Speed) : Local l s (acceptSpeed s l v) :=
  .after (startDialogue_local _ l) <| .after (Local.modCall_plain _ l _ fun _ => ⟨rfl, rfl, rfl, rfl, rfl, rfl, rfl⟩) <|
    Local.modLine s l _ rfl (CallStep.refl _)

theorem takeWidth_keeps (s : State) (l : LineNo) (w : Nat) : Keeps s (takeWidth s l w) := by
  have noted : Keeps s (s.modLine l fun x => { x with lastWidth := w }) :=
    (Local.modLine s l _ rfl (CallStep.refl _)).keeps
  unfold takeWidth
  dsimp only
  split
  · exact noted.trans (acceptSpeed_local _ l _).keeps
  · exact noted.trans (failAttempt_keeps _ l)

theorem execReceiveDataRise_keeps {l : LineNo} (h : execReceiveDataRise l s = .next t) : Keeps s t := by
  obtain rfl := Host.Outcome.next.inj h
  have risen : Keeps s (s.modLine l fun x => { x with rxWait := false, rxLow := false, zeroHeld := false }) :=
    (Local.modLine s l _ rfl (CallStep.refl _)).keeps
  exact .ite (fun _ => risen.trans (Local.modCounters _ l _).keeps) fun _ => risen

theorem countCarrierLoss_local (s : State) (l : LineNo) : Local l s (countCarrierLoss s l) :=
  (Local.modLine s l _ rfl (CallStep.refl _)).trans (Local.modCounters _ l _)

theorem enterFade_local (s : State) (l : LineNo) (i : Interval) : Local l s (enterFade s l i) :=
  ((Local.modLine s l _ rfl (CallStep.refl _)).trans (Local.modCounters _ l _)).trans
    (Local.modCall_plain _ l _ fun _ => ⟨rfl, rfl, rfl, rfl, rfl, rfl, rfl⟩)

theorem loseCarrier_keeps (s : State) (l : LineNo) : Keeps s (loseCarrier s l) := by
  unfold loseCarrier
  split
  · exact (dropBare_local s l).keeps
  · exact .ite (fun _ => (dropLine_local s l).keeps) fun _ =>
      .ite (fun _ => (enterFade_local s l _).keeps) fun _ => endCallLost_keeps s l _

theorem execCarrierLoss_keeps {l : LineNo} (h : execCarrierLoss l s = .next t) : Keeps s t := by
  obtain rfl := Host.Outcome.next.inj h
  have charged := completeStep_keeps endCall_keeps s l
  split
  all_goals refine charged.trans ?_
  · exact (countCarrierLoss_local _ l).keeps.trans (loseCarrier_keeps _ l)
  · exact (countCarrierLoss_local _ l).keeps.trans (loseCarrier_keeps _ l)
  · exact (countCarrierLoss_local _ l).keeps
  all_goals exact (Local.modLine _ l _ rfl (CallStep.refl _)).keeps

theorem execDropGuardPassed_keeps {l : LineNo} (h : execDropGuardPassed l s = .next t) : Keeps s t := by
  obtain rfl := Host.Outcome.next.inj h
  have passed : Local l s (s.modLine l fun x => { x with dropGuard := none }) :=
    Local.modLine s l _ rfl (CallStep.refl _)
  exact .ite (fun _ => (Local.ite (fun _ => passed.trans (leaveDrop_local _ l)) fun _ => passed).keeps) fun _ => Keeps.refl s

/-! ### Characters -/

theorem countFraming_local (s : State) (l : LineNo) : Local l s (countFraming s l) := Local.modCounters s l _

theorem execReceivedCharacter_keeps {l : LineNo} {bits : Byte} {parity stop : Bool}
    (h : execReceivedCharacter l bits parity stop s = .next t) : Keeps s t := by
  obtain rfl := Host.Outcome.next.inj h
  have line (f : Line → Line) (hs : ∀ x, (f x).settings = x.settings) (hc : ∀ x, (f x).call = x.call) :
      Keeps s (s.modLine l f) :=
    (Local.modLine s l f (hs _) (by rw [hc]; exact CallStep.refl _)).keeps
  split
  · exact Keeps.refl s
  · refine .ite (fun _ => .ite (fun _ => ?_) fun _ => ?_) fun _ => Keeps.refl s
    · refine (line (fun x => { x with rxLow := false }) (fun _ => rfl) fun _ => rfl).trans ?_
      unfold goodStop
      exact .ite (fun _ => (Local.modCounters _ l _).keeps.trans (deliverCharacter_keeps _ l _))
        fun _ => deliverCharacter_keeps _ l _
    · unfold lowStop
      exact .ite (fun _ => line _ (fun _ => rfl) fun _ => rfl)
        fun _ => (line (fun x => { x with rxLow := true }) (fun _ => rfl) fun _ => rfl).trans (countFraming_local _ l).keeps

theorem execZeroCharacterEnded_keeps {l : LineNo} (h : execZeroCharacterEnded l s = .next t) : Keeps s t := by
  obtain rfl := Host.Outcome.next.inj h
  exact .ite (fun _ => ((Local.modLine s l _ rfl (CallStep.refl _)).trans (countFraming_local _ l)).keeps)
    fun _ => Keeps.refl s

theorem execBreakSeen_keeps {l : LineNo} (h : execBreakSeen l s = .next t) : Keeps s t := by
  obtain rfl := Host.Outcome.next.inj h
  exact .ite (fun _ => (((Local.modLine s l _ rfl (CallStep.refl _)).trans (Local.modCounters _ l _)).trans
    (deliverBreak_local _ l)).keeps) fun _ => Keeps.refl s

theorem execTransmitterFree_keeps {l : LineNo} (h : execTransmitterFree l s = .next t) : Keeps s t := by
  obtain rfl := Host.Outcome.next.inj h
  have freed : Local l s (s.modLine l fun x => { x with txChar := none }) := Local.modLine s l _ rfl (CallStep.refl _)
  exact (Local.ite (fun _ => (freed.trans (offerOutput_local _ l)).trans (drainCheck_local _ l)) fun _ => freed).keeps

/-! ### The account cache -/

theorem setDirectory_kept (hf : free .directory) (s : State) (size : Nat) (wait : Interval) :
    Kept free s (setDirectory s size wait).1 := by
  unfold setDirectory
  split
  · exact .acc _ (.inl hf)
  · split
    · exact .acc _ (.inl hf)
    · exact Kept.refl s

theorem invalidateBucket_keeps (s : State) (bucket : Nat) : Keeps s (invalidateBucket s bucket).1 := by
  unfold invalidateBucket
  split
  · exact Keeps.refl s
  · split
    · exact Keeps.refl s
    · exact Keeps.refl s
    · exact Keeps.refl s
    · next f _ _ _ =>
      split
      · exact emptyFrame_keeps s f
      · exact modFrame_keeps s f fun y => { y with st := .refreshDue }

theorem onAccount_keeps {carry : State → FrameNo × EntryNo → State × Answer} (h : ∀ s a, Keeps s (carry s a).1)
    (s : State) (bucket account : Nat) : Keeps s (onAccount s bucket account carry).1 := by
  unfold onAccount
  split
  · exact Keeps.refl s
  · split
    · exact Keeps.refl s
    · exact h s _

theorem adjustEntry_keeps (delta : Int) (s : State) (a : FrameNo × EntryNo) : Keeps s (adjustEntry delta s a).1 :=
  (modEntry_keeps s a _).trans (evaluateAllowance_keeps endCall_keeps _ a)

theorem suspendEntry_keeps (s : State) (a : FrameNo × EntryNo) : Keeps s (suspendEntry s a).1 :=
  (modEntry_keeps s a _).trans (endAll_keeps _ _ _)

theorem execBucketData_kept (h : execBucketData s = .next t) : Kept free s t := by
  obtain rfl := Host.Outcome.next.inj h
  split
  · exact Kept.refl s
  · next ht => exact (takeFrame_kept ht).trans (applyBucketData_keeps _ _).kept

theorem execDirectoryWaitExpiry_keeps {slot : SlotNo} (h : execDirectoryWaitExpiry slot s = .next t) : Keeps s t := by
  obtain rfl := Host.Outcome.next.inj h
  split
  · exact Keeps.refl s
  · refine .ite (fun _ => ?_) fun _ => Keeps.refl s
    exact .after (serveBacklog_keeps _) <| .after (raiseFault_keeps _ _ _ _ _ _) <| .after (Keeps.acc _ _ rfl rfl) <|
      failFetch_keeps s slot _

/-! ### Admission -/

theorem setCapacity_kept (hr : free .reserve) (hc : free .capacity) (s : State) (c r : Nat) (w : Interval) :
    Kept free s (setCapacity s c r w).1 :=
  (runArbiter_keeps _).kept.after (.adm _ (.inr rfl) (.inl hr) (.inl hc))

theorem startAnnouncement_local (period : Interval) (s : State) (l : LineNo) :
    Local l s (startAnnouncement period s l) :=
  Local.modCall_plain s l _ fun c => by split <;> exact ⟨rfl, rfl, rfl, rfl, rfl, rfl, rfl⟩

theorem setClass_kept (hf : free .classes) (s : State) (k : ClassNo) (r : ClassRecord) : Kept free s (setClass s k r).1 := by
  have replaced : Kept free s { s with adm := { s.adm with classes := s.adm.classes.set k r } } :=
    .adm _ (.inl hf) (.inr ⟨rfl, rfl⟩) (.inr rfl)
  have announced (p : Prop) [Decidable p] : Kept free s (if p then (s.adm.queues[k]).foldl (startAnnouncement r.announce)
      { s with adm := { s.adm with classes := s.adm.classes.set k r } }
      else { s with adm := { s.adm with classes := s.adm.classes.set k r } }) :=
    .ite (fun _ => replaced.trans (Keeps.foldl _ (fun s l => (startAnnouncement_local _ s l).keeps) _ _).kept)
      fun _ => replaced
  unfold setClass
  dsimp only
  split
  · exact announced _
  · exact (announced _).trans (runArbiter_keeps _).kept

theorem clearOpen_local (s : State) (l : LineNo) : Local l s (clearOpen s l) :=
  Local.modCall_plain s l _ fun _ => ⟨rfl, rfl, rfl, rfl, rfl, rfl, rfl⟩

theorem startConnected_local (s : State) (l : LineNo) : Local l s (startConnected s l) := by
  have warned : Local l s (warnAtConnect s l) := by
    unfold warnAtConnect
    split
    · exact .ite (fun _ => warnCall_local s l) fun _ => Local.refl l s
    · exact Local.refl l s
  unfold startConnected
  refine .ite (fun _ => ?_) fun _ => Local.refl l s
  refine Local.trans ?_ (grantTest_local _ l)
  exact (warned.trans (startStep_local _ l)).plain _ fun _ => ⟨rfl, rfl, rfl, rfl, rfl, rfl, rfl⟩

theorem acceptCall_keeps (s : State) (l : LineNo) (c : Call) : Keeps s (acceptCall s l c) := by
  have connected : Keeps s ((clearOpen s l).modCall l fun c =>
      { c with connectAt := some s.ctu.now, phase := .connected
               meter := { c.meter with genAtConnect := s.ctu.generation, stepPos := 0, acc := 0 } }) := by
    refine Local.keeps (l := l) (.after ?_ (clearOpen_local s l))
    exact Local.modCall _ l _ fun _ _ => ⟨rfl, fun b =>
      ⟨b.name, b.password, b.transmit, b.batch, b.notices, Nat.zero_lt_succ _⟩⟩
  have charged (u : State) (k : ClassNo) : Keeps u (chargeFee u l k) := by
    refine Keeps.trans ?_ (evaluateCall_keeps endCall_keeps _ l)
    refine Keeps.trans ?_ (addUnits_local _ l _).keeps
    refine Local.keeps (l := l) ?_
    exact Local.modCall_plain u l _ fun _ => ⟨rfl, rfl, rfl, rfl, rfl, rfl, rfl⟩
  exact ((connected.trans (queueNotice_local _ l 10 none).keeps).trans (charged _ _)).trans (startConnected_local _ l).keeps

theorem closeLate_local (s : State) (l : LineNo) : Local l s (closeLate s l) :=
  .after (settle_local _ l) <| .after (Local.modCall_plain _ l _ fun _ => ⟨rfl, rfl, rfl, rfl, rfl, rfl, rfl⟩) <|
    clearOpen_local s l

theorem noteFull_keeps (s : State) (l : LineNo) (n : Nat) : Keeps s (noteFull s l n) :=
  (raiseFault_keeps _ _ _ _ _ _).after (Keeps.adm s _ rfl rfl rfl rfl)

theorem countDenial_keeps (s : State) : Keeps s (countDenial s) := Keeps.adm s _ rfl rfl rfl rfl

theorem clearedSlot_kept (hf : free .capacity) (s : State) (l : LineNo) :
    Kept free s (lowerCapacity (clearSlot (clearOpen s l) l)) :=
  ((clearOpen_local s l).trans (clearSlot_local _ l)).kept.trans (.adm _ (.inr rfl) (.inr ⟨rfl, rfl⟩) (.inl hf))

theorem refuseFull_kept (hf : free .capacity) (s : State) (l : LineNo) (c : Call) : Kept free s (refuseFull s l c) := by
  unfold refuseFull
  refine (clearedSlot_kept hf s l).trans (Keeps.kept ?_)
  refine Keeps.trans ?_ (noteFull_keeps _ l _)
  exact (Keeps.ite (fun _ => endCall_keeps _ l _) fun _ => (joinHead_local _ l _).keeps).trans (runArbiter_keeps _)

theorem refuseDenied_keeps (s : State) (l : LineNo) : Keeps s (refuseDenied s l) :=
  (((clearOpen_local s l).keeps.trans (releaseSlot_keeps _ l)).trans (countDenial_keeps _)).trans (endCall_keeps _ l _)

theorem refuseLate_kept (reason : RefuseReason) (hf : reason = .full → free .capacity) (s : State) (l : LineNo) (c : Call) :
    Kept free s (refuseLate s l c reason) := by
  cases reason
  · refine (clearedSlot_kept (hf rfl) s l).trans (Keeps.kept ?_)
    exact ((runArbiter_keeps _).trans (noteFull_keeps _ l _)).trans (settle_local _ l).keeps
  · exact ((((clearOpen_local s l).keeps.trans (releaseSlot_keeps _ l)).trans (countDenial_keeps _)).trans
      (settle_local _ l).keeps).kept

theorem openRefused_kept (reason : RefuseReason) (hf : reason = .full → free .capacity) (s : State) (l : LineNo) (c : Call) :
    Kept free s (if c.phase = .opening then
      match reason with
      | .full => refuseFull s l c
      | .denied => refuseDenied s l
    else refuseLate s l c reason) := by
  refine .ite (fun _ => ?_) fun _ => refuseLate_kept reason hf s l c
  cases reason
  · exact refuseFull_kept (hf rfl) s l c
  · exact (refuseDenied_keeps s l).kept

theorem execQueueWaitExpiry_keeps {l : LineNo} (h : execQueueWaitExpiry l s = .next t) : Keeps s t := by
  obtain rfl := Host.Outcome.next.inj h
  split
  · exact Keeps.refl s
  · exact .ite (fun _ => (endCall_keeps _ l _).after (Keeps.adm s _ rfl rfl rfl rfl)) fun _ => Keeps.refl s

theorem execAnnouncementTimerExpiry_keeps {l : LineNo} (h : execAnnouncementTimerExpiry l s = .next t) : Keeps s t := by
  obtain rfl := Host.Outcome.next.inj h
  split
  · exact Keeps.refl s
  · refine .ite (fun _ => Local.keeps (l := l) ?_) fun _ => Keeps.refl s
    exact .after (Local.modCall_plain _ l _ fun _ => ⟨rfl, rfl, rfl, rfl, rfl, rfl, rfl⟩) (placeText_local s l 9 _)

theorem noteOpenTimeout_keeps (s : State) (l : LineNo) (c : Call) : Keeps s (noteOpenTimeout s l c) :=
  (raiseFault_keeps _ _ _ _ _ _).after (Keeps.adm s _ rfl rfl rfl rfl)

theorem execOpenWaitExpiry_keeps {l : LineNo} (h : execOpenWaitExpiry l s = .next t) : Keeps s t := by
  obtain rfl := Host.Outcome.next.inj h
  split
  · exact Keeps.refl s
  · refine .ite (fun _ => Keeps.refl s) fun _ => .ite (fun _ => ?_) fun _ => .ite (fun _ => ?_) fun _ => Keeps.refl s
    · exact ((clearOpen_local s l).keeps.trans (endCall_keeps _ l _)).trans (noteOpenTimeout_keeps _ l _)
    · exact (closeLate_local s l).keeps.trans (noteOpenTimeout_keeps _ l _)

/-! ### The calendar and the clock -/

theorem bandChangeCall_keeps (s : State) (b : BandNo) (l : LineNo) : Keeps s (bandChangeCall s b l) := by
  unfold bandChangeCall
  split
  · exact Keeps.refl s
  · refine .ite (fun _ => Keeps.refl s) fun _ => ?_
    split
    · exact Keeps.refl s
    · exact .ite (fun _ => (removeCause_local s l _).keeps) fun _ => addCause_keeps endCall_keeps s l _ _

theorem evaluateBand_kept (s : State) : Kept free s (evaluateBand s) := by
  unfold evaluateBand
  refine .ite (fun _ => Kept.refl s) fun _ => ?_
  have changed (b : Option BandNo) (n : Nat) : Kept free s { s with ctu := { s.ctu with band := b, bandChanges := n } } :=
    .ctu _ (.inr fun _ => rfl) (.inr ⟨rfl, rfl⟩) (.inr rfl)
  dsimp only
  split
  · exact changed _ _
  · exact (changed _ _).trans (Keeps.foldl _ (fun s l => bandChangeCall_keeps s _ l) _ _).kept

theorem switchTariff_kept (ht : free .tariffs) (hw : free .waiting) (s : State) : Kept free s (switchTariff s) := by
  unfold switchTariff
  split
  · exact Kept.refl s
  · exact (evaluateBand_kept _).after (.ctu _ (.inr fun _ => rfl) (.inl ht) (.inl hw))

theorem activate_kept (ht : free .tariffs) (hw : free .waiting) (s : State) : Kept free s (activate s) := by
  refine .ite (fun _ => ?_) fun _ => Kept.refl s
  exact (switchTariff_kept ht hw _).after (.ctu _ (.inr fun _ => rfl) (.inr ⟨rfl, rfl⟩) (.inr rfl))

/-- What an evaluation of windows leaves of the calendar: everything but the windows' states and their counter (R144). -/
structure WindowsEvaluated (c d : Ctu) : Prop where
  windows : ∀ i : Fin 4, d.windows[i] = { c.windows[i] with isOpen := d.windows[i].isOpen }
  rest : d = { c with windows := d.windows, openings := d.openings }

theorem WindowsEvaluated.refl (c : Ctu) : WindowsEvaluated c c := ⟨fun _ => rfl, rfl⟩

theorem WindowsEvaluated.trans {c d e : Ctu} (a : WindowsEvaluated c d) (b : WindowsEvaluated d e) : WindowsEvaluated c e :=
  ⟨fun i => by rw [b.windows i, a.windows i], by rw [b.rest, a.rest]⟩

theorem evaluateWindow_evaluated (c : Ctu) (i : Fin 4) : WindowsEvaluated c (evaluateWindow c i) where
  windows j := by
    by_cases e : i = j
    · subst e; simp [evaluateWindow]
    · have : i.val ≠ j.val := fun h => e (Fin.ext h)
      simp [evaluateWindow, this]
  rest := rfl

theorem foldl_evaluateWindow (is : List (Fin 4)) (c : Ctu) : WindowsEvaluated c (is.foldl evaluateWindow c) := by
  induction is generalizing c with
  | nil => exact .refl c
  | cons i is ih => exact (evaluateWindow_evaluated c i).trans (ih _)

theorem WindowsEvaluated.kept {c : Ctu} (h : WindowsEvaluated s.ctu c) : Kept free s { s with ctu := c } :=
  .ctu _ (.inr h.windows) (.inr ⟨by rw [h.rest], by rw [h.rest]⟩) (.inr (by rw [h.rest]))

theorem evaluateWindows_kept (s : State) : Kept free s (evaluateWindows s) := (foldl_evaluateWindow _ s.ctu).kept

theorem barCall_keeps (s : State) (k : ClassNo) (l : LineNo) : Keeps s (barCall s k l) := by
  unfold barCall
  split
  · exact Keeps.refl s
  · exact .ite (fun _ => .ite (fun _ => endCall_keeps s l _) fun _ => addCause_keeps endCall_keeps s l _ _)
      fun _ => Keeps.refl s

theorem releaseCall_keeps (s : State) (k : ClassNo) (l : LineNo) : Keeps s (releaseCall s k l) := by
  unfold releaseCall
  split
  · exact Keeps.refl s
  · exact .ite (fun _ => (removeCause_local s l _).keeps) fun _ => Keeps.refl s

theorem evaluateBarred_kept (s : State) : Kept free s (evaluateBarred s) := by
  unfold evaluateBarred
  refine Kept.after (Keeps.foldl _ (fun s k => ?_) _ _).kept (.ctu _ (.inr fun _ => rfl) (.inr ⟨rfl, rfl⟩) (.inr rfl))
  exact .ite (fun _ => Keeps.foldl _ (fun s l => barCall_keeps s k l) _ _) fun _ =>
    .ite (fun _ => Keeps.foldl _ (fun s l => releaseCall_keeps s k l) _ _) fun _ => Keeps.refl s

theorem minuteEvaluation_kept (ht : free .tariffs) (hw : free .waiting) (s : State) : Kept free s (minuteEvaluation s) :=
  (((activate_kept ht hw s).trans (evaluateBand_kept _)).trans (evaluateWindows_kept _)).trans (evaluateBarred_kept _)

theorem setClock_kept (ht : free .tariffs) (hw : free .waiting) (s : State) (d h m n : Nat) :
    Kept free s (setClock s d h m n).1 :=
  (minuteEvaluation_kept ht hw _).after (.ctu _ (.inr fun _ => rfl) (.inr ⟨rfl, rfl⟩) (.inr rfl))

theorem takeSwitch_kept (ht : free .tariffs) (hw : free .waiting) (s : State) : Kept free s (takeSwitch s).1 := by
  unfold takeSwitch
  split
  · exact switchTariff_kept ht hw s
  · exact Kept.refl s

theorem setWindow_kept (hf : free .windows) (s : State) (i : Fin 4) (days : Byte) (start length : Nat) (classes : Byte) :
    Kept free s (setWindow s i days start length classes).1 :=
  (evaluateBarred_kept _).after (.ctu _ (.inl hf) (.inr ⟨rfl, rfl⟩) (.inr rfl))

theorem tickClock_kept (c : Ctu) : (tickClock c).windows = c.windows ∧ (tickClock c).current = c.current ∧
    (tickClock c).generation = c.generation ∧ (tickClock c).waiting = c.waiting := by
  unfold tickClock
  split
  · simp
  · split
    · simp
    · split
      · simp
      · split <;> simp

theorem tickCall_bounds (x : LineState) (c : Call) (b : CallBounds c) : CallBounds (tickCall x c) := by
  refine ⟨b.name, b.password, b.transmit, b.batch, b.notices, ?_⟩
  have : (tickMeter x c.phase c.meter).acc = c.meter.acc := by
    unfold tickMeter
    split
    · split <;> rfl
    · rfl
  exact this ▸ b.accumulator

theorem tick_line (s : State) (l : LineNo) : (tick s).line l = tickLine (s.line l) := by simp [tick]

theorem tick_call {l : LineNo} {d : Call} (h : (tick s).callOn l = some d) :
    ∃ c, s.callOn l = some c ∧ d = tickCall (s.line l).st c := by
  rw [State.callOn_eq, tick_line, tickLine, Option.map_eq_some_iff] at h
  obtain ⟨c, hc, rfl⟩ := h
  exact ⟨c, hc, rfl⟩

@[simp] theorem tick_pending (s : State) : (tick s).pending = s.pending := by unfold tick; rfl
@[simp] theorem tick_hli (s : State) : (tick s).hli = s.hli := by unfold tick; rfl
@[simp] theorem tick_bst (s : State) : (tick s).bst = s.bst := by unfold tick; rfl
@[simp] theorem tick_nextCall (s : State) : (tick s).nextCall = s.nextCall := by unfold tick; rfl
@[simp] theorem tick_ctu (s : State) : (tick s).ctu = tickClock s.ctu := by unfold tick; rfl

theorem tick_bounds (s : State) : BoundsKept s (tick s) where
  link b := ⟨by simpa using b.inbound, by simpa using b.receiving, by simpa using b.priority, by simpa using b.ordered,
    by simpa using b.waiting⟩
  store b := ⟨by simpa using b.store, by simpa using b.held, by simpa using b.next⟩
  buffers b := by
    intro l d h
    obtain ⟨c, hc, rfl⟩ := tick_call h
    exact tickCall_bounds _ c (b l c hc)
  numbers b := by
    refine ⟨by simpa using b.next, fun l d h => ?_, fun l m d e hd he hn => ?_⟩
    · obtain ⟨c, hc, rfl⟩ := tick_call h
      exact b.range l c hc
    · obtain ⟨c, hc, rfl⟩ := tick_call hd
      obtain ⟨c', hc', rfl⟩ := tick_call he
      exact b.distinct l m c c' hc hc' hn

theorem tick_same (s : State) (g : SettingGroup) : g.Same s (tick s) := by
  obtain ⟨windows, current, generation, waiting⟩ := tickClock_kept s.ctu
  have ctu := tick_ctu s
  cases g
  case lines => exact fun l => by rw [tick_line]; rfl
  case windows => exact fun i => by rw [ctu, windows]
  case tariffs => exact ⟨by rw [ctu, current], by rw [ctu, generation]⟩
  case waiting => exact (congrArg Ctu.waiting ctu).trans waiting
  all_goals simp [SettingGroup.Same, tick, tickCache]

theorem tick_kept (s : State) : Kept free s (tick s) := ⟨tick_pending s, fun g _ => tick_same s g, tick_bounds s⟩

theorem execDeadlineExpiry_keeps {l : LineNo} (h : execDeadlineExpiry l s = .next t) : Keeps s t := by
  obtain rfl := Host.Outcome.next.inj h
  split
  · exact Keeps.refl s
  · split
    · exact Keeps.refl s
    · split
      · exact endCall_keeps s l _
      · exact endCall_keeps s l _
      · exact endCall_keeps s l _
      all_goals exact Keeps.refl s

/-- A match on a call's record that leaves a line without one alone. -/
theorem Keeps.onCall (l : LineNo) {f : Call → State} (h : ∀ c, s.callOn l = some c → Keeps s (f c)) :
    Keeps s (match s.callOn l with | none => s | some c => f c) := by
  split
  · exact Keeps.refl s
  · exact h _ ‹_›

end Sys2Proof.Machine
end

section
namespace Sys2Proof.Machine

variable {s t : State}

/-! ### Every command keeps the bounds, and the settings that are not its own -/

/-- The command is a request of the group's rule, or one of the other events by which the group may change. -/
def IsRequestFor (c : Instr) : SettingGroup → Prop
  | .lines => ∃ x, c = .lineSet x
  | .fitted => ∃ n, c = .linesFitted n
  | .texts => c = .textLoad
  | .dialogue => ∃ a b d, c = .dialogueSet a b d
  | .directory => ∃ n w, c = .directorySet n w
  | .classes => ∃ k r, c = .classSet k r
  | .reserve => ∃ n r w, c = .capacitySet n r w
  | .capacity => (∃ n r w, c = .capacitySet n r w) ∨ c = .openRefuse .full
  | .windows => ∃ n d st len m, c = .windowSet n d st len m
  | .tariffs => c = .tariffSwitch ∨ (∃ d h m sec, c = .clockSet d h m sec) ∨ c = .minuteChange
  | .waiting => c = .tariffSwitch ∨ (∃ d h m sec, c = .clockSet d h m sec) ∨ c = .minuteChange ∨ ∃ p, c = .tariffLoad p
  | .mask => ∃ k, c = .faultMask k
  | .survey => ∃ ls p, c = .surveySet ls p
  | .hold => ∃ h, c = .outboundHoldChange h

/-- The groups of settings that a command may change. -/
def freed (c : Instr) (g : SettingGroup) : Prop := c = .powerOn ∨ (∃ m, c = .restart m) ∨ IsRequestFor c g

theorem freed_of_request {c : Instr} {g : SettingGroup} (h : IsRequestFor c g) : freed c g := .inr (.inr h)

theorem completes_kept {c : Instr} (h : Completes c s t) : Kept (freed c) s t := by
  have next {r : State} (e : exec c s = .next r) (k : Kept (freed c) s r) : Kept (freed c) s t := by
    obtain rfl := Host.Outcome.next.inj (e.symm.trans h)
    exact k
  have line {l : LineNo} {f : Line → Line} (hs : ∀ x, (f x).settings = x.settings) (hc : ∀ x, (f x).call = x.call) :
      Keeps s (s.modLine l f) := (Local.modLine s l f (hs _) (by rw [hc]; exact CallStep.refl _)).keeps
  cases c
  case powerOn => exact next rfl ⟨rfl, fun _ no => absurd (.inl rfl) no, (powerOnState_kept s _).bounds⟩
  case restart =>
    have all := execRestart_kept h
    exact ⟨all.pending, fun _ no => absurd (.inr (.inl ⟨_, rfl⟩)) no, all.bounds⟩
  case inboundFrameEnd => exact execInboundFrameEnd_kept h
  case inboundFrameStart => exact execInboundFrameStart_kept h
  case frameMalformed => exact execFrameMalformed_kept h
  case transmissionStart => exact execTransmissionStart_kept h
  case frameTransmitted => exact execFrameTransmitted_kept h
  case outboundHoldChange =>
    exact next rfl (.hli _ (.inl (freed_of_request ⟨_, rfl⟩)) fun b => ⟨b.inbound, b.receiving, b.priority, b.ordered, b.waiting⟩)
  case serviceOpen => exact next rfl (takeReplied_kept (by decide) (fun _ u => openService_kept u) s)
  case serviceClose m => exact next rfl (takeReplied_kept (by decide) (fun _ u => closeService_kept u m) s)
  case statusQuery =>
    exact next rfl (takeReplied_kept (by decide) (fun _ u => .ite (fun _ => clearCounters_kept u) fun _ => .refl u) s)
  case lineQuery => exact next rfl (takeReplied_kept (by decide) (fun _ u => .refl u) s)
  case surveySet ls p =>
    exact next rfl (takeReplied_kept (by decide) (fun _ => checked_kept fun u => setSurvey_kept (freed_of_request ⟨_, _, rfl⟩) u ls p) s)
  case surveyTimerExpiry =>
    refine next rfl (.ite (fun _ => .after (produceSurvey_keeps _).kept ?_) fun _ => .refl s)
    exact .sfu _ (.inr rfl) (.inr ⟨rfl, rfl⟩)
  case faultClear =>
    refine next rfl (takeReplied_kept (by decide) (fun _ u => ?_) s)
    exact .sfu _ (.inr rfl) (.inr ⟨rfl, rfl⟩)
  case faultTest => exact next rfl (takeReplied_kept (by decide) (fun _ u => (raiseFault_keeps u _ _ _ _ _).kept) s)
  case faultMask =>
    refine next rfl (takeReplied_kept (by decide) (fun _ u => ?_) s)
    exact .sfu _ (.inl (freed_of_request ⟨_, rfl⟩)) (.inr ⟨rfl, rfl⟩)
  case auditClear =>
    refine next rfl (takeReplied_kept (by decide) (fun _ u => Keeps.kept ?_) s)
    exact Keeps.bst u _ fun b => ⟨b.store, b.held, b.next⟩
  case billRead => exact next rfl (takeReplied_kept (by decide) (fun _ => checked_kept fun u => .refl u) s)
  case billRelease n =>
    exact next rfl (takeReplied_kept (by decide) (fun _ => checked_kept fun u => releaseRecords_kept n u) s)
  case lineSet x =>
    refine next rfl (takeReplied_kept (by decide) (fun f u => ?_) s)
    split
    · exact checked_kept (fun u => setLineSettings_kept (freed_of_request ⟨_, rfl⟩) u (lineOf f) x) u
    · exact .refl u
  case lineEnable =>
    refine next rfl (takeReplied_kept (by decide) (fun f u => ?_) s)
    split
    · exact (enableLine_local u _).kept
    · exact .refl u
  case lineDisable m => exact next rfl (takeReplied_kept (by decide) (fun f u => (disableLine_keeps u _ m).kept) s)
  case linesFitted n =>
    exact next rfl (takeReplied_kept (by decide) (fun _ => checked_kept fun u => setFitted_kept (freed_of_request ⟨_, rfl⟩) u n) s)
  case textLoad =>
    refine next rfl (takeReplied_kept (by decide) (fun _ => checked_kept fun u => ?_) s)
    exact .soe _ (.inl (freed_of_request rfl)) (.inr ⟨rfl, rfl, rfl⟩)
  case dialogueSet =>
    refine next rfl (takeReplied_kept (by decide) (fun _ => checked_kept fun u => ?_) s)
    exact .soe _ (.inr rfl) (.inl (freed_of_request ⟨_, _, _, rfl⟩))
  case directorySet n w =>
    exact next rfl (takeReplied_kept (by decide) (fun _ => checked_kept fun u => setDirectory_kept (freed_of_request ⟨_, _, rfl⟩) u n w) s)
  case bucketData => exact execBucketData_kept h
  case bucketInvalidate b =>
    exact next rfl (takeReplied_kept (by decide) (fun _ => checked_kept fun u => (invalidateBucket_keeps u b).kept) s)
  case allowanceAdjust b a d =>
    exact next rfl (takeReplied_kept (by decide)
      (fun _ => checked_kept fun u => (onAccount_keeps (adjustEntry_keeps d) u b a).kept) s)
  case accountSuspend b a =>
    exact next rfl (takeReplied_kept (by decide)
      (fun _ => checked_kept fun u => (onAccount_keeps suspendEntry_keeps u b a).kept) s)
  case capacitySet n r w =>
    exact next rfl (takeReplied_kept (by decide) (fun _ => checked_kept fun u =>
      setCapacity_kept (freed_of_request ⟨_, _, _, rfl⟩) (freed_of_request (.inl ⟨_, _, _, rfl⟩)) u n r w) s)
  case classSet k r =>
    exact next rfl (takeReplied_kept (by decide)
      (fun _ => checked_kept fun u => setClass_kept (freed_of_request ⟨_, _, rfl⟩) u _ r) s)
  case openAccept =>
    exact next rfl (takeSession_kept (fun _ l c u _ =>
      .ite (fun _ => (acceptCall_keeps u l c).kept) fun _ => (closeLate_local u l).kept) s)
  case openRefuse reason =>
    have full : reason = .full → freed (.openRefuse reason) .capacity := by
      rintro rfl
      exact freed_of_request (.inr rfl)
    refine next rfl (takeSession_kept (fun _ l c u _ => .ite (fun _ => ?_) fun _ => refuseLate_kept reason full u l c) s)
    cases reason
    · exact refuseFull_kept (full rfl) u l c
    · exact (refuseDenied_keeps u l).kept
  case hostData =>
    exact next rfl (takeSession_kept (fun _ l c u hc => (acceptHostData_local u l c _ hc).kept) s)
  case hostClose => exact next rfl (takeSession_kept (fun _ l _ u _ => (endCall_keeps u l _).kept) s)
  case clockSet d hr m n =>
    exact next rfl (takeReplied_kept (by decide) (fun _ => checked_kept fun u =>
      setClock_kept (freed_of_request (.inr (.inl ⟨_, _, _, _, rfl⟩))) (freed_of_request (.inr (.inl ⟨_, _, _, _, rfl⟩)))
        u d hr m n) s)
  case tariffLoad =>
    refine next rfl (takeReplied_kept (by decide) (fun _ => checked_kept fun u => ?_) s)
    exact .ctu _ (.inr fun _ => rfl) (.inr ⟨rfl, rfl⟩) (.inl (freed_of_request (.inr (.inr (.inr ⟨_, rfl⟩)))))
  case tariffSwitch =>
    exact next rfl (takeReplied_kept (by decide)
      (fun _ u => takeSwitch_kept (freed_of_request (.inl rfl)) (freed_of_request (.inl rfl)) u) s)
  case windowSet =>
    exact next rfl (takeReplied_kept (by decide)
      (fun _ => checked_kept fun u => setWindow_kept (freed_of_request ⟨_, _, _, _, _, rfl⟩) u _ _ _ _ _) s)
  case ring => exact (execRing_keeps h).kept
  case ringGapExpiry =>
    refine next rfl (.ite (fun _ => Keeps.kept ?_) fun _ => .refl s)
    exact line (fun _ => rfl) fun _ => rfl
  case carrierArrival => exact next rfl (raiseCarrier_keeps s _ _).kept
  case carrierReturn => exact next rfl (raiseCarrier_keeps s _ _).kept
  case answerWaitExpiry =>
    exact next rfl (.ite (fun _ => ((Local.modCounters s _ _).trans (dropBare_local _ _)).kept) fun _ => .refl s)
  case widthMeasured =>
    refine next rfl (.ite (fun _ => Keeps.kept ?_) fun _ => .refl s)
    have measured := line (l := ‹LineNo›) (f := fun x => { x with widthCounter := (‹Fin 4096›).val, rxLow := false })
      (fun _ => rfl) fun _ => rfl
    exact .ite (fun _ => measured) fun _ => measured.trans (takeWidth_keeps _ _ _)
  case widthCounterOverflow =>
    exact next rfl (.ite (fun _ => Keeps.kept (.after (failAttempt_keeps _ _) (line (fun _ => rfl) fun _ => rfl)))
      fun _ => .refl s)
  case speedWaitExpiry => exact next rfl (.ite (fun _ => (endCall_keeps s _ _).kept) fun _ => .refl s)
  case receivedCharacter => exact (execReceivedCharacter_keeps h).kept
  case zeroCharacterEnded => exact (execZeroCharacterEnded_keeps h).kept
  case breakSeen => exact (execBreakSeen_keeps h).kept
  case transmitterFree => exact (execTransmitterFree_keeps h).kept
  case carrierLoss => exact (execCarrierLoss_keeps h).kept
  case holdoverExpiry =>
    exact next rfl (.ite (fun _ => ((Local.modCounters s _ _).keeps.trans (endCall_keeps _ _ _)).kept) fun _ => .refl s)
  case dropGuardPassed => exact (execDropGuardPassed_keeps h).kept
  case fieldTimerExpiry l =>
    exact next rfl (Keeps.onCall l fun _ _ => .ite (fun _ => endCall_keeps s l _) fun _ => .refl s).kept
  case directoryWaitExpiry => exact (execDirectoryWaitExpiry_keeps h).kept
  case queueWaitExpiry => exact (execQueueWaitExpiry_keeps h).kept
  case announcementTimerExpiry => exact (execAnnouncementTimerExpiry_keeps h).kept
  case openWaitExpiry => exact (execOpenWaitExpiry_keeps h).kept
  case batchGapExpiry l =>
    exact next rfl (Keeps.onCall l fun _ _ => .ite (fun _ => (batchDue_local s l).keeps) fun _ => .refl s).kept
  case oneSecondEvent =>
    refine next rfl (.after (tick_kept _) (Keeps.kept ?_))
    exact Keeps.foldl _ (fun s l => completeStep_keeps endCall_keeps s l) _ s
  case minuteChange =>
    refine next rfl (.ite (fun _ => .after (minuteEvaluation_kept (freed_of_request (.inr (.inr rfl)))
      (freed_of_request (.inr (.inr (.inl rfl)))) _) ?_) fun _ => .refl s)
    exact .ctu _ (.inr fun _ => rfl) (.inr ⟨rfl, rfl⟩) (.inr rfl)
  case stepCompletion => exact next rfl (completeStep_keeps endCall_keeps s _).kept
  case deadlineExpiry => exact (execDeadlineExpiry_keeps h).kept
  case idleTimerExpiry l =>
    exact next rfl (Keeps.onCall l fun _ _ => .ite (fun _ => endCall_keeps s l _) fun _ => .refl s).kept
  case drainLimitExpiry l =>
    exact next rfl (Keeps.onCall l fun _ _ => .ite (fun _ => (dropLine_local s l).keeps) fun _ => .refl s).kept
  case receiveDataRise => exact (execReceiveDataRise_keeps h).kept

/-- A step is a command carried out on the state without it, or none. -/
theorem step_next (h : step s = .next t) : t = s ∨ ∃ c rest, s.pending = c :: rest ∧ Completes c { s with pending := rest } t := by
  unfold step at h
  split at h
  · exact .inl (Host.Outcome.next.inj h).symm
  · next c rest hp => exact .inr ⟨c, rest, hp, h⟩

theorem step_bounds (h : step s = .next t) : BoundsKept s t := by
  obtain rfl | ⟨c, rest, -, hc⟩ := step_next h
  · exact ⟨id, id, id, id⟩
  · have taken : BoundsKept s { s with pending := rest } :=
      .of_parts rfl rfl (fun _ => rfl) fun b => ⟨b.inbound, b.receiving, b.priority, b.ordered, b.waiting⟩
    exact taken.trans (completes_kept hc).bounds

/-- Settles O1: the two equations of `step`. -/
theorem stepTakesFrontCommand : Obligations.StepTakesFrontCommand := by
  refine ⟨fun s none => ?idle, fun s c rest front => ?front⟩
  case idle => rw [step, none]
  case front => rw [step, front]

/-- Settles O56: a group that the command does not free stands as it stood. -/
theorem settingsChangeOnlyByTheirRequests : Obligations.SettingsChangeOnlyByTheirRequests := by
  intro c s t h
  have kept := completes_kept h
  refine ⟨kept.pending, ?_⟩
  by_cases on : c = .powerOn
  · exact .inl on
  by_cases again : ∃ m, c = .restart m
  · exact .inr (.inl again)
  have same (g : SettingGroup) : IsRequestFor c g ∨ g.Same s t := by
    by_cases request : IsRequestFor c g
    · exact .inl request
    · exact .inr (kept.same g fun free => free.elim on fun rest => rest.elim again request)
  refine .inr (.inr ⟨same .lines, same .fitted, same .texts, same .dialogue, same .directory, same .classes, same .reserve,
    or_assoc.1 (same .capacity), same .windows, ?tariffs, same .mask, same .survey, same .hold⟩)
  case tariffs =>
    rcases same .tariffs with (switch | clock | minute) | ⟨current, generation⟩
    · exact .inl switch
    · exact .inr (.inl clock)
    · exact .inr (.inr (.inl minute))
    · rcases same .waiting with (switch | clock | minute | load) | waiting
      · exact .inl switch
      · exact .inr (.inl clock)
      · exact .inr (.inr (.inl minute))
      · exact .inr (.inr (.inr ⟨current, generation, .inl load⟩))
      · exact .inr (.inr (.inr ⟨current, generation, .inr waiting⟩))

/-- Settles O58: no operation gives two records the same number. -/
theorem everyStepKeepsCallNumbersDistinct : Obligations.EveryStepKeepsCallNumbersDistinct :=
  fun _ _ h => (step_bounds h).numbers

end Sys2Proof.Machine
end

section
namespace Sys2Proof.Machine

variable {cr : Prop} {T Q : LineNo → Prop} {s t u : State} {l : LineNo}

/-! ### The invariant of lines, calls and slots (R31, R73, R101, R102, R126, R134, R176) -/

/-- What the invariant asks of one line. `cr` turns the credit clause on; a line in transit carries a call whose ending event
has come and whose line strand has not; a line that is moving carries a call between its
lookup, its queue and its opening. -/
structure LineOk (cr transit moving : Prop) (x : Line) : Prop where
  fits : ¬ transit → x.fits = true
  ended : transit → ∃ c, x.call = some c ∧ c.phase = .ending ∧ c.endCause.isSome = true ∧ c.released = false
  flag : ∀ c, x.call = some c → c.slotHeld = true →
    c.attach.isSome = true ∧ (c.phase = .opening ∨ c.phase = .connected ∨ c.phase = .ending)
  attached : ∀ c, x.call = some c → (c.phase = .queued ∨ c.phase = .opening) → c.attach.isSome = true
  unattached : ¬ moving → ∀ c, x.call = some c →
    (c.phase = .speed ∨ c.phase = .name ∨ c.phase = .password ∨ c.phase = .lookup) → c.attach = none
  credit : cr → ∀ c, x.call = some c → c.txBuf.length + c.credit ≤ 256 ∧ (c.phase ≠ .connected → c.credit = 0)

/-- The invariant while the lines of `T` are in transit and those of `Q` are moving. -/
structure Inv (cr : Prop) (T Q : LineNo → Prop) (s : State) : Prop where
  line : ∀ l, LineOk cr (T l) (Q l) (s.line l)
  count : s.adm.inUse = allLines.countP (holdsSlot s)
  most : s.adm.inUse ≤ 32
  capacity : s.adm.capacity ≤ 32
  queued : ∀ (k : ClassNo) l, l ∈ s.adm.queues[k] → s.phaseIs l .queued = true ∨ Q l
  held : ∀ l, l ∈ s.bst.held → s.phaseIs l .held = true
  once : s.bst.held.Nodup

/-- The invariant between commands. -/
abbrev Whole (cr : Prop) (s : State) : Prop := Inv cr (fun _ => False) (fun _ => False) s

/-- The invariant passes from `s` to `t`, whichever lines are in transit or moving. -/
def Safe (s t : State) : Prop := ∀ cr T Q, Inv cr T Q s → Inv cr T Q t

theorem Safe.refl (s : State) : Safe s s := fun _ _ _ h => h

theorem Safe.trans (a : Safe s t) (b : Safe t u) : Safe s u := fun cr T Q h => b cr T Q (a cr T Q h)

/-- The later of two changes first. -/
theorem Safe.after (b : Safe t u) (a : Safe s t) : Safe s u := a.trans b

theorem Safe.ite {p : Prop} [Decidable p] (a : p → Safe s t) (b : ¬ p → Safe s u) : Safe s (if p then t else u) := by
  split
  · exact a ‹_›
  · exact b ‹_›

theorem Safe.foldl {α : Type} (f : State → α → State) (h : ∀ s a, Safe s (f s a)) (xs : List α) (s : State) :
    Safe s (xs.foldl f s) := by
  induction xs generalizing s with
  | nil => exact Safe.refl s
  | cons x xs ih => exact (h s x).trans (ih _)

theorem phaseIs_iff {p : Phase} : s.phaseIs l p = true ↔ ∃ c, s.callOn l = some c ∧ c.phase = p := by
  unfold State.phaseIs
  split <;> simp [*]

theorem holdsSlot_eq_any (s : State) (l : LineNo) : holdsSlot s l = (s.callOn l).any Call.slotHeld := by
  unfold holdsSlot
  split <;> simp [*]

/-! ### The slots in use -/

theorem countP_eq_of_off {α : Type} {p q : α → Bool} {a : α} {xs : List α} (h : ∀ x, x ≠ a → q x = p x) (no : a ∉ xs) :
    xs.countP q = xs.countP p :=
  List.countP_congr fun x hx => by rw [h x fun e => no (e ▸ hx)]

/-- A predicate changed at one member of a list without repetition. -/
theorem countP_update {α : Type} {p q : α → Bool} {a : α} {xs : List α} (h : ∀ x, x ≠ a → q x = p x) (nodup : xs.Nodup)
    (mem : a ∈ xs) : xs.countP q + (p a).toNat = xs.countP p + (q a).toNat := by
  induction xs with
  | nil => simp at mem
  | cons x xs ih =>
    obtain ⟨out, rest⟩ := List.nodup_cons.1 nodup
    rw [List.countP_cons, List.countP_cons]
    rcases List.mem_cons.1 mem with rfl | inner
    · rw [countP_eq_of_off h out]
      cases p a <;> cases q a <;> simp
    · have off : x ≠ a := fun e => out (e ▸ inner)
      rw [h x off]
      have := ih rest inner
      omega

theorem mem_allLines (l : LineNo) : l ∈ allLines := List.mem_finRange l

theorem allLines_nodup : allLines.Nodup := List.nodup_finRange 48

/-- The slots held, where only line `l` has changed. -/
theorem countP_holdsSlot (h : ∀ m, m ≠ l → t.callOn m = s.callOn m) :
    allLines.countP (holdsSlot t) + (holdsSlot s l).toNat = allLines.countP (holdsSlot s) + (holdsSlot t l).toNat :=
  countP_update (fun m hm => by rw [holdsSlot_eq_any, holdsSlot_eq_any, h m hm]) allLines_nodup (mem_allLines l)

/-! ### Changes the invariant does not see -/

/-- The record `d` is in every clause as good as `c`: all that the clauses read stands, but for what leaves the buffer or the
credit. -/
structure CallAlike (c d : Call) : Prop where
  phase : d.phase = c.phase
  endCause : d.endCause = c.endCause
  attach : d.attach = c.attach
  slotHeld : d.slotHeld = c.slotHeld
  released : d.released = c.released
  room : d.txBuf.length + d.credit ≤ c.txBuf.length + c.credit
  credit : d.credit ≤ c.credit

theorem CallAlike.refl (c : Call) : CallAlike c c := ⟨rfl, rfl, rfl, rfl, rfl, le_rfl, le_rfl⟩

theorem CallAlike.trans {c d e : Call} (a : CallAlike c d) (b : CallAlike d e) : CallAlike c e :=
  ⟨b.phase.trans a.phase, b.endCause.trans a.endCause, b.attach.trans a.attach, b.slotHeld.trans a.slotHeld,
    b.released.trans a.released, b.room.trans a.room, b.credit.trans a.credit⟩

/-- Line `y` is to the invariant as good as `x`. -/
structure LineAlike (x y : Line) : Prop where
  st : y.st = x.st
  call : Option.Rel CallAlike x.call y.call

theorem LineAlike.back {x y : Line} (h : LineAlike x y) {d : Call} (hd : y.call = some d) :
    ∃ c, x.call = some c ∧ CallAlike c d := by
  have rel := h.call
  rw [hd] at rel
  cases hx : x.call with
  | none => rw [hx] at rel; cases rel
  | some c => rw [hx] at rel; cases rel with | some ok => exact ⟨c, rfl, ok⟩

theorem LineAlike.forth {x y : Line} (h : LineAlike x y) {c : Call} (hc : x.call = some c) :
    ∃ d, y.call = some d ∧ CallAlike c d := by
  have rel := h.call
  rw [hc] at rel
  cases hy : y.call with
  | none => rw [hy] at rel; cases rel
  | some d => rw [hy] at rel; cases rel with | some ok => exact ⟨d, rfl, ok⟩

theorem LineAlike.back_none {x y : Line} (h : LineAlike x y) (hy : y.call = none) : x.call = none := by
  have rel := h.call
  rw [hy] at rel
  cases hx : x.call with
  | none => rfl
  | some c => rw [hx] at rel; cases rel

theorem LineAlike.of_eq {x y : Line} (st : y.st = x.st) (call : y.call = x.call) : LineAlike x y := by
  refine ⟨st, ?_⟩
  rw [call]
  cases x.call with
  | none => exact .none
  | some c => exact .some (.refl c)

theorem LineAlike.trans {x y z : Line} (a : LineAlike x y) (b : LineAlike y z) : LineAlike x z := by
  refine ⟨b.st.trans a.st, ?_⟩
  cases hz : z.call with
  | none => rw [a.back_none (b.back_none hz)]; exact .none
  | some e =>
    obtain ⟨d, hd, de⟩ := b.back hz
    obtain ⟨c, hc, cd⟩ := a.back hd
    rw [hc]
    exact .some (cd.trans de)

theorem LineAlike.fits {x y : Line} (h : LineAlike x y) : y.fits = x.fits := by
  unfold Line.fits
  cases hy : y.call with
  | none => rw [h.back_none hy, h.st]
  | some d =>
    obtain ⟨c, hc, ok⟩ := h.back hy
    rw [hc]
    simp only [phaseFits, ok.phase, ok.endCause, h.st]

theorem LineOk.alike {transit moving : Prop} {x y : Line} (h : LineAlike x y) (ok : LineOk cr transit moving x) :
    LineOk cr transit moving y where
  fits n := h.fits.trans (ok.fits n)
  ended n := by
    obtain ⟨c, hc, phase, cause, released⟩ := ok.ended n
    obtain ⟨d, hd, a⟩ := h.forth hc
    exact ⟨d, hd, a.phase.trans phase, a.endCause ▸ cause, a.released.trans released⟩
  flag d hd := by
    obtain ⟨c, hc, a⟩ := h.back hd
    rw [a.slotHeld, a.attach, a.phase]
    exact ok.flag c hc
  attached d hd := by
    obtain ⟨c, hc, a⟩ := h.back hd
    rw [a.attach, a.phase]
    exact ok.attached c hc
  unattached n d hd := by
    obtain ⟨c, hc, a⟩ := h.back hd
    rw [a.attach, a.phase]
    exact ok.unattached n c hc
  credit on d hd := by
    obtain ⟨c, hc, a⟩ := h.back hd
    obtain ⟨room, zero⟩ := ok.credit on c hc
    refine ⟨a.room.trans room, fun n => ?_⟩
    have := zero (a.phase ▸ n)
    have := a.credit
    omega

/-- The invariant cannot tell `t` from `s`. -/
structure Alike (s t : State) : Prop where
  line : ∀ l, LineAlike (s.line l) (t.line l)
  inUse : t.adm.inUse = s.adm.inUse
  capacity : t.adm.capacity = s.adm.capacity
  queues : t.adm.queues = s.adm.queues
  held : t.bst.held = s.bst.held

theorem Alike.trans (a : Alike s t) (b : Alike t u) : Alike s u :=
  ⟨fun l => (a.line l).trans (b.line l), b.inUse.trans a.inUse, b.capacity.trans a.capacity, b.queues.trans a.queues,
    b.held.trans a.held⟩

theorem Alike.after (b : Alike t u) (a : Alike s t) : Alike s u := a.trans b

theorem Alike.of_same (hl : t.lines = s.lines) (ha : t.adm = s.adm) (hb : t.bst = s.bst) : Alike s t :=
  ⟨fun l => .of_eq (by simp only [State.line, hl]) (by simp only [State.line, hl]), by rw [ha], by rw [ha], by rw [ha],
    by rw [hb]⟩

theorem Alike.refl (s : State) : Alike s s := .of_same rfl rfl rfl

theorem Alike.ite {p : Prop} [Decidable p] (a : p → Alike s t) (b : ¬ p → Alike s u) : Alike s (if p then t else u) := by
  split
  · exact a ‹_›
  · exact b ‹_›

theorem Alike.phaseIs (h : Alike s t) (l : LineNo) (p : Phase) : t.phaseIs l p = s.phaseIs l p := by
  unfold State.phaseIs
  cases ht : t.callOn l with
  | none => rw [show s.callOn l = none from (h.line l).back_none ht]
  | some d =>
    obtain ⟨c, hc, ok⟩ := (h.line l).back ht
    simp only [show s.callOn l = some c from hc, ok.phase]

theorem Alike.holdsSlot (h : Alike s t) (l : LineNo) : holdsSlot t l = holdsSlot s l := by
  unfold Machine.holdsSlot
  cases ht : t.callOn l with
  | none => rw [show s.callOn l = none from (h.line l).back_none ht]
  | some d =>
    obtain ⟨c, hc, ok⟩ := (h.line l).back ht
    simp only [show s.callOn l = some c from hc, ok.slotHeld]

theorem Alike.safe (h : Alike s t) : Safe s t := fun cr T Q i =>
  { line := fun l => (i.line l).alike (h.line l)
    count := by
      rw [h.inUse, i.count]
      exact List.countP_congr fun l _ => by rw [h.holdsSlot]
    most := h.inUse ▸ i.most
    capacity := h.capacity ▸ i.capacity
    queued := fun k l hl => by
      rw [h.queues] at hl
      rw [h.phaseIs]
      exact i.queued k l hl
    held := fun l hl => by
      rw [h.held] at hl
      rw [h.phaseIs]
      exact i.held l hl
    once := h.held ▸ i.once }

theorem Alike.inv (h : Alike s t) (i : Inv cr T Q s) : Inv cr T Q t := h.safe cr T Q i

theorem Alike.setLine (s : State) (l : LineNo) (x : Line) (h : LineAlike (s.line l) x) : Alike s (s.setLine l x) := by
  refine ⟨fun m => ?_, rfl, rfl, rfl, rfl⟩
  by_cases e : m = l
  · subst e; simpa using h
  · rw [State.line_setLine_ne _ _ e]; exact .of_eq rfl rfl

theorem Alike.modLine (s : State) (l : LineNo) (f : Line → Line) (st : (f (s.line l)).st = (s.line l).st)
    (call : (f (s.line l)).call = (s.line l).call) : Alike s (s.modLine l f) := .setLine s l _ (.of_eq st call)

theorem Alike.modCall (s : State) (l : LineNo) (f : Call → Call) (h : ∀ c, s.callOn l = some c → CallAlike c (f c)) :
    Alike s (s.modCall l f) := by
  refine .setLine s l _ ⟨rfl, ?_⟩
  rw [State.callOn_eq] at h
  dsimp only
  cases e : (s.line l).call with
  | none => exact .none
  | some c => exact .some (h c e)

/-- A change of the record that none of the clauses reads. -/
theorem Alike.modCall_plain (s : State) (l : LineNo) (f : Call → Call)
    (h : ∀ c, (f c).phase = c.phase ∧ (f c).endCause = c.endCause ∧ (f c).attach = c.attach ∧
      (f c).slotHeld = c.slotHeld ∧ (f c).released = c.released ∧ (f c).txBuf = c.txBuf ∧ (f c).credit = c.credit) :
    Alike s (s.modCall l f) :=
  .modCall s l f fun c _ => by
    obtain ⟨h1, h2, h3, h4, h5, h6, h7⟩ := h c
    exact ⟨h1, h2, h3, h4, h5, by rw [h6, h7], by rw [h7]⟩

/-- A transmit buffer emptied, and nothing else that the clauses read. -/
theorem Alike.modCall_drained (s : State) (l : LineNo) (f : Call → Call)
    (h : ∀ c, (f c).phase = c.phase ∧ (f c).endCause = c.endCause ∧ (f c).attach = c.attach ∧
      (f c).slotHeld = c.slotHeld ∧ (f c).released = c.released ∧ (f c).txBuf = [] ∧ (f c).credit = c.credit) :
    Alike s (s.modCall l f) :=
  .modCall s l f fun c _ => by
    obtain ⟨h1, h2, h3, h4, h5, h6, h7⟩ := h c
    exact ⟨h1, h2, h3, h4, h5, by rw [h6, h7, List.length_nil]; omega, by rw [h7]⟩

theorem Alike.modCounters (s : State) (l : LineNo) (f : LineCounters → LineCounters) : Alike s (s.modCounters l f) :=
  .modLine s l _ rfl rfl

theorem Alike.modCarriage (s : State) (l : LineNo) (f : CarriageCounters → CarriageCounters) :
    Alike s (s.modCarriage l f) := .modLine s l _ rfl rfl

/-! ### One line changed -/

/-- The general rule: line `l` is changed, and stops or starts being in transit or moving; the other lines stand, and the slots
in use follow the slot of line `l`. -/
theorem Inv.change {T' Q' : LineNo → Prop} (i : Inv cr T Q s) (l : LineNo)
    (others : ∀ m, m ≠ l → t.line m = s.line m)
    (transit : ∀ m, m ≠ l → (T' m ↔ T m)) (moving : ∀ m, m ≠ l → (Q' m ↔ Q m))
    (ok : LineOk cr (T' l) (Q' l) (t.line l))
    (inUse : t.adm.inUse + (holdsSlot s l).toNat = s.adm.inUse + (holdsSlot t l).toNat)
    (most : t.adm.inUse ≤ 32) (capacity : t.adm.capacity ≤ 32)
    (queues : ∀ (k : ClassNo) m, m ≠ l → m ∈ t.adm.queues[k] → m ∈ s.adm.queues[k])
    (queue : ∀ (k : ClassNo), l ∈ t.adm.queues[k] → t.phaseIs l .queued = true ∨ Q' l)
    (held : ∀ m, m ≠ l → m ∈ t.bst.held → m ∈ s.bst.held)
    (own : l ∈ t.bst.held → t.phaseIs l .held = true) (once : t.bst.held.Nodup) : Inv cr T' Q' t where
  line m := by
    by_cases e : m = l
    · subst e; exact ok
    · rw [others m e, propext (transit m e), propext (moving m e)]; exact i.line m
  count := by
    have slots := countP_holdsSlot (s := s) (t := t) (l := l) fun m e => by
      rw [State.callOn_eq, State.callOn_eq, others m e]
    have := i.count
    omega
  most := most
  capacity := capacity
  queued k m hm := by
    by_cases e : m = l
    · subst e; exact queue k hm
    · have := i.queued k m (queues k m e hm)
      rw [propext (moving m e)]
      simpa only [State.phaseIs, State.callOn_eq, others m e] using this
  held m hm := by
    by_cases e : m = l
    · subst e; exact own hm
    · simpa only [State.phaseIs, State.callOn_eq, others m e] using i.held m (held m e hm)
  once := once

/-- Line `l` changed within the same state of the other blocks, its call keeping its slot and its place. -/
theorem Inv.modLine {T' : LineNo → Prop} (i : Inv cr T Q s) (l : LineNo) (f : Line → Line)
    (transit : ∀ m, m ≠ l → (T' m ↔ T m)) (ok : LineOk cr (T' l) (Q l) (f (s.line l)))
    (slot : (f (s.line l)).call.any Call.slotHeld = (s.line l).call.any Call.slotHeld)
    (queue : s.phaseIs l .queued = true → (f (s.line l)).call.map Call.phase = some .queued)
    (own : s.phaseIs l .held = true → (f (s.line l)).call.map Call.phase = some .held) :
    Inv cr T' Q (s.modLine l f) := by
  have phase (p : Phase) (h : (f (s.line l)).call.map Call.phase = some p) : (s.modLine l f).phaseIs l p = true := by
    obtain ⟨c, hc, hp⟩ := Option.map_eq_some_iff.1 h
    exact phaseIs_iff.2 ⟨c, by simpa [State.callOn_eq] using hc, hp⟩
  refine i.change l (fun m e => State.line_modLine_ne _ _ e) transit (fun _ _ => .rfl) ?_ ?_ i.most i.capacity
    (fun _ _ _ h => h) (fun k h => ?_) (fun _ _ h => h) (fun h => phase _ (own (i.held l h))) i.once
  · simpa using ok
  · rw [holdsSlot_eq_any, holdsSlot_eq_any, State.callOn_eq, State.callOn_eq, State.line_modLine_self, slot]
    rfl
  · exact (i.queued k l h).imp_left fun q => phase _ (queue q)

/-- The call of line `l`, which holds no slot and stands in no order, gives way to another or to none. -/
theorem Inv.replace (i : Inv cr T Q s) (l : LineNo) (free : holdsSlot s l = false) (unqueued : s.phaseIs l .queued = false)
    (unheld : l ∉ s.bst.held) (others : ∀ m, m ≠ l → t.line m = s.line m) (adm : t.adm = s.adm)
    (held : t.bst.held = s.bst.held) (free' : holdsSlot t l = false) (ok : LineOk cr (T l) (Q l) (t.line l)) :
    Inv cr T Q t := by
  refine i.change l others (fun _ _ => .rfl) (fun _ _ => .rfl) ok ?_ ?_ ?_ ?_ (fun k h => ?_) ?_ (fun h => ?_) ?_
  · rw [free, free', adm]
  · rw [adm]; exact i.most
  · rw [adm]; exact i.capacity
  · rw [adm]; exact fun _ _ _ h => h
  · rw [adm] at h
    exact .inr ((i.queued k l h).resolve_left (by simp [unqueued]))
  · rw [held]; exact fun _ _ h => h
  · rw [held] at h
    exact absurd h unheld
  · rw [held]; exact i.once

/-- A line is allowed to be moving. -/
theorem Inv.weaken {Q' : LineNo → Prop} (i : Inv cr T Q s) (h : ∀ m, Q m → Q' m) : Inv cr T Q' s :=
  { i with
    line := fun m => { i.line m with unattached := fun n => (i.line m).unattached fun q => n (h m q) }
    queued := fun k m hm => (i.queued k m hm).imp_right (h m) }

/-- The same lines are in transit and moving, said another way. -/
theorem Inv.congr {T' Q' : LineNo → Prop} (i : Inv cr T Q s) (hT : ∀ m, T' m ↔ T m) (hQ : ∀ m, Q' m ↔ Q m) :
    Inv cr T' Q' s := by
  obtain rfl : T' = T := funext fun m => propext (hT m)
  obtain rfl : Q' = Q := funext fun m => propext (hQ m)
  exact i

end Sys2Proof.Machine
end

section
namespace Sys2Proof.Machine

variable {cr : Prop} {T T' Q : LineNo → Prop} {s t u : State} {l : LineNo} {c : Call}

/-! ### Operations that the invariant of lines, calls and slots does not see -/

@[simp] theorem enqueuePriority_adm (s : State) (f : OutFrame) : (enqueuePriority s f).adm = s.adm := by
  unfold enqueuePriority; split <;> rfl

@[simp] theorem enqueueOrdered_adm (s : State) (f : OutFrame) : (enqueueOrdered s f).adm = s.adm := by
  unfold enqueueOrdered; split <;> rfl

@[simp] theorem raiseFault_adm (s : State) (k : FaultKind) (l : Option LineNo) (n : Option Nat) (d : Nat) (x : Bool) :
    (raiseFault s k l n d x).adm = s.adm := by
  simp only [raiseFault]
  split
  · rfl
  · split <;> simp

@[simp] theorem haltIfDone_adm (s : State) : (haltIfDone s).adm = s.adm := by
  unfold haltIfDone
  split
  · split <;> simp
  · rfl

theorem enqueuePriority_alike (s : State) (f : OutFrame) : Alike s (enqueuePriority s f) :=
  .of_same (enqueuePriority_lines s f) (enqueuePriority_adm s f) (enqueuePriority_bst s f)

theorem enqueueOrdered_alike (s : State) (f : OutFrame) : Alike s (enqueueOrdered s f) :=
  .of_same (enqueueOrdered_lines s f) (enqueueOrdered_adm s f) (enqueueOrdered_bst s f)

theorem raiseFault_alike (s : State) (k : FaultKind) (l : Option LineNo) (n : Option Nat) (d : Nat) (x : Bool) :
    Alike s (raiseFault s k l n d x) :=
  .of_same (raiseFault_lines s k l n d x) (raiseFault_adm s k l n d x) (raiseFault_bst s k l n d x)

theorem haltIfDone_alike (s : State) : Alike s (haltIfDone s) :=
  .of_same (haltIfDone_lines s) (haltIfDone_adm s) (haltIfDone_bst s)

theorem queueNotice_alike (s : State) (l : LineNo) (slot : Fin 24) (n : Option Nat) : Alike s (queueNotice s l slot n) := by
  unfold queueNotice
  refine .ite (fun _ => .refl s) fun _ => ?_
  split
  · exact .refl s
  · exact .ite (fun _ => .modCall_plain s l _ fun _ => ⟨rfl, rfl, rfl, rfl, rfl, rfl, rfl⟩) fun _ => .of_same rfl rfl rfl

theorem modEntry_alike (s : State) (a : FrameNo × EntryNo) (f : Entry → Entry) : Alike s (s.modEntry a f) :=
  .of_same rfl rfl rfl

theorem startStep_alike (s : State) (l : LineNo) : Alike s (startStep s l) :=
  .modCall_plain s l _ fun _ => ⟨rfl, rfl, rfl, rfl, rfl, rfl, rfl⟩

theorem removeCause_alike (s : State) (l : LineNo) (k : PendingKind) : Alike s (removeCause s l k) :=
  .modCall_plain s l _ fun _ => ⟨rfl, rfl, rfl, rfl, rfl, rfl, rfl⟩

theorem addUnits_alike (s : State) (l : LineNo) (n : Nat) : Alike s (addUnits s l n) := by
  have charged : Alike s (s.modCall l fun c => { c with meter := { c.meter with charge := c.meter.charge + n } }) :=
    .modCall_plain s l _ fun _ => ⟨rfl, rfl, rfl, rfl, rfl, rfl, rfl⟩
  unfold addUnits
  split
  · exact .refl s
  · dsimp only
    split
    · exact charged
    · exact charged.trans (modEntry_alike _ _ _)

theorem stopCarriage_alike (s : State) (l : LineNo) : Alike s (stopCarriage s l) :=
  .modCall_plain s l _ fun _ => ⟨rfl, rfl, rfl, rfl, rfl, rfl, rfl⟩

theorem startDrain_alike (s : State) (l : LineNo) : Alike s (startDrain s l) :=
  .modCall_plain s l _ fun _ => ⟨rfl, rfl, rfl, rfl, rfl, rfl, rfl⟩

theorem discardOutput_alike (s : State) (l : LineNo) (r : Bool) : Alike s (discardOutput s l r) :=
  .modCall_drained s l _ fun _ => ⟨rfl, rfl, rfl, rfl, rfl, rfl, rfl⟩

theorem clearOpen_alike (s : State) (l : LineNo) : Alike s (clearOpen s l) :=
  .modCall_plain s l _ fun _ => ⟨rfl, rfl, rfl, rfl, rfl, rfl, rfl⟩

theorem withdrawLookup_alike (s : State) (l : LineNo) : Alike s (withdrawLookup s l) := .of_same rfl rfl rfl

theorem clearPassword_alike (s : State) (l : LineNo) : Alike s (clearPassword s l) :=
  .modCall_plain s l _ fun _ => ⟨rfl, rfl, rfl, rfl, rfl, rfl, rfl⟩

theorem attachPins_alike (s : State) (a : FrameNo × EntryNo) : Alike s (attachPins s a) := .of_same rfl rfl rfl

theorem recordPins_alike (s : State) (a : FrameNo × EntryNo) : Alike s (recordPins s a) := .of_same rfl rfl rfl

/-! ### A line's clauses from its call's -/

/-- The line clauses for a call that is not in transit. -/
theorem LineOk.of_call {moving : Prop} {x : Line} (call : x.call = some c) (fits : phaseFits x.st c = true)
    (flag : c.slotHeld = true → c.attach.isSome = true ∧ (c.phase = .opening ∨ c.phase = .connected ∨ c.phase = .ending))
    (attached : (c.phase = .queued ∨ c.phase = .opening) → c.attach.isSome = true)
    (unattached : ¬ moving → (c.phase = .speed ∨ c.phase = .name ∨ c.phase = .password ∨ c.phase = .lookup) →
      c.attach = none)
    (credit : cr → c.txBuf.length + c.credit ≤ 256 ∧ (c.phase ≠ .connected → c.credit = 0)) : LineOk cr False moving x where
  fits _ := by
    unfold Line.fits
    rw [call]
    exact fits
  ended f := f.elim
  flag d hd := by
    obtain rfl := Option.some.inj (call.symm.trans hd)
    exact flag
  attached d hd := by
    obtain rfl := Option.some.inj (call.symm.trans hd)
    exact attached
  unattached n d hd := by
    obtain rfl := Option.some.inj (call.symm.trans hd)
    exact unattached n
  credit on d hd := by
    obtain rfl := Option.some.inj (call.symm.trans hd)
    exact credit on

/-- A line with no call asks only that its state goes with having none. -/
theorem LineOk.of_none {moving : Prop} {x : Line} (call : x.call = none) (fits : x.fits = true) :
    LineOk cr False moving x where
  fits _ := fits
  ended f := f.elim
  flag := by simp [call]
  attached := by simp [call]
  unattached _ := by simp [call]
  credit _ := by simp [call]

/-- A call's buffer and credit changed, and nothing else that the clauses read. -/
theorem LineOk.carriage {transit moving : Prop} {x : Line} {d : Call} (ok : LineOk cr transit moving x) (call : x.call = some c)
    (phase : d.phase = c.phase) (endCause : d.endCause = c.endCause) (attach : d.attach = c.attach)
    (slotHeld : d.slotHeld = c.slotHeld) (released : d.released = c.released)
    (credit : cr → d.txBuf.length + d.credit ≤ 256 ∧ (d.phase ≠ .connected → d.credit = 0)) :
    LineOk cr transit moving { x with call := some d } where
  fits n := by
    have := ok.fits n
    unfold Line.fits at this ⊢
    rw [call] at this
    simpa only [phaseFits, phase, endCause] using this
  ended n := by
    obtain ⟨e, he, ending, cause, off⟩ := ok.ended n
    obtain rfl := Option.some.inj (call.symm.trans he)
    exact ⟨d, rfl, phase.trans ending, endCause ▸ cause, released.trans off⟩
  flag e he := by
    obtain rfl := Option.some.inj he
    rw [slotHeld, attach, phase]
    exact ok.flag c call
  attached e he := by
    obtain rfl := Option.some.inj he
    rw [attach, phase]
    exact ok.attached c call
  unattached n e he := by
    obtain rfl := Option.some.inj he
    rw [attach, phase]
    exact ok.unattached n c call
  credit on e he := by
    obtain rfl := Option.some.inj he
    exact credit on

/-- A call's buffer and credit changed within the credit clause. -/
theorem Inv.carriage (i : Inv cr T Q s) (hc : s.callOn l = some c) (f : Call → Call)
    (phase : (f c).phase = c.phase) (endCause : (f c).endCause = c.endCause) (attach : (f c).attach = c.attach)
    (slotHeld : (f c).slotHeld = c.slotHeld) (released : (f c).released = c.released)
    (credit : cr → (f c).txBuf.length + (f c).credit ≤ 256 ∧ ((f c).phase ≠ .connected → (f c).credit = 0)) :
    Inv cr T Q (s.modCall l f) := by
  have call : (s.line l).call = some c := hc
  refine i.modLine l _ (fun _ _ => .rfl) ?_ ?_ ?_ ?_
  · rw [call]
    exact (i.line l).carriage call phase endCause attach slotHeld released credit
  · simp [call, slotHeld]
  · simp [State.phaseIs, State.callOn_eq, call, phase]
  · simp [State.phaseIs, State.callOn_eq, call, phase]

theorem Inv.creditOf (i : Inv cr T Q s) (on : cr) (hc : s.callOn l = some c) :
    c.txBuf.length + c.credit ≤ 256 ∧ (c.phase ≠ .connected → c.credit = 0) := (i.line l).credit on c hc

theorem Inv.fitsOf (i : Inv cr T Q s) (n : ¬ T l) (hc : s.callOn l = some c) : phaseFits (s.line l).st c = true := by
  have := (i.line l).fits n
  unfold Line.fits at this
  rwa [show (s.line l).call = some c from hc] at this

/-! ### Texts -/

theorem notConnected (hc : s.callOn l = some c) (h : c.phase ≠ .connected) : s.phaseIs l .connected = false := by
  simp [State.phaseIs, hc, h]

/-- Characters go into the buffer of a call that is not connected: it has no credit out. -/
theorem placeChars_inv (i : Inv cr T Q s) (n : s.phaseIs l .connected = false) (chars : List Byte) :
    Inv cr T Q (placeChars s l chars) := by
  unfold placeChars
  split
  · exact i
  · next c hc =>
    split
    · next room =>
      refine i.carriage hc _ rfl rfl rfl rfl rfl fun on => ?_
      have apart : c.phase ≠ .connected := by simpa [State.phaseIs, hc] using n
      have zero := (i.creditOf on hc).2 apart
      simp only [Config.transmitDepth] at room
      exact ⟨by simp only [List.length_append, zero]; omega, fun _ => zero⟩
    · exact Alike.inv (s := s) (.of_same rfl rfl rfl) i

/-- What placing texts leaves of a call: all but the transmit buffer. -/
structure BufferOnly (s t : State) (l : LineNo) : Prop where
  others : ∀ m, m ≠ l → t.line m = s.line m
  st : (t.line l).st = (s.line l).st
  call : ∀ d, t.callOn l = some d → ∃ c, s.callOn l = some c ∧ d = { c with txBuf := d.txBuf }
  none : t.callOn l = none → s.callOn l = none

theorem BufferOnly.refl (s : State) (l : LineNo) : BufferOnly s s l := ⟨fun _ _ => rfl, rfl, fun d h => ⟨d, h, rfl⟩, id⟩

theorem BufferOnly.trans (a : BufferOnly s t l) (b : BufferOnly t u l) : BufferOnly s u l := by
  refine ⟨fun m h => (b.others m h).trans (a.others m h), b.st.trans a.st, fun e he => ?_, a.none ∘ b.none⟩
  obtain ⟨d, hd, ed⟩ := b.call e he
  obtain ⟨c, hc, dc⟩ := a.call d hd
  exact ⟨c, hc, by rw [ed, dc]⟩

theorem placeChars_bufferOnly (s : State) (l : LineNo) (chars : List Byte) : BufferOnly s (placeChars s l chars) l := by
  unfold placeChars
  split
  · exact .refl s l
  · next c hc =>
    split
    · refine ⟨fun m h => State.line_modCall_ne s _ h, by simp, fun d hd => ⟨c, hc, ?_⟩, by simp⟩
      rw [State.callOn_modCall_self, hc] at hd
      obtain rfl := Option.some.inj hd
      rfl
    · exact ⟨fun _ _ => rfl, rfl, fun d h => ⟨d, h, rfl⟩, id⟩

theorem placeText_bufferOnly (s : State) (l : LineNo) (slot : Fin 24) (n : Option Nat) :
    BufferOnly s (placeText s l slot n) l := by
  unfold placeText
  split
  · exact .refl s l
  · exact placeChars_bufferOnly s l _

theorem BufferOnly.phaseIs (h : BufferOnly s t l) (p : Phase) : t.phaseIs l p = s.phaseIs l p := by
  unfold State.phaseIs
  cases ht : t.callOn l with
  | none => rw [h.none ht]
  | some d =>
    obtain ⟨c, hc, e⟩ := h.call d ht
    rw [hc, e]

@[simp] theorem placeText_phaseIs (s : State) (l : LineNo) (slot : Fin 24) (n : Option Nat) (p : Phase) :
    (placeText s l slot n).phaseIs l p = s.phaseIs l p := (placeText_bufferOnly s l slot n).phaseIs p

theorem placeText_inv (i : Inv cr T Q s) (apart : s.phaseIs l .connected = false) (slot : Fin 24) (n : Option Nat) :
    Inv cr T Q (placeText s l slot n) := by
  unfold placeText
  split
  · exact i
  · exact placeChars_inv i apart _

/-- A text of another block goes into the buffer of a queued or opening call, and to the notices of a connected one. -/
theorem sendText_safe (s : State) (l : LineNo) (slot : Fin 24) (n : Option Nat) : Safe s (sendText s l slot n) := by
  intro cr T Q i
  unfold sendText
  split
  · exact i
  · next c hc =>
    split
    · exact (queueNotice_alike s l slot n).inv i
    · next p => exact placeText_inv i (notConnected hc (by simp [p])) slot n
    · next p => exact placeText_inv i (notConnected hc (by simp [p])) slot n
    · exact i

/-! ### Lines in transit -/

/-- `T` with line `l`. -/
def also (l : LineNo) (T : LineNo → Prop) (m : LineNo) : Prop := m = l ∨ T m

theorem also_self (l : LineNo) (T : LineNo → Prop) : also l T l := .inl rfl

theorem also_of_ne {m : LineNo} (h : m ≠ l) : also l T m ↔ T m := or_iff_right h

/-- A line in transit that goes with its call again is no longer in transit. -/
theorem Inv.arrive (i : Inv cr T Q s) (transit : ∀ m, m ≠ l → (T' m ↔ T m)) (n : ¬ T' l) (fits : (s.line l).fits = true) :
    Inv cr T' Q s :=
  { i with
    line := fun m => by
      by_cases e : m = l
      · subst e
        exact { i.line m with fits := fun _ => fits, ended := fun h => absurd h n }
      · rw [propext (transit m e)]; exact i.line m }

/-- Entry to DROP, with no call or with one that has ended (Table 3.1). -/
theorem dropBare_inv (i : Inv cr T Q s) (transit : ∀ m, m ≠ l → (T' m ↔ T m)) (n : ¬ T' l)
    (ended : ∀ c, s.callOn l = some c → (c.phase = .ending ∨ c.phase = .held) ∧ c.endCause.isSome = true) :
    Inv cr T' Q (dropBare s l) := by
  unfold dropBare
  refine (Alike.modCounters _ l _).inv ?_
  refine i.modLine l _ transit ?_ rfl ?_ ?_
  · have ok := i.line l
    refine ⟨fun _ => ?_, fun h => absurd h n, ok.flag, ok.attached, ok.unattached, ok.credit⟩
    unfold Line.fits
    dsimp only
    cases hc : (s.line l).call with
    | none => rfl
    | some c =>
      obtain ⟨phase | phase, cause⟩ := ended c hc
      · simp [phaseFits, phase, cause]
      · simp [phaseFits, phase, cause]
  all_goals
    intro h
    obtain ⟨c, hc, hp⟩ := phaseIs_iff.1 h
    rw [State.callOn_eq] at hc
    simp [hc, hp]

/-! ### The removal of a record -/

theorem Inv.inCall (i : Inv cr T Q s) (h : T l) : ∃ c, s.callOn l = some c ∧ c.phase = .ending ∧
    c.endCause.isSome = true ∧ c.released = false := (i.line l).ended h

theorem Inv.notTransit (i : Inv cr T Q s) (n : s.callOn l = none) : ¬ T l := fun h => by
  obtain ⟨c, hc, -⟩ := i.inCall h
  simp [n] at hc

/-- A line with no call goes to another state that goes with having none. -/
theorem Inv.bare (i : Inv cr T Q s) (n : s.callOn l = none) (f : Line → Line) (call : (f (s.line l)).call = none)
    (fits : (f (s.line l)).fits = true) : Inv cr T Q (s.modLine l f) := by
  have none : (s.line l).call = none := n
  refine i.modLine l f (fun _ _ => .rfl) ?_ ?_ ?_ ?_
  · rw [eq_false (i.notTransit n)]
    exact .of_none call fits
  · simp [call, none]
  · simp [State.phaseIs, n]
  · simp [State.phaseIs, n]

theorem goOff_inv (i : Inv cr T Q s) (n : s.callOn l = none) : Inv cr T Q (goOff s l) :=
  i.bare n _ n (by simp [Line.fits, show (s.line l).call = none from n])

theorem leaveDrop_inv (i : Inv cr T Q s) (n : s.callOn l = none) : Inv cr T Q (leaveDrop s l) := by
  unfold leaveDrop
  split
  · exact goOff_inv i n
  · exact i.bare n _ n (by simp [Line.fits, show (s.line l).call = none from n])

/-- The line clauses for a call just created, its phase going with its line's state. -/
theorem LineOk.created {moving : Prop} {s : State} {p : Phase} (v : Option Speed) (k : CallSettings)
    (fits : (p = .speed ∧ (s.line l).st = .speed) ∨ (p = .name ∧ (s.line l).st = .up)) :
    LineOk cr False moving ((createCall s l p v k).line l) := by
  rw [createCall_line]
  refine .of_call (c := Call.fresh (nextCallNumber s) p v k) rfl ?_ (by simp [Call.fresh]) ?_ (fun _ _ => rfl)
    fun _ => by simp [Call.fresh]
  · rcases fits with ⟨rfl, speed⟩ | ⟨rfl, up⟩
    · simp [phaseFits, Call.fresh, speed]
    · simp [phaseFits, Call.fresh, up]
  · rcases fits with ⟨rfl, -⟩ | ⟨rfl, -⟩ <;> simp [Call.fresh]

theorem createCall_callOn (s : State) (l : LineNo) (p : Phase) (v : Option Speed) (k : CallSettings) :
    (createCall s l p v k).callOn l = some (Call.fresh (nextCallNumber s) p v k) := by
  rw [State.callOn_eq, createCall_line]

theorem createCall_free (s : State) (l : LineNo) (p : Phase) (v : Option Speed) (k : CallSettings) :
    holdsSlot (createCall s l p v k) l = false := by
  rw [holdsSlot_eq_any, State.callOn_eq, createCall_line]
  rfl

/-- A call on a line in UP that is in NAME, PASSWORD or LOOKUP. -/
def InDialogue (c : Call) : Prop := c.phase = .name ∨ c.phase = .password ∨ c.phase = .lookup

/-- A call goes from one phase of the dialogue to another. -/
theorem dialogue_inv (i : Inv cr T Q s) (hc : s.callOn l = some c) (n : ¬ T l) (old : InDialogue c) (f : Call → Call)
    (new : InDialogue (f c)) (endCause : (f c).endCause = c.endCause) (attach : (f c).attach = c.attach)
    (slotHeld : (f c).slotHeld = c.slotHeld) (txBuf : (f c).txBuf = c.txBuf) (credit : (f c).credit = c.credit) :
    Inv cr T Q (s.modCall l f) := by
  have call : (s.line l).call = some c := hc
  have fits : (s.line l).st = .up ∧ c.endCause.isNone = true := by
    have fits := i.fitsOf n hc
    rcases old with p | p | p <;> simpa [phaseFits, p] using fits
  have free : c.slotHeld = false := by
    by_contra held
    have := ((i.line l).flag c hc (by simpa using held)).2
    rcases old with p | p | p <;> simp [p] at this
  refine i.modLine l _ (fun _ _ => .rfl) ?_ (by simp [call, slotHeld]) ?_ ?_
  · rw [eq_false n]
    refine .of_call (c := f c) (by simp [call]) ?_ (by simp [free, slotHeld]) ?_ (fun m _ => ?_) fun on => ?_
    · rcases new with p | p | p <;> simpa [phaseFits, p, endCause] using fits
    · rcases new with p | p | p <;> simp [p]
    · rw [attach]
      exact (i.line l).unattached m c hc (.inr (by rcases old with p | p | p <;> simp [p]))
    · obtain ⟨room, zero⟩ := i.creditOf on hc
      rw [txBuf, credit]
      exact ⟨room, fun _ => zero (by rcases old with p | p | p <;> simp [p])⟩
  · rcases old with p | p | p <;> simp [State.phaseIs, hc, p]
  · rcases old with p | p | p <;> simp [State.phaseIs, hc, p]

theorem enterName_inv (i : Inv cr T Q s) (hc : s.callOn l = some c) (n : ¬ T l) (old : InDialogue c) :
    Inv cr T Q (enterName s l) := dialogue_inv i hc n old _ (.inl rfl) rfl rfl rfl rfl rfl

theorem enterName_callOn (s : State) (l : LineNo) : (enterName s l).phaseIs l .connected = false := by
  unfold State.phaseIs enterName
  rw [State.callOn_modCall_self]
  cases s.callOn l <;> simp

theorem startDialogue_inv (i : Inv cr T Q (enterName s l)) : Inv cr T Q (startDialogue s l) := by
  refine placeText_inv (placeText_inv i (enterName_callOn s l) 0 none) ?_ 1 none
  rw [placeText_phaseIs]
  exact enterName_callOn s l

theorem retryDialogue_inv (i : Inv cr T Q (enterName s l)) : Inv cr T Q (retryDialogue s l) := by
  refine placeText_inv (placeText_inv i (enterName_callOn s l) 3 none) ?_ 1 none
  rw [placeText_phaseIs]
  exact enterName_callOn s l

/-- The record of line `l` forgotten: its slot empty, its place on the forward wait list given up (R29). -/
def forgetCall (s : State) (l : LineNo) : State :=
  haltIfDone { (s.modLine l fun x => { x with call := none }) with
    forwardWait := s.forwardWait.filter fun m => decide (m ≠ l) }

@[simp] theorem forgetCall_line (s : State) (l : LineNo) : (forgetCall s l).line l = { s.line l with call := none } := by
  rw [forgetCall, haltIfDone_line]
  exact State.line_modLine_self s l fun x => { x with call := none }

theorem forgetCall_callOn (s : State) (l : LineNo) : (forgetCall s l).callOn l = none := by
  rw [State.callOn_eq, forgetCall_line]

/-- A removal on a line in DROP. -/
theorem removeCall_drop (hc : s.callOn l = some c) (st : (s.line l).st = .drop) : removeCall s l =
    if (s.line l).dropGuard = none then leaveDrop (forgetCall s l) l else forgetCall s l := by
  unfold removeCall forgetCall
  simp [hc, st]

/-- A removal on a line in UP. -/
theorem removeCall_up (hc : s.callOn l = some c) (st : (s.line l).st = .up) : removeCall s l =
    if mayResign (forgetCall s l) l then resign (forgetCall s l) l c else dropBare (forgetCall s l) l := by
  unfold removeCall forgetCall
  simp [hc, st]

theorem forgetCall_others (s : State) {l m : LineNo} (h : m ≠ l) : (forgetCall s l).line m = s.line m := by
  rw [forgetCall, haltIfDone_line]
  exact State.line_modLine_ne s (fun x => { x with call := none }) h

@[simp] theorem forgetCall_adm (s : State) (l : LineNo) : (forgetCall s l).adm = s.adm := by
  rw [forgetCall, haltIfDone_adm]; rfl

@[simp] theorem forgetCall_bst (s : State) (l : LineNo) : (forgetCall s l).bst = s.bst := by
  rw [forgetCall, haltIfDone_bst]; rfl

/-- A line that leaves DROP keeps its call slot. -/
theorem leaveDrop_line (s : State) (l : LineNo) : ((leaveDrop s l).line l).call = (s.line l).call ∧
    (((leaveDrop s l).line l).st = .off ∨ ((leaveDrop s l).line l).st = .idle) := by
  unfold leaveDrop goOff
  split <;> simp

@[simp] theorem leaveDrop_adm (s : State) (l : LineNo) : (leaveDrop s l).adm = s.adm := by
  unfold leaveDrop goOff
  split <;> rfl

/-- The line clauses for a line with no call, by its state. -/
theorem LineOk.empty {moving : Prop} {x : Line} (call : x.call = none)
    (st : x.st = .off ∨ x.st = .idle ∨ x.st = .ring ∨ x.st = .answer ∨ x.st = .drop) : LineOk cr False moving x :=
  .of_none call (by rcases st with h | h | h | h | h <;> simp [Line.fits, call, h])

theorem holdsSlot_of_none (h : s.callOn l = none) : holdsSlot s l = false := by simp [holdsSlot, h]

/-- The dialogue of a re-sign-on starts where the new call is in order. -/
theorem resign_inv (i : Inv cr T Q (createCall s l .name c.speed (resignCopy (s.line l).settings c.copy))) (n : ¬ T l) :
    Inv cr T Q (resign s l c) :=
  startDialogue_inv (enterName_inv i (createCall_callOn s l _ _ _) n (.inl rfl))

/-- A call that has ended and is no longer in transit is on a line in UP or DROP. -/
theorem Inv.endedLine (i : Inv cr T Q s) (n : ¬ T l) (hc : s.callOn l = some c)
    (phase : c.phase = .ending ∨ c.phase = .held) :
    ((s.line l).st = .up ∨ (s.line l).st = .drop) ∧ c.endCause.isSome = true := by
  have fits := i.fitsOf n hc
  rcases phase with p | p
  · simpa [phaseFits, p] using fits
  · have : (s.line l).st = .drop ∧ c.endCause.isSome = true := by simpa [phaseFits, p] using fits
    exact ⟨.inr this.1, this.2⟩

/-- A record is removed, and its line goes on (R29, R50, R173). -/
theorem removeCall_inv (i : Inv cr T Q s) (n : ¬ T l) (h : ∀ c, s.callOn l = some c → c.slotHeld = false ∧
    (c.phase = .ending ∨ c.phase = .held ∧ l ∉ s.bst.held)) : Inv cr T Q (removeCall s l) := by
  cases hc : s.callOn l with
  | none => simpa [removeCall, hc] using i
  | some c =>
    obtain ⟨slot, phase⟩ := h c hc
    have free : holdsSlot s l = false := by simpa [holdsSlot, hc] using slot
    have unqueued : s.phaseIs l .queued = false := by
      rcases phase with p | ⟨p, -⟩ <;> simp [State.phaseIs, hc, p]
    have unheld : l ∉ s.bst.held := fun h => by
      have held := i.held l h
      rcases phase with p | ⟨-, out⟩
      · simp [State.phaseIs, hc, p] at held
      · exact out h
    have none := forgetCall_callOn s l
    have replaced {t : State} (loc : Local l (forgetCall s l) t) (adm : t.adm = (forgetCall s l).adm)
        (bst : t.bst = (forgetCall s l).bst) (free' : holdsSlot t l = false)
        (ok : LineOk cr False (Q l) (t.line l)) : Inv cr T Q t := by
      rw [← eq_false n] at ok
      refine i.replace l free unqueued unheld (fun m e => ?_) (adm.trans (forgetCall_adm s l)) ?_ free' ok
      · rw [loc.others m e, forgetCall_others s e]
      · rw [bst, forgetCall_bst]
    rcases (i.endedLine n hc (phase.imp_right And.left)).1 with st | st
    · have up : ((forgetCall s l).line l).st = .up := by simp [st]
      rw [removeCall_up hc st]
      split
      · refine resign_inv (replaced (createCall_local _ l _ _ _) rfl rfl (createCall_free _ l _ _ _) ?_) n
        exact .created _ _ (.inr ⟨rfl, up⟩)
      · obtain ⟨drop, call⟩ := line_dropBare (forgetCall s l) l
        refine replaced (dropBare_local _ l) rfl rfl (holdsSlot_of_none (call.trans none)) ?_
        exact .empty (call.trans none) (by simp [drop])
    · rw [removeCall_drop hc st]
      split
      · obtain ⟨call, st'⟩ := leaveDrop_line (forgetCall s l) l
        refine replaced (leaveDrop_local _ l) (leaveDrop_adm _ l) (leaveDrop_bst _ l)
          (holdsSlot_of_none (call.trans none)) (.empty (call.trans none) ?_)
        rcases st' with off | idle
        · exact .inl off
        · exact .inr (.inl idle)
      · exact replaced (.refl l _) rfl rfl (holdsSlot_of_none none) (.empty none (by simp [st]))

/-! ### The billing record and the strands of the ending work -/

/-- A record placed: the call is removed from a state with the same lines, queues and held order (R175). -/
theorem placeRecord_removes (s : State) (l : LineNo) : placeRecord s l = s ∨
    ∃ t, t.lines = s.lines ∧ t.adm = s.adm ∧ t.bst.held = s.bst.held ∧ placeRecord s l = removeCall t l := by
  unfold placeRecord
  split
  · exact .inl rfl
  · split
    · exact .inl rfl
    · refine .inr ⟨_, ?_, ?_, ?_, rfl⟩
      all_goals
        rw [recordPins]
        dsimp only
        split <;> simp

theorem placeRecord_inv (i : Inv cr T Q s) (n : ¬ T l) (h : ∀ c, s.callOn l = some c → c.slotHeld = false ∧
    (c.phase = .ending ∨ c.phase = .held ∧ l ∉ s.bst.held)) : Inv cr T Q (placeRecord s l) := by
  rcases placeRecord_removes s l with e | ⟨t, lines, adm, held, e⟩
  · rwa [e]
  · rw [e]
    have same : Alike s t := ⟨fun m => .of_eq (by simp only [State.line, lines]) (by simp only [State.line, lines]),
      by rw [adm], by rw [adm], by rw [adm], held⟩
    refine removeCall_inv (same.inv i) n ?_
    simpa only [State.callOn, State.line, lines, held] using h

/-- What a call's joining of the held order makes of the state (R176). -/
theorem holdCall_others (s : State) {l m : LineNo} (h : m ≠ l) : (holdCall s l).line m = s.line m := by
  unfold holdCall
  dsimp only
  split
  · simp [dropBare, h]
  · simp [h]

theorem holdCall_callOn (s : State) (l : LineNo) :
    (holdCall s l).callOn l = (s.callOn l).map fun c => { c with phase := .held } := by
  unfold holdCall
  dsimp only
  split
  · simp [(line_dropBare _ l).2, State.callOn_eq]
  · simp [State.callOn_eq]

theorem holdCall_st (s : State) (l : LineNo) (h : (s.line l).st = .up ∨ (s.line l).st = .drop) :
    ((holdCall s l).line l).st = .drop := by
  unfold holdCall
  dsimp only
  split
  · exact (line_dropBare _ l).1
  · next no =>
    have down : (s.line l).st ≠ .up := fun up => no (by simp [up])
    simpa using h.resolve_left down

theorem holdCall_adm (s : State) (l : LineNo) : (holdCall s l).adm = s.adm := by
  unfold holdCall
  dsimp only
  split <;> rfl

theorem holdCall_held (s : State) (l : LineNo) : (holdCall s l).bst.held = s.bst.held ++ [l] := by
  unfold holdCall
  dsimp only
  split <;> rfl

/-- A call joins the held order: its line is in DROP, or goes there (R176). -/
theorem holdCall_inv (i : Inv cr T Q s) (n : ¬ T l) (hc : s.callOn l = some c) (phase : c.phase = .ending)
    (free : c.slotHeld = false) : Inv cr T Q (holdCall s l) := by
  obtain ⟨st, cause⟩ := i.endedLine n hc (.inl phase)
  have call : (holdCall s l).callOn l = some { c with phase := .held } := by rw [holdCall_callOn, hc]; rfl
  have notHeld : l ∉ s.bst.held := fun h => by
    have := i.held l h
    simp [State.phaseIs, hc, phase] at this
  refine i.change l (fun m => holdCall_others s) (fun _ _ => .rfl) (fun _ _ => .rfl) ?_ ?_ ?_ ?_ ?_ ?_ ?_ ?_ ?_
  · rw [eq_false n]
    refine .of_call call ?_ (by simp [free]) (by simp) (by simp) fun on => ?_
    · simpa [phaseFits, holdCall_st s l st] using cause
    · obtain ⟨room, zero⟩ := i.creditOf on hc
      exact ⟨room, fun _ => zero (by simp [phase])⟩
  · simp [holdsSlot_eq_any, call, hc, holdCall_adm]
  · rw [holdCall_adm]; exact i.most
  · rw [holdCall_adm]; exact i.capacity
  · rw [holdCall_adm]; exact fun _ _ _ h => h
  · rw [holdCall_adm]
    intro k h
    exact .inr ((i.queued k l h).resolve_left (by simp [State.phaseIs, hc, phase]))
  · rw [holdCall_held]
    intro m e h
    simpa [e] using h
  · exact fun _ => phaseIs_iff.2 ⟨_, call, rfl⟩
  · rw [holdCall_held]
    exact List.nodup_append.2 ⟨i.once, by simp, by simpa using fun m hm (e : m = l) => notHeld (e ▸ hm)⟩

theorem closeOut_inv (i : Inv cr T Q s) (n : ¬ T l) (hc : s.callOn l = some c) (phase : c.phase = .ending)
    (free : c.slotHeld = false) : Inv cr T Q (closeOut s l) := by
  unfold closeOut
  split
  · refine placeRecord_inv i n fun d hd => ?_
    obtain rfl := Option.some.inj (hc.symm.trans hd)
    exact ⟨free, .inl phase⟩
  · exact holdCall_inv i n hc phase free

/-- A strand that completes removes a record only where its call is released and holds no slot. -/
theorem settle_safe (s : State) (l : LineNo) : Safe s (settle s l) := by
  intro cr T Q i
  unfold settle
  split
  · exact i
  · next c hc =>
    split
    · next finished =>
      have n : ¬ T l := fun h => by
        obtain ⟨d, hd, -, -, off⟩ := i.inCall h
        obtain rfl := Option.some.inj (hc.symm.trans hd)
        simp [finished.2] at off
      split
      · next bare =>
        refine removeCall_inv i n fun d hd => ?_
        obtain rfl := Option.some.inj (hc.symm.trans hd)
        refine ⟨?_, .inl finished.1⟩
        by_contra held
        have := ((i.line l).flag c hc (by simpa using held)).1
        simp [bare] at this
      · split
        · split
          · refine (enqueueOrdered_alike _ _).inv (Alike.inv ?_ i)
            exact .modCall_plain s l _ fun _ => ⟨rfl, rfl, rfl, rfl, rfl, rfl, rfl⟩
          · exact i
        · split
          · next free => exact closeOut_inv i n hc finished.1 free.1
          · exact i
    · exact i

/-- The record of a call that has ended is released: it is no longer in transit. -/
theorem release_inv (i : Inv cr T Q s) (n : ¬ T l) (f : Call → Call)
    (same : ∀ c, (f c).phase = c.phase ∧ (f c).endCause = c.endCause ∧ (f c).attach = c.attach ∧
      (f c).slotHeld = c.slotHeld ∧ (f c).txBuf = c.txBuf ∧ (f c).credit = c.credit) : Inv cr T Q (s.modCall l f) := by
  cases hc : s.callOn l with
  | none => rwa [State.modCall_none f hc]
  | some c =>
    obtain ⟨phase, endCause, attach, slotHeld, txBuf, credit⟩ := same c
    have call : (s.line l).call = some c := hc
    have ok := i.line l
    refine i.modLine l _ (fun _ _ => .rfl) ?_ ?_ ?_ ?_
    · rw [eq_false n] at ok ⊢
      refine .of_call (c := f c) (by simp [call]) ?_ ?_ ?_ (fun m => ?_) fun on => ?_
      · simpa only [phaseFits, phase, endCause] using i.fitsOf n hc
      · rw [slotHeld, attach, phase]; exact ok.flag c hc
      · rw [attach, phase]; exact ok.attached c hc
      · rw [attach, phase]; exact ok.unattached m c hc
      · rw [phase, txBuf, credit]; exact ok.credit on c hc
    · simp [call, slotHeld]
    · simp [State.phaseIs, hc, call, phase]
    · simp [State.phaseIs, hc, call, phase]

/-- A line goes to DROP, and releases the call that has ended there (R50, R165, R167). -/
theorem dropLine_inv (i : Inv cr T Q s) (transit : ∀ m, m ≠ l → (T' m ↔ T m)) (n : ¬ T' l)
    (ended : ∀ c, s.callOn l = some c → (c.phase = .ending ∨ c.phase = .held) ∧ c.endCause.isSome = true) :
    Inv cr T' Q (dropLine s l) := by
  have bare := dropBare_inv i transit n ended
  unfold dropLine
  dsimp only
  split
  · split
    · refine settle_safe _ l _ _ _ (release_inv ((discardOutput_alike _ l _).inv bare) n _ fun _ => ?_)
      exact ⟨rfl, rfl, rfl, rfl, rfl, rfl⟩
    · exact bare
  · exact bare

end Sys2Proof.Machine
end

section
namespace Sys2Proof.Machine

variable {cr : Prop} {T T' Q : LineNo → Prop} {s t u : State} {l : LineNo} {c : Call}

/-! ### The drain -/

/-- The phase of the call on line `l`, in its end, is ENDING (with an end cause, wherever the invariant holds). -/
theorem Inv.endCauseOf (i : Inv cr T Q s) (hc : s.callOn l = some c) (phase : c.phase = .ending) :
    c.endCause.isSome = true := by
  by_cases h : T l
  · obtain ⟨d, hd, -, cause, -⟩ := i.inCall h
    obtain rfl := Option.some.inj (hc.symm.trans hd)
    exact cause
  · exact (i.endedLine h hc (.inl phase)).2

theorem drainOver_inv (i : Inv cr T Q s) (n : ¬ T l) (h : s.phaseIs l .ending = true) : Inv cr T Q (drainOver s l) := by
  obtain ⟨c, hc, phase⟩ := phaseIs_iff.1 h
  unfold drainOver
  rw [hc]
  dsimp only
  split
  · exact settle_safe _ l _ _ _ (release_inv i n _ fun _ => ⟨rfl, rfl, rfl, rfl, rfl, rfl⟩)
  · refine dropLine_inv i (fun _ _ => .rfl) n fun d hd => ?_
    obtain rfl := Option.some.inj (hc.symm.trans hd)
    exact ⟨.inl phase, i.endCauseOf hc phase⟩

/-- A change of the record that leaves its phase alone. -/
theorem phaseIs_modCall (s : State) (l : LineNo) (f : Call → Call) (h : ∀ c, (f c).phase = c.phase) (p : Phase) :
    (s.modCall l f).phaseIs l p = s.phaseIs l p := by
  unfold State.phaseIs
  rw [State.callOn_modCall_self]
  cases s.callOn l <;> simp [h]

theorem ending_apart (h : s.phaseIs l .ending = true) : s.phaseIs l .connected = false := by
  obtain ⟨c, hc, phase⟩ := phaseIs_iff.1 h
  exact notConnected hc (by simp [phase])

theorem placeGoodbye_phaseIs (s : State) (l : LineNo) (p : Phase) : (placeGoodbye s l).phaseIs l p = s.phaseIs l p := by
  unfold placeGoodbye
  split
  · rfl
  · split
    · rw [placeText_phaseIs, phaseIs_modCall]
      exact fun _ => rfl
    · rfl

theorem placeGoodbye_inv (i : Inv cr T Q s) (h : s.phaseIs l .ending = true) : Inv cr T Q (placeGoodbye s l) := by
  unfold placeGoodbye
  split
  · exact i
  · split
    · refine placeText_inv (Alike.inv (s := s) ?_ i) ?_ 14 none
      · exact .modCall_plain s l _ fun _ => ⟨rfl, rfl, rfl, rfl, rfl, rfl, rfl⟩
      · rw [phaseIs_modCall]
        · exact ending_apart h
        · exact fun _ => rfl
    · exact i

theorem drainCheck_inv (i : Inv cr T Q s) (n : ¬ T l) : Inv cr T Q (drainCheck s l) := by
  unfold drainCheck
  split
  · exact i
  · next c hc =>
    split
    · next draining =>
      have ending : s.phaseIs l .ending = true := phaseIs_iff.2 ⟨c, hc, draining.1⟩
      have placed := placeGoodbye_inv i ending
      dsimp only
      split
      · exact placed
      · split
        · exact drainOver_inv placed n (by rw [placeGoodbye_phaseIs, ending])
        · exact placed
    · exact i

/-! ### Carriage -/

theorem sendBatch_safe (s : State) (l : LineNo) : Safe s (sendBatch s l) := by
  unfold sendBatch
  split
  · exact .refl s
  · refine .ite (fun _ => .refl s) fun _ => .after (settle_safe _ l) (Alike.safe ?_)
    refine .after (.modCarriage _ l _) (.after (.modCall_plain _ l _ fun _ => ?_) (enqueueOrdered_alike _ _))
    exact ⟨rfl, rfl, rfl, rfl, rfl, rfl, rfl⟩

theorem forwardBatch_safe (s : State) (l : LineNo) : Safe s (forwardBatch s l) :=
  .ite (fun _ => sendBatch_safe s l) fun _ => .ite (fun _ => .refl s) fun _ => Alike.safe (.of_same rfl rfl rfl)

theorem batchDue_safe (s : State) (l : LineNo) : Safe s (batchDue s l) := by
  unfold batchDue
  split
  · exact .refl s
  · refine .ite (fun _ => .refl s) fun _ => .after (forwardBatch_safe _ l) (Alike.safe ?_)
    exact .modCall_plain s l _ fun _ => ⟨rfl, rfl, rfl, rfl, rfl, rfl, rfl⟩

theorem serveForward_safe (s : State) : Safe s (serveForward s) := by
  unfold serveForward
  split
  · exact .refl s
  · exact .after (sendBatch_safe _ _) (Alike.safe (.of_same rfl rfl rfl))

theorem closingFlush_safe (s : State) (l : LineNo) : Safe s (closingFlush s l) := by
  unfold closingFlush
  split
  · exact .refl s
  · exact .ite (fun _ => .refl s) fun _ => batchDue_safe s l

/-- A grant of credit: the free space of the buffer that is not granted yet, while CONNECTED (R126). -/
theorem grantTest_safe (s : State) (l : LineNo) : Safe s (grantTest s l) := by
  intro cr T Q i
  unfold grantTest
  split
  · exact i
  · next c hc =>
    dsimp only
    split
    · next test =>
      have same : (enqueuePriority s (callFrame s l (.credit (Config.transmitDepth - c.txBuf.length - c.credit)))).callOn l
          = some c := by rw [State.callOn_eq, enqueuePriority_line]; exact hc
      refine ((enqueuePriority_alike s _).inv i).carriage same _ rfl rfl rfl rfl rfl fun on => ⟨?_, fun no => absurd test.1 no⟩
      have := (i.creditOf on hc).1
      simp only [Config.transmitDepth]
      omega
    · exact i

/-! ### The meter, given what ending another call keeps -/

/-- Ending a call keeps the invariant. -/
def EndSafe (endIt : Ender) : Prop := ∀ s l cause, Safe s (endIt s l cause)

theorem addCause_safe {e : Ender} (he : EndSafe e) (s : State) (l : LineNo) (k : PendingKind) (g : Interval) :
    Safe s (addCause e s l k g) := by
  unfold addCause
  split
  · exact .refl s
  · refine .ite (fun _ => .refl s) fun _ => .ite (fun _ => he s l _) fun _ => ?_
    split
    · exact sendText_safe s l _ _
    · refine .after (sendText_safe _ l _ _) (Alike.safe ?_)
      exact .modCall_plain s l _ fun _ => ⟨rfl, rfl, rfl, rfl, rfl, rfl, rfl⟩

theorem warnCall_safe (s : State) (l : LineNo) : Safe s (warnCall s l) := by
  unfold warnCall
  split
  · exact .refl s
  · refine .ite (fun _ => .refl s) fun _ => .after (sendText_safe _ l _ _) (Alike.safe ?_)
    exact .modCall_plain s l _ fun _ => ⟨rfl, rfl, rfl, rfl, rfl, rfl, rfl⟩

theorem warningTest_safe (s : State) (a : FrameNo × EntryNo) (e : Entry) (r : Int) : Safe s (warningTest s a e r) := by
  unfold warningTest
  refine .ite (fun _ => (modEntry_alike s a _).safe) fun _ => .ite (fun _ => .refl s) fun _ => ?_
  refine .after (.foldl _ (fun s l => .ite (fun _ => warnCall_safe s l) fun _ => .refl s) _ _) (Alike.safe ?_)
  exact .of_same rfl rfl rfl

theorem exhaustionTest_safe {e : Ender} (he : EndSafe e) (s : State) (a : FrameNo × EntryNo) (x : Entry) (r : Int) :
    Safe s (exhaustionTest e s a x r) := by
  unfold exhaustionTest
  refine .ite (fun _ => .refl s) fun _ => ?_
  refine .after (.foldl _ (fun s l => .ite (fun _ => addCause_safe he s l _ _) fun _ => .refl s) _ _) (Alike.safe ?_)
  exact .of_same rfl rfl rfl

theorem restorationTest_safe (s : State) (a : FrameNo × EntryNo) (x : Entry) (r : Int) :
    Safe s (restorationTest s a x r) := by
  unfold restorationTest
  refine .ite (fun _ => .refl s) fun _ => ?_
  refine .after (.foldl _ (fun s l => .ite (fun _ => ?_) fun _ => .refl s) _ _) (Alike.safe ?_)
  · exact .after (sendText_safe _ l _ _) (removeCause_alike s l _).safe
  · exact .of_same rfl rfl rfl

theorem evaluateAllowance_safe {e : Ender} (he : EndSafe e) (s : State) (a : FrameNo × EntryNo) :
    Safe s (evaluateAllowance e s a) := by
  unfold evaluateAllowance
  split
  · exact .refl s
  · split
    · exact .refl s
    · exact ((warningTest_safe s a _ _).trans (exhaustionTest_safe he _ a _ _)).trans (restorationTest_safe _ a _ _)

theorem evaluateCall_safe {e : Ender} (he : EndSafe e) (s : State) (l : LineNo) : Safe s (evaluateCall e s l) := by
  unfold evaluateCall
  split
  · exact .refl s
  · exact evaluateAllowance_safe he s _

theorem chargeUnitSeconds_safe {e : Ender} (he : EndSafe e) (s : State) (l : LineNo) (n : Nat) :
    Safe s (chargeUnitSeconds e s l n) := by
  unfold chargeUnitSeconds
  split
  · exact .refl s
  · refine .after (evaluateCall_safe he _ l) (Alike.safe (.after (addUnits_alike _ l _) ?_))
    exact .modCall_plain s l _ fun _ => ⟨rfl, rfl, rfl, rfl, rfl, rfl, rfl⟩

theorem completeStep_safe {e : Ender} (he : EndSafe e) (s : State) (l : LineNo) : Safe s (completeStep e s l) := by
  unfold completeStep
  split
  · exact .refl s
  · refine .ite (fun _ => .refl s) fun _ => ?_
    have charged (n : Nat) : Safe s (chargeUnitSeconds e (s.modCall l fun c =>
        { c with meter := { c.meter with stepPos := 0 } }) l n) := by
      refine .after (chargeUnitSeconds_safe he _ l _) (Alike.safe ?_)
      exact .modCall_plain s l _ fun _ => ⟨rfl, rfl, rfl, rfl, rfl, rfl, rfl⟩
    exact .ite (fun _ => (charged _).trans (startStep_alike _ l).safe) fun _ => charged _

theorem finalStep_safe {e : Ender} (he : EndSafe e) (s : State) (l : LineNo) : Safe s (finalStep e s l) := by
  unfold finalStep
  split
  · exact .refl s
  · exact .ite (fun _ => .refl s) fun _ => chargeUnitSeconds_safe he s l _

theorem endRounding_safe {e : Ender} (he : EndSafe e) (s : State) (l : LineNo) : Safe s (endRounding e s l) := by
  unfold endRounding
  split
  · exact .refl s
  · refine .after (evaluateCall_safe he _ l) (Alike.safe (.after (addUnits_alike _ l _) ?_))
    exact .modCall_plain s l _ fun _ => ⟨rfl, rfl, rfl, rfl, rfl, rfl, rfl⟩

theorem closeMeter_safe {e : Ender} (he : EndSafe e) (s : State) (l : LineNo) : Safe s (closeMeter e s l) := by
  unfold closeMeter
  split
  · exact .refl s
  · exact .ite (fun _ => (finalStep_safe he s l).trans (endRounding_safe he _ l)) fun _ => .refl s

/-! ### The ending event -/

theorem closingTexts_phaseIs (s : State) (l : LineNo) (cause : EndCause) (p : Phase) :
    (closingTexts s l cause).phaseIs l p = s.phaseIs l p := by
  unfold closingTexts
  split <;> simp

theorem closingTexts_inv (i : Inv cr T Q s) (h : s.phaseIs l .connected = false) (cause : EndCause) :
    Inv cr T Q (closingTexts s l cause) := by
  unfold closingTexts
  split
  · exact placeText_inv (placeText_inv i h _ none) (by rwa [placeText_phaseIs]) 14 none
  · exact placeText_inv i h 14 none

theorem Inv.endedOf (i : Inv cr T Q s) (h : s.phaseIs l .ending = true) :
    ∀ c, s.callOn l = some c → (c.phase = .ending ∨ c.phase = .held) ∧ c.endCause.isSome = true := by
  intro c hc
  obtain ⟨d, hd, phase⟩ := phaseIs_iff.1 h
  obtain rfl := Option.some.inj (hc.symm.trans hd)
  exact ⟨.inl phase, i.endCauseOf hc phase⟩

/-- A call that ends leaves its transit where its line is in UP or DROP already. -/
theorem Inv.arriveEnding (i : Inv cr (also l T) Q s) (n : ¬ T l) (h : s.phaseIs l .ending = true)
    (st : (s.line l).st = .up ∨ (s.line l).st = .drop) : Inv cr T Q s := by
  refine i.arrive (fun _ e => (also_of_ne e).symm) n ?_
  obtain ⟨c, hc, phase⟩ := phaseIs_iff.1 h
  have cause := i.endCauseOf hc phase
  unfold Line.fits
  rw [show (s.line l).call = some c from hc]
  rcases st with st | st <;> simp [phaseFits, phase, cause, st]

/-- A drain is started, or is over, for a call that has ended. -/
theorem startDrain_drainCheck_inv (i : Inv cr T Q s) (n : ¬ T l) (f : Call → Call)
    (h : ∀ c, (f c).phase = c.phase ∧ (f c).endCause = c.endCause ∧ (f c).attach = c.attach ∧
      (f c).slotHeld = c.slotHeld ∧ (f c).released = c.released ∧ (f c).txBuf = c.txBuf ∧ (f c).credit = c.credit) :
    Inv cr T Q (drainCheck ((startDrain s l).modCall l f) l) :=
  drainCheck_inv (((startDrain_alike s l).trans (.modCall_plain _ l f h)).inv i) n

/-- The line strand takes the call out of transit: its line is in UP, or goes to DROP (R165 to R170). -/
theorem lineStrand_inv (i : Inv cr (also l T) Q s) (n : ¬ T l) (h : s.phaseIs l .ending = true) (was : Phase)
    (cause : EndCause) (lost : Bool) : Inv cr T Q (lineStrand s l was cause lost) := by
  have discarded (r : Bool) : Alike s (discardOutput s l r) := discardOutput_alike s l r
  have emptied (f : Call → Call) (hf : ∀ c, (f c).phase = c.phase ∧ (f c).endCause = c.endCause ∧ (f c).attach = c.attach ∧
      (f c).slotHeld = c.slotHeld ∧ (f c).released = c.released ∧ (f c).txBuf = [] ∧ (f c).credit = c.credit) :
      Alike s (s.modCall l f) := .modCall_drained s l f hf
  have dropped (r : Bool) : Inv cr T Q (dropLine (discardOutput s l r) l) :=
    dropLine_inv ((discarded r).inv i) (fun _ e => (also_of_ne e).symm) n
      (((discarded r).inv i).endedOf (by rwa [(discarded r).phaseIs]))
  unfold lineStrand
  dsimp only
  split
  · next up =>
    have at' := i.arriveEnding n h (.inl up)
    split
    · exact dropped _
    · split
      · have e := emptied (fun c => { c with
          residue := if decide (was = .connected) = true then c.residue + c.txBuf.length else c.residue, txBuf := [] })
          fun _ => ⟨rfl, rfl, rfl, rfl, rfl, rfl, rfl⟩
        exact drainOver_inv (e.inv at') n (by rwa [e.phaseIs])
      · split
        · exact startDrain_drainCheck_inv at' n _ fun _ => ⟨rfl, rfl, rfl, rfl, rfl, rfl, rfl⟩
        · split
          · have e := emptied (fun c => { c with residue := c.residue + c.txBuf.length, txBuf := [] })
              fun _ => ⟨rfl, rfl, rfl, rfl, rfl, rfl, rfl⟩
            have texts := closingTexts_inv (e.inv at') (ending_apart (by rwa [e.phaseIs])) cause
            exact drainCheck_inv ((startDrain_alike _ l).inv texts) n
          · exact drainCheck_inv ((startDrain_alike _ l).inv (closingTexts_inv at' (ending_apart h) cause)) n
  · next drop =>
    have at' := i.arriveEnding n h (.inr drop)
    refine settle_safe _ l _ _ _ (release_inv ((discarded _).inv at') n _ fun _ => ?_)
    exact ⟨rfl, rfl, rfl, rfl, rfl, rfl⟩
  · exact dropped _

/-- The ending event marks a call: its line is in transit, and still in its class queue if it was queued (R24). -/
theorem markEnded_inv (i : Inv cr T Q s) (n : ¬ T l) (hc : s.callOn l = some c) (going : c.endCause = none)
    (cause : EndCause) : Inv cr (also l T) (fun m => m = l ∧ c.phase = .queued ∨ Q m) (markEnded s l cause) := by
  have call : (s.line l).call = some c := hc
  have fits := i.fitsOf n hc
  have ok := i.line l
  have marked : ((markEnded s l cause).line l).call = (s.line l).call.map _ :=
    congrArg Line.call (State.line_modCall_self s l _)
  rw [call] at marked
  refine i.change l (fun m e => State.line_modCall_ne s _ e) (fun _ e => also_of_ne e) (fun m e => by simp [e]) ?_ ?_ i.most
    i.capacity (fun _ _ _ h => h) (fun k h => ?_) (fun _ _ h => h) (fun h => ?_) i.once
  · refine ⟨fun h => absurd (also_self l T) h, fun _ => ⟨_, marked, rfl, rfl, rfl⟩, fun d hd => ?_, fun d hd => ?_, fun _ d hd => ?_,
      fun on d hd => ?_⟩
    all_goals
      obtain rfl := Option.some.inj (marked.symm.trans hd)
    · exact fun held => ⟨(ok.flag c hc held).1, .inr (.inr rfl)⟩
    · simp
    · simp
    · have := (i.creditOf on hc).1
      exact ⟨by dsimp only; omega, fun _ => rfl⟩
  · simp [markEnded, holdsSlot_eq_any, hc]
  · rcases i.queued k l h with q | q
    · exact .inr (.inl ⟨rfl, by simpa [State.phaseIs, hc] using q⟩)
    · exact .inr (.inr q)
  · have := i.held l h
    have held : c.phase = .held := by simpa [State.phaseIs, hc] using this
    simp [phaseFits, held, going] at fits

/-- Calls that leave queues do the invariant no harm. -/
theorem leaveQueue_safe (s : State) (l : LineNo) : Safe s (leaveQueue s l) := by
  intro cr T Q i
  unfold leaveQueue
  refine Alike.inv (.modCall_plain _ l _ fun _ => ⟨rfl, rfl, rfl, rfl, rfl, rfl, rfl⟩) ?_
  refine { line := i.line, count := i.count, most := i.most, capacity := i.capacity, held := i.held, once := i.once
           queued := fun k m h => i.queued k m ?_ }
  have : m ∈ s.adm.queues[k] ∧ m ≠ l := by simpa using h
  exact this.1

theorem leaveQueue_out (s : State) (l : LineNo) (k : ClassNo) : l ∉ (leaveQueue s l).adm.queues[k] := by
  simp [leaveQueue]

/-- A line that stands in no queue is not moving, where its call is attached only once its lookup has passed. -/
theorem Inv.stand (i : Inv cr T (also l Q) s) (out : ∀ k : ClassNo, l ∉ s.adm.queues[k])
    (still : ∀ c, s.callOn l = some c → (c.phase = .speed ∨ c.phase = .name ∨ c.phase = .password ∨ c.phase = .lookup) →
      c.attach = none) : Inv cr T Q s :=
  { i with
    line := fun m => by
      by_cases e : m = l
      · subst e
        exact { i.line m with unattached := fun _ => still }
      · rw [← propext (also_of_ne (T := Q) e)]; exact i.line m
    queued := fun k m h => by
      have : m ≠ l := fun e => out k (e ▸ h)
      exact (i.queued k m h).imp_right (also_of_ne this).1 }

/-- What leaves the other blocks at the ending event, the line still in transit (R84, R102, R134, R156). -/
theorem endingWork_inv {e : Ender} (he : EndSafe e) {was : Phase} (i : Inv cr (also l T) (fun m => m = l ∧ was = .queued ∨ Q m) s) :
    Inv cr (also l T) Q (endingWork e s l was) := by
  have same (no : was ≠ .queued) : Inv cr (also l T) Q s := i.congr (fun _ => .rfl) fun m => by simp [no]
  unfold endingWork
  split
  · exact (withdrawLookup_alike s l).inv (same (by simp))
  · refine Inv.stand (l := l) (leaveQueue_safe s l _ _ _ (i.congr (fun _ => .rfl) fun m => by simp [also])) (leaveQueue_out s l) ?_
    intro c hc phase
    obtain ⟨d, hd, rfl⟩ : ∃ d, s.callOn l = some d ∧ { d with queueWait := none, announce := none } = c := by
      have : (s.callOn l).map (fun c => { c with queueWait := none, announce := none }) = some c := by
        rw [← hc, leaveQueue, State.callOn_modCall_self]; rfl
      exact Option.map_eq_some_iff.1 this
    obtain ⟨e, he, ending, -⟩ := i.inCall (also_self l T)
    obtain rfl := Option.some.inj (hd.symm.trans he)
    simp [ending] at phase
  · have stopped := (stopCarriage_alike s l).inv (same (by simp))
    exact closingFlush_safe _ l _ _ _ (closeMeter_safe he _ l _ _ _ stopped)
  · next queued _ => exact same queued

theorem Inv.inEnding (i : Inv cr T Q s) (h : T l) : s.phaseIs l .ending = true := by
  obtain ⟨c, hc, phase, -⟩ := i.inCall h
  exact phaseIs_iff.2 ⟨c, hc, phase⟩

/-- The ending work of a call and its line strand. -/
theorem endWork_inv {e : Ender} (he : EndSafe e) {was : Phase} (n : ¬ T l)
    (i : Inv cr (also l T) (fun m => m = l ∧ was = .queued ∨ Q m) s) (cause : EndCause) (lost : Bool) :
    Inv cr T Q (lineStrand (endingWork e s l was) l was cause lost) :=
  have worked := endingWork_inv he i
  lineStrand_inv worked n (worked.inEnding (also_self l T)) was cause lost

theorem endCallWith_safe {e : Ender} (he : EndSafe e) (s : State) (l : LineNo) (cause : EndCause) (lost : Bool) :
    Safe s (endCallWith e s l cause lost) := by
  intro cr T Q i
  have charged := completeStep_safe he s l cr T Q i
  unfold endCallWith
  dsimp only
  split
  · exact charged
  · next c hc =>
    split
    · exact charged
    · next going =>
      have n : ¬ T l := fun h => by
        obtain ⟨d, hd, -, ended, -⟩ := charged.inCall h
        obtain rfl := Option.some.inj (hc.symm.trans hd)
        exact going ended
      exact endWork_inv he n (markEnded_inv charged n hc (by simpa using going) cause) cause lost

theorem endFuel_safe (fuel : Nat) : EndSafe (endFuel fuel) := by
  induction fuel with
  | zero => exact fun s _ _ => .refl s
  | succ fuel ih => exact fun s l cause => endCallWith_safe ih s l cause false

theorem endCall_safe : EndSafe endCall := endFuel_safe 49

theorem endCallLost_safe (s : State) (l : LineNo) (cause : EndCause) : Safe s (endCallLost s l cause) :=
  endCallWith_safe (endFuel_safe 48) s l cause true

/-! ### One event that ends several calls -/

/-- The calls that one event ends, each with its phase before: no line twice, none in transit, each call still going. -/
structure Due (T : LineNo → Prop) (due : List (LineNo × Phase)) (s : State) : Prop where
  nodup : (due.map Prod.fst).Nodup
  going : ∀ x ∈ due, ¬ T x.1 ∧ ∃ c, s.callOn x.1 = some c ∧ c.phase = x.2 ∧ c.endCause = none

/-- The calls are marked, one after another: all their lines are in transit. -/
theorem markAll_inv (due : List (LineNo × Phase)) (cause : EndCause) (i : Inv cr T Q s) (d : Due T due s) :
    Inv cr (fun m => m ∈ due.map Prod.fst ∨ T m) (fun m => (m, .queued) ∈ due ∨ Q m)
      (due.foldl (fun s x => markEnded s x.1 cause) s) := by
  induction due generalizing s T Q with
  | nil => simpa using i
  | cons x xs ih =>
    obtain ⟨n, c, hc, phase, going⟩ := d.going x (by simp)
    obtain ⟨out, nodup⟩ := List.nodup_cons.1 (List.map_cons (f := Prod.fst) ▸ d.nodup)
    have marked := markEnded_inv i n hc going cause
    refine (ih marked ⟨nodup, fun y hy => ?_⟩).congr (fun m => ?_) fun m => ?_
    · have other : y.1 ≠ x.1 := fun e => out (e ▸ List.mem_map_of_mem hy)
      obtain ⟨n', c', hc', rest⟩ := d.going y (by simp [hy])
      refine ⟨fun h => n' ((also_of_ne other).1 h), c', ?_, rest⟩
      rwa [markEnded, State.callOn_modCall_ne s _ other]
    · simp only [also, List.map_cons, List.mem_cons]
      tauto
    · obtain ⟨a, b⟩ := x
      simp only [List.mem_cons, Prod.mk.injEq] at phase ⊢
      rw [phase]
      tauto

/-- The closing work of the marked calls, in their order. -/
theorem workAll_inv (due : List (LineNo × Phase)) (cause : EndCause) (nodup : (due.map Prod.fst).Nodup)
    (out : ∀ x ∈ due, ¬ T x.1)
    (i : Inv cr (fun m => m ∈ due.map Prod.fst ∨ T m) (fun m => (m, .queued) ∈ due ∨ Q m) s) :
    Inv cr T Q (due.foldl (fun s x => lineStrand (endingWork endCall s x.1 x.2) x.1 x.2 cause false) s) := by
  induction due generalizing s with
  | nil => simpa using i
  | cons x xs ih =>
    obtain ⟨fresh, nodup⟩ := List.nodup_cons.1 (List.map_cons (f := Prod.fst) ▸ nodup)
    refine ih nodup (fun y hy => out y (by simp [hy])) ?_
    refine endWork_inv endCall_safe ?_ (i.congr (fun m => ?_) fun m => ?_) cause false
    · rintro (h | h)
      · exact fresh h
      · exact out x (by simp) h
    · simp only [also, List.map_cons, List.mem_cons]
      tauto
    · obtain ⟨a, b⟩ := x
      simp only [List.mem_cons, Prod.mk.injEq]
      constructor
      · rintro (⟨h, e⟩ | h | h)
        · exact .inl (.inl ⟨h, e.symm⟩)
        · exact .inl (.inr h)
        · exact .inr h
      · rintro ((⟨h, e⟩ | h) | h)
        · exact .inl ⟨h, e.symm⟩
        · exact .inr (.inl h)
        · exact .inr (.inr h)

/-- The calls of `lines` that an event ends in state `s`, each with its phase. -/
def dueCalls (s : State) (lines : List LineNo) : List (LineNo × Phase) :=
  lines.filterMap fun l => (s.callOn l).bind fun c => if c.endCause.isNone then some (l, c.phase) else none

theorem mem_dueCalls {lines : List LineNo} {x : LineNo × Phase} (h : x ∈ dueCalls s lines) :
    ∃ c, s.callOn x.1 = some c ∧ c.phase = x.2 ∧ c.endCause = none := by
  obtain ⟨l, -, hl⟩ := List.mem_filterMap.1 h
  obtain ⟨c, hc, hx⟩ := Option.bind_eq_some_iff.1 hl
  split at hx
  · next going =>
    obtain rfl := Option.some.inj hx
    exact ⟨c, hc, rfl, by simpa using going⟩
  · simp at hx

theorem dueCalls_nodup {lines : List LineNo} (h : lines.Nodup) : ((dueCalls s lines).map Prod.fst).Nodup := by
  rw [dueCalls, List.map_filterMap]
  refine h.filterMap fun a b m ha hb => ?_
  have own : ∀ d, m ∈ ((s.callOn d).bind fun c => if c.endCause.isNone then some (d, c.phase) else none).map Prod.fst →
      d = m := by
    intro d hd
    obtain ⟨x, hx, rfl⟩ := Option.map_eq_some_iff.1 hd
    obtain ⟨c, -, hc⟩ := Option.bind_eq_some_iff.1 hx
    split at hc
    · obtain rfl := Option.some.inj hc; rfl
    · simp at hc
  exact (own a ha).trans (own b hb).symm

theorem endAll_safe (s : State) {lines : List LineNo} (nodup : lines.Nodup) (cause : EndCause) :
    Safe s (endAll s lines cause) := by
  intro cr T Q i
  have charged := Safe.foldl _ (fun s l => completeStep_safe endCall_safe s l) lines s cr T Q i
  unfold endAll
  dsimp only
  generalize lines.foldl (fun s l => completeStep endCall s l) s = u at charged
  have out (x) (hx : x ∈ dueCalls u lines) : ¬ T x.1 := fun h => by
    obtain ⟨c, hc, -, going⟩ := mem_dueCalls hx
    obtain ⟨d, hd, -, ended, -⟩ := charged.inCall h
    obtain rfl := Option.some.inj (hc.symm.trans hd)
    simp [going] at ended
  exact workAll_inv (dueCalls u lines) cause (dueCalls_nodup nodup) out
    (markAll_inv (dueCalls u lines) cause charged ⟨dueCalls_nodup nodup, fun x hx => ⟨out x hx, mem_dueCalls hx⟩⟩)

end Sys2Proof.Machine
end

section
namespace Sys2Proof.Machine

variable {cr : Prop} {T T' Q : LineNo → Prop} {s t u : State} {l : LineNo} {c : Call}

/-! ### Admission -/

theorem st_modCall (s : State) (l m : LineNo) (f : Call → Call) : ((s.modCall l f).line m).st = (s.line m).st := by
  by_cases e : m = l
  · subst e; simp
  · simp [e]

/-- A call that is offered or queued: attached, with no slot, and free to be granted one. -/
structure Offered (s : State) (l : LineNo) (c : Call) : Prop where
  call_eq : s.callOn l = some c
  phase : c.phase = .lookup ∨ c.phase = .queued ∨ c.phase = .opening
  attached : c.attach.isSome = true
  free : c.slotHeld = false

theorem Offered.going (h : Offered s l c) (i : Inv cr T Q s) (n : ¬ T l) : (s.line l).st = .up ∧ c.endCause.isNone = true := by
  have fits := i.fitsOf n h.call_eq
  rcases h.phase with p | p | p <;> simpa [phaseFits, p] using fits

theorem Offered.unheld (h : Offered s l c) (i : Inv cr T Q s) : l ∉ s.bst.held := fun held => by
  have := i.held l held
  rcases h.phase with p | p | p <;> simp [State.phaseIs, h.call_eq, p] at this

theorem Offered.noCredit (h : Offered s l c) (i : Inv cr T Q s) (on : cr) : c.txBuf.length ≤ 256 ∧ c.credit = 0 := by
  obtain ⟨room, zero⟩ := i.creditOf on h.call_eq
  have := zero (by rcases h.phase with p | p | p <;> simp [p])
  exact ⟨by omega, this⟩

/-- The offered call takes its place: it is queued, or it is in OPENING, with or without a slot. -/
theorem LineOk.placed {moving : Prop} {x : Line} {d : Call} (h : Offered s l c) (i : Inv cr T Q s) (n : ¬ T l)
    (call : x.call = some d) (st : x.st = (s.line l).st) (phase : d.phase = .queued ∧ d.slotHeld = false ∨ d.phase = .opening)
    (endCause : d.endCause = c.endCause) (attach : d.attach = c.attach) (txBuf : d.txBuf = c.txBuf)
    (credit : d.credit = c.credit) : LineOk cr False moving x := by
  obtain ⟨up, going⟩ := h.going i n
  have attached : d.attach.isSome = true := attach ▸ h.attached
  refine .of_call call ?_ (fun held => ⟨attached, ?_⟩) (fun _ => attached) (fun _ early => ?_) fun on => ?_
  · rcases phase with ⟨p, -⟩ | p <;> simpa [phaseFits, p, st, up, endCause] using going
  · rcases phase with ⟨-, free⟩ | p
    · simp [free] at held
    · exact .inl p
  · rcases phase with ⟨p, -⟩ | p <;> simp [p] at early
  · obtain ⟨room, zero⟩ := h.noCredit i on
    rw [txBuf, credit]
    exact ⟨by omega, fun _ => zero⟩

/-- A call takes a slot and enters OPENING; the OPEN REQUEST is still to go (R108). -/
def takeSlot (s : State) (l : LineNo) : State :=
  { s with adm := { s.adm with inUse := s.adm.inUse + 1, grants := bump s.adm.grants } }.modCall l fun c =>
    { c with slotHeld := true, openOutstanding := true, phase := .opening, openWait := startTimer s.adm.openWait }

theorem grant_alike (s : State) (l : LineNo) : Alike (takeSlot (leaveQueue s l) l) (grant s l) := by
  unfold grant
  dsimp only
  split
  · exact enqueueOrdered_alike _ _
  · exact .refl _

theorem takeSlot_callOn (s : State) (l : LineNo) : (takeSlot s l).callOn l = (s.callOn l).map fun c =>
    { c with slotHeld := true, openOutstanding := true, phase := .opening, openWait := startTimer s.adm.openWait } :=
  State.callOn_modCall_self _ l _

theorem takeSlot_inv (i : Inv cr T (also l Q) s) (n : ¬ T l) (h : Offered s l c) (out : ∀ k : ClassNo, l ∉ s.adm.queues[k])
    (room : s.adm.inUse < 32) : Inv cr T Q (takeSlot s l) := by
  have call := takeSlot_callOn s l
  rw [h.call_eq] at call
  refine i.change l (fun m e => State.line_modCall_ne _ _ e) (fun _ _ => .rfl) (fun m e => (also_of_ne e).symm) ?_ ?_
    room i.capacity (fun _ _ _ hq => hq) (fun k hq => absurd hq (out k)) (fun _ _ hh => hh)
    (fun hh => absurd hh (h.unheld i)) i.once
  · rw [eq_false n]
    refine LineOk.placed h i n call ?_ (.inr rfl) rfl rfl rfl rfl
    exact st_modCall _ l l _
  · rw [holdsSlot_eq_any, holdsSlot_eq_any, call, h.call_eq, Option.map_some, Option.any_some, Option.any_some, h.free]
    rfl

theorem leaveQueue_offered (h : Offered s l c) : Offered (leaveQueue s l) l { c with queueWait := none, announce := none } where
  call_eq := by
    rw [leaveQueue, State.callOn_modCall_self]
    exact congrArg _ h.call_eq
  phase := h.phase
  attached := h.attached
  free := h.free

/-- A grant takes a slot for the offered call (R108). -/
theorem grant_inv (i : Inv cr T (also l Q) s) (n : ¬ T l) (h : Offered s l c) (room : s.adm.inUse < 32) :
    Inv cr T Q (grant s l) :=
  (grant_alike s l).inv
    (takeSlot_inv (leaveQueue_safe s l _ _ _ i) n (leaveQueue_offered h) (leaveQueue_out s l) room)

/-- Class `k`'s queue changed about line `l` alone. -/
theorem setQueue_inv (i : Inv cr T (also l Q) s) (k : ClassNo) (q : List LineNo)
    (h : ∀ m, m ≠ l → m ∈ q → m ∈ s.adm.queues[k]) : Inv cr T (also l Q) (s.setQueue k q) :=
  { i with
    queued := fun j m hm => by
      by_cases e : m = l
      · exact .inr (.inl e)
      · refine i.queued j m ?_
        by_cases same : k = j
        · subst same
          exact h m e (by simpa [State.setQueue] using hm)
        · have : k.val ≠ j.val := fun h => same (Fin.ext h)
          simpa [State.setQueue, this] using hm }

/-- A call that joins a queue is in QUEUED (R102, R103). -/
theorem startQueueing_inv (i : Inv cr T (also l Q) s) (n : ¬ T l) (h : Offered s l c) (k : ClassNo) :
    Inv cr T Q (startQueueing s l k) := by
  have queued : Inv cr T Q (s.modCall l fun c => { c with
      phase := .queued, queueWait := startTimer s.adm.classes[k].queueWait
      announce := startTimer s.adm.classes[k].announce }) := by
    have call := State.callOn_modCall_self s l fun c => { c with
      phase := .queued, queueWait := startTimer s.adm.classes[k].queueWait
      announce := startTimer s.adm.classes[k].announce }
    rw [h.call_eq] at call
    refine i.change l (fun m e => State.line_modCall_ne _ _ e) (fun _ _ => .rfl) (fun m e => (also_of_ne e).symm) ?_ ?_
      i.most i.capacity (fun _ _ _ hq => hq) (fun _ _ => .inl (phaseIs_iff.2 ⟨_, call, rfl⟩)) (fun _ _ hh => hh)
      (fun hh => absurd hh (h.unheld i)) i.once
    · rw [eq_false n]
      refine LineOk.placed h i n call ?_ (.inl ⟨rfl, h.free⟩) rfl rfl rfl rfl
      exact st_modCall _ l l _
    · rw [holdsSlot_eq_any, holdsSlot_eq_any, call, h.call_eq]
      rfl
  unfold startQueueing
  dsimp only
  split
  · exact queued
  · refine placeText_inv queued ?_ 9 _
    have call := State.callOn_modCall_self s l fun c => { c with
      phase := .queued, queueWait := startTimer s.adm.classes[k].queueWait
      announce := startTimer s.adm.classes[k].announce }
    rw [h.call_eq] at call
    exact notConnected call (by simp)

theorem joinTail_inv (i : Inv cr T (also l Q) s) (n : ¬ T l) (h : Offered s l c) (k : ClassNo) :
    Inv cr T Q (joinTail s l k) := by
  have set := setQueue_inv i k (s.adm.queues[k] ++ [l]) fun m e hm => by simpa [e] using hm
  exact startQueueing_inv set n ⟨h.call_eq, h.phase, h.attached, h.free⟩ k

theorem joinHead_inv (i : Inv cr T (also l Q) s) (n : ¬ T l) (h : Offered s l c) (k : ClassNo) :
    Inv cr T Q (joinHead s l k) := by
  have set := setQueue_inv i k (l :: s.adm.queues[k]) fun m e hm => by simpa [e] using hm
  exact startQueueing_inv set n ⟨h.call_eq, h.phase, h.attached, h.free⟩ k

theorem setPointers_alike (s : State) (k : ClassNo) : Alike s (setPointers s k) := by
  unfold setPointers
  split
  all_goals exact ⟨fun _ => .of_eq rfl rfl, rfl, rfl, rfl, rfl⟩

/-- A slot that may be granted leaves fewer than 32 in use (R100, R103). -/
theorem slotFree_room {k : ClassNo} (h : slotFree s k = true) : s.adm.inUse < s.adm.capacity := by
  unfold slotFree at h
  split at h
  all_goals
    have := of_decide_eq_true h
    omega

/-- The class that a selection chooses has a free slot (R106, R107). -/
theorem selectClass_free {k : ClassNo} (h : selectClass s = some k) : slotFree s k = true := by
  obtain ⟨v, -, hv⟩ := List.exists_of_findSome?_eq_some h
  split at hv
  · dsimp only at hv
    split at hv
    · next e =>
      obtain rfl := Option.some.inj hv
      simp only [highEligible, Bool.and_eq_true] at e
      exact e.2
    · simp at hv
  · have e := List.find?_some hv
    simp only [lowEligible, Bool.and_eq_true] at e
    exact e.2

/-- Between commands, a call at the head of a queue is one that may be granted a slot. -/
theorem Inv.offered {T : LineNo → Prop} (i : Inv cr T (fun _ => False) s) {k : ClassNo} (h : l ∈ s.adm.queues[k]) :
    ¬ T l ∧ ∃ c, Offered s l c := by
  obtain ⟨c, hc, phase⟩ := phaseIs_iff.1 ((i.queued k l h).resolve_right id)
  refine ⟨fun t => ?_, c, hc, .inr (.inl phase), (i.line l).attached c hc (.inl phase), ?_⟩
  · obtain ⟨d, hd, ending, -⟩ := i.inCall t
    obtain rfl := Option.some.inj (hc.symm.trans hd)
    simp [phase] at ending
  · by_contra held
    have := ((i.line l).flag c hc (by simpa using held)).2
    simp [phase] at this

theorem selectOne_inv {T : LineNo → Prop} (i : Inv cr T (fun _ => False) s) (h : selectOne s = some t) :
    Inv cr T (fun _ => False) t := by
  obtain ⟨k, l, rest, chosen, front, rfl, -⟩ := selectOne_some h
  obtain ⟨n, c, offered⟩ := i.offered (k := k) (l := l) (by simp [front])
  have room := slotFree_room (selectClass_free chosen)
  have := i.capacity
  exact (setPointers_alike _ k).inv (grant_inv (i.weaken fun _ f => .inr f) n offered (by omega))

theorem arbiterLoop_inv {T : LineNo → Prop} (fuel : Nat) (i : Inv cr T (fun _ => False) s) :
    Inv cr T (fun _ => False) (arbiterLoop fuel s).1 := by
  induction fuel generalizing s with
  | zero => exact i
  | succ fuel ih =>
    unfold arbiterLoop
    split
    · exact i
    · exact ih (selectOne_inv i ‹_›)

theorem runArbiter_inv {T : LineNo → Prop} (i : Inv cr T (fun _ => False) s) :
    Inv cr T (fun _ => False) (runArbiter s).1 := arbiterLoop_inv _ i

/-- A run of the arbiter does not touch the call of a line that is not queued. -/
theorem arbiterLoop_line {T : LineNo → Prop} (fuel : Nat) (i : Inv cr T (fun _ => False) s)
    (h : s.phaseIs l .queued = false) : (arbiterLoop fuel s).1.line l = s.line l := by
  induction fuel generalizing s with
  | zero => rfl
  | succ fuel ih =>
    unfold arbiterLoop
    split
    · rfl
    · next t ht =>
      obtain ⟨k, m, rest, -, front, -, loc⟩ := selectOne_some ht
      have other : l ≠ m := fun e => by
        have := (i.queued k m (by simp [front])).resolve_right id
        simp [e ▸ h] at this
      have same := loc.others l other
      rw [ih (selectOne_inv i ht) (by simpa only [State.phaseIs, State.callOn, same] using h), same]

theorem runArbiter_line {T : LineNo → Prop} (i : Inv cr T (fun _ => False) s) (h : s.phaseIs l .queued = false) :
    (runArbiter s).1.line l = s.line l := arbiterLoop_line _ i h

/-- A slot given back is counted off (R101). -/
theorem clearSlot_inv (i : Inv cr T Q s) (n : ¬ T l) : Inv cr T Q (clearSlot s l) := by
  unfold clearSlot
  split
  · next c hc =>
    split
    · next held =>
      have call := State.callOn_modCall_self { s with adm := { s.adm with inUse := s.adm.inUse - 1 } } l
        fun c => { c with slotHeld := false }
      have same : ({ s with adm := { s.adm with inUse := s.adm.inUse - 1 } } : State).callOn l = some c := hc
      rw [same] at call
      have ok := i.line l
      obtain ⟨-, phase⟩ := ok.flag c hc held
      have one : 1 ≤ s.adm.inUse := by
        rw [i.count]
        exact List.countP_pos_iff.2 ⟨l, mem_allLines l, by simp [holdsSlot, hc, held]⟩
      have most := i.most
      refine i.change l (fun m e => State.line_modCall_ne _ _ e) (fun _ _ => .rfl) (fun _ _ => .rfl) ?_ ?_ ?_ i.capacity
        (fun _ _ _ hq => hq) (fun k hq => .inr ((i.queued k l hq).resolve_left ?_)) (fun _ _ hh => hh) (fun hh => ?_) i.once
      · rw [eq_false n]
        refine .of_call call ?_ (by simp) (fun p => ok.attached c hc p) (fun m p => ok.unattached m c hc p) fun on => ?_
        · rw [st_modCall]
          have fits := i.fitsOf n hc
          exact fits
        · have credit := i.creditOf on hc
          exact credit
      · rw [holdsSlot_eq_any, holdsSlot_eq_any, call, hc, Option.map_some, Option.any_some, Option.any_some, held]
        simp only [State.adm_modCall, Bool.toNat_true, Bool.toNat_false]
        omega
      · simp only [State.adm_modCall]
        omega
      · rcases phase with p | p | p <;> simp [State.phaseIs, hc, p]
      · have := i.held l hh
        rcases phase with p | p | p <;> simp [State.phaseIs, hc, p] at this
    · exact i
  · exact i

theorem clearSlot_callOn (s : State) (l : LineNo) :
    (clearSlot s l).callOn l = (s.callOn l).map fun c => { c with slotHeld := false } := by
  unfold clearSlot
  split
  · next c hc =>
    split
    · exact State.callOn_modCall_self _ l _
    · next free =>
      have same : ({ c with slotHeld := false } : Call) = c := by
        have : c.slotHeld = false := by simpa using free
        rw [← this]
      rw [hc, Option.map_some, same]
  · next hc => simp [hc]

theorem clearSlot_phaseIs (s : State) (l : LineNo) (p : Phase) : (clearSlot s l).phaseIs l p = s.phaseIs l p := by
  unfold State.phaseIs
  rw [clearSlot_callOn]
  cases s.callOn l <;> simp

theorem releaseSlot_inv {T : LineNo → Prop} (i : Inv cr T (fun _ => False) s) (n : ¬ T l) :
    Inv cr T (fun _ => False) (releaseSlot s l) := runArbiter_inv (clearSlot_inv i n)

/-- After a slot release the call stands as it stood, with no slot, unless it was queued. -/
theorem releaseSlot_callOn {T : LineNo → Prop} (i : Inv cr T (fun _ => False) s) (n : ¬ T l)
    (h : s.phaseIs l .queued = false) :
    (releaseSlot s l).callOn l = (s.callOn l).map fun c => { c with slotHeld := false } := by
  rw [releaseSlot, State.callOn_eq, runArbiter_line (clearSlot_inv i n) (by rwa [clearSlot_phaseIs])]
  exact clearSlot_callOn s l

end Sys2Proof.Machine
end

section
namespace Sys2Proof.Machine

variable {cr : Prop} {T T' Q : LineNo → Prop} {s t u : State} {l : LineNo} {c : Call}

/-! ### Between commands: sign-on and the account cache -/

/-- The invariant between commands passes from `s` to `t`. -/
def Sound (s t : State) : Prop := ∀ cr, Whole cr s → Whole cr t

theorem Safe.sound (h : Safe s t) : Sound s t := fun cr i => h cr _ _ i

theorem Alike.sound (h : Alike s t) : Sound s t := h.safe.sound

theorem Sound.refl (s : State) : Sound s s := fun _ i => i

theorem Sound.trans (a : Sound s t) (b : Sound t u) : Sound s u := fun cr i => b cr (a cr i)

theorem Sound.after (b : Sound t u) (a : Sound s t) : Sound s u := a.trans b

theorem Sound.ite {p : Prop} [Decidable p] (a : p → Sound s t) (b : ¬ p → Sound s u) : Sound s (if p then t else u) := by
  split
  · exact a ‹_›
  · exact b ‹_›

theorem Sound.foldl {α : Type} (f : State → α → State) (h : ∀ s a, Sound s (f s a)) (xs : List α) (s : State) :
    Sound s (xs.foldl f s) := by
  induction xs generalizing s with
  | nil => exact Sound.refl s
  | cons x xs ih => exact (h s x).trans (ih _)

/-- Nothing outside the lines, the admission unit and the store matters. -/
theorem Sound.of_same (hl : t.lines = s.lines) (ha : t.adm = s.adm) (hb : t.bst = s.bst) : Sound s t :=
  (Alike.of_same hl ha hb).sound

/-- A text is placed for a call that is not connected. -/
theorem placeText_sound (slot : Fin 24) (n : Option Nat) (h : s.phaseIs l .connected = false) :
    Sound s (placeText s l slot n) := fun _ i => placeText_inv i h slot n

theorem endCall_sound (s : State) (l : LineNo) (cause : EndCause) : Sound s (endCall s l cause) :=
  (endCall_safe s l cause).sound

theorem signOnFailed_alike (s : State) (l : LineNo) (a : Nat) (r : SignOnReason) (e : Option EndCause) :
    Alike s (signOnFailed s l a r e) := by
  unfold signOnFailed
  split
  · exact .refl s
  · exact enqueueOrdered_alike s _

theorem retryDialogue_sound (h : s.phaseIs l .lookup = true) : Sound s (retryDialogue s l) := fun _ i => by
  obtain ⟨c, hc, p⟩ := phaseIs_iff.1 h
  exact retryDialogue_inv (enterName_inv i hc id (.inr (.inr p)))

theorem lookup_apart (h : s.phaseIs l .lookup = true) : s.phaseIs l .connected = false := by
  obtain ⟨c, hc, p⟩ := phaseIs_iff.1 h
  exact notConnected hc (by simp [p])

theorem invalidLookup_sound (h : s.phaseIs l .lookup = true) (a : Nat) (r : SignOnReason) :
    Sound s (invalidLookup s l a r) := by
  have counted : Alike s ((clearPassword s l).modCall l fun c => { c with attempts := c.attempts + 1 }) :=
    (clearPassword_alike s l).trans (.modCall_plain _ l _ fun _ => ⟨rfl, rfl, rfl, rfl, rfl, rfl, rfl⟩)
  have waits := (counted.phaseIs l .lookup).trans h
  unfold invalidLookup
  dsimp only
  generalize (clearPassword s l).modCall l (fun c => { c with attempts := c.attempts + 1 }) = v at counted waits
  split
  · exact counted.sound
  · refine .ite (fun _ => ?_) fun _ => ?_
    · have told := signOnFailed_alike v l a r none
      exact (counted.trans told).sound.trans (retryDialogue_sound ((told.phaseIs l .lookup).trans waits))
    · refine .after (endCall_sound _ l _) (.after (signOnFailed_alike _ l _ _ _).sound ?_)
      exact counted.sound.trans (placeText_sound 3 none (lookup_apart waits))

theorem refuseSignOn_sound (h : s.phaseIs l .lookup = true) (a : Nat) (r : SignOnReason) :
    Sound s (refuseSignOn s l a r) :=
  .after (endCall_sound _ l _) (.after (signOnFailed_alike _ l _ _ _).sound (placeText_sound _ none (lookup_apart h)))

/-- A call in LOOKUP is attached: it is moving, until it is offered (R73). -/
theorem attach_inv (i : Whole cr s) (hc : s.callOn l = some c) (phase : c.phase = .lookup) (f : Call → Call)
    (same : (f c).phase = c.phase ∧ (f c).endCause = c.endCause ∧ (f c).slotHeld = c.slotHeld ∧ (f c).txBuf = c.txBuf ∧
      (f c).credit = c.credit) : Inv cr (fun _ => False) (also l fun _ => False) (s.modCall l f) := by
  obtain ⟨phase', endCause, slotHeld, txBuf, credit⟩ := same
  have call : (s.line l).call = some c := hc
  have free : c.slotHeld = false := by
    by_contra held
    have := ((i.line l).flag c hc (by simpa using held)).2
    simp [phase] at this
  refine (i.weaken fun _ f => f.elim).modLine l _ (fun _ _ => .rfl) ?_ (by simp [call, slotHeld]) ?_ ?_
  · refine .of_call (c := f c) (by simp [call]) ?_ (by simp [slotHeld, free]) (by simp [phase', phase])
      (fun n => absurd (also_self l _) n) fun on => ?_
    · simpa only [phaseFits, phase', endCause] using i.fitsOf id hc
    · obtain ⟨room, zero⟩ := i.creditOf on hc
      rw [txBuf, credit, phase']
      exact ⟨room, zero⟩
  · simp [State.phaseIs, hc, phase]
  · simp [State.phaseIs, hc, phase]

theorem offer_inv {T : LineNo → Prop} (i : Inv cr T (also l fun _ => False) s) (n : ¬ T l) (h : Offered s l c) (k : ClassNo) :
    Inv cr T (fun _ => False) (offer s l k) := by
  unfold offer
  split
  · next room =>
    have := slotFree_room room
    have := i.capacity
    exact (setPointers_alike _ k).inv (grant_inv i n h (by omega))
  · exact joinTail_inv i n h k

theorem attachCall_sound (h : s.phaseIs l .lookup = true) (a : FrameNo × EntryNo) (k : ClassNo) :
    Sound s (attachCall s l a k) := fun cr i => by
  obtain ⟨c, hc, phase⟩ := phaseIs_iff.1 h
  have free : c.slotHeld = false := by
    by_contra held
    have := ((i.line l).flag c hc (by simpa using held)).2
    simp [phase] at this
  have attached := (attachPins_alike _ a).inv
    (attach_inv i hc phase (fun c => { c with attach := some a }) ⟨rfl, rfl, rfl, rfl, rfl⟩)
  have call : (attachPins (s.modCall l fun c => { c with attach := some a }) a).callOn l = some { c with attach := some a } := by
    have : (s.modCall l fun c => { c with attach := some a }).callOn l = some { c with attach := some a } := by
      rw [State.callOn_modCall_self, hc]; rfl
    exact this
  unfold attachCall
  dsimp only
  generalize attachPins (s.modCall l fun c => { c with attach := some a }) a = v at attached call
  refine offer_inv (c := { c with attach := some a, cls := some k, signOn := some v.ctu.now }) ?_ id ?_ k
  · refine Alike.inv (s := v) ?_ attached
    exact .modCall_plain v l _ fun _ => ⟨rfl, rfl, rfl, rfl, rfl, rfl, rfl⟩
  · refine ⟨?_, .inl phase, rfl, free⟩
    rw [State.callOn_modCall_self, call]
    rfl

theorem actOnOutcome_sound (h : s.phaseIs l .lookup = true) (o : LookupOutcome) : Sound s (actOnOutcome s l o) := by
  have cleared := (clearPassword_alike s l).sound
  have waits : (clearPassword s l).phaseIs l .lookup = true := ((clearPassword_alike s l).phaseIs l .lookup).trans h
  unfold actOnOutcome
  split
  · exact .refl s
  · split
    · exact .after (endCall_sound _ l _) (cleared.trans (placeText_sound 15 none (lookup_apart waits)))
    · exact invalidLookup_sound h _ _
    · split
      · exact invalidLookup_sound h _ _
      · refine .ite (fun _ => invalidLookup_sound h _ _) fun _ => ?_
        split
        · exact cleared.trans (refuseSignOn_sound waits _ _)
        · exact cleared.trans (attachCall_sound waits _ _)

theorem resolveLookup_sound (s : State) (k : Lookup) (o : LookupOutcome) : Sound s (resolveLookup s k o) := by
  unfold resolveLookup
  split
  · next c hc => exact .ite (fun ok => actOnOutcome_sound (phaseIs_iff.2 ⟨c, hc, ok.2⟩) o) fun _ => .refl s
  · exact .refl s

theorem issueFetch_alike (s : State) (i : SlotNo) (f : FrameNo) (kind : FetchKind) (k : Lookup) :
    Alike s (issueFetch s i f kind k) := by
  unfold issueFetch
  refine .after (enqueuePriority_alike _ _) ?_
  cases kind <;> exact .of_same rfl rfl rfl

/-- The state that a placement leaves. -/
def Placement.state : Placement → State
  | .settled s => s
  | .needs s _ _ => s

theorem placeCases_sound (s : State) (k : Lookup) : Sound s (placeCases s k).state := by
  unfold placeCases
  split
  · exact .of_same rfl rfl rfl
  · split
    · exact .refl s
    · next f _ =>
      have touched : Sound s (touchFrame s f) := .of_same rfl rfl rfl
      split
      · exact .refl s
      · dsimp only
        split
        · exact touched.trans (resolveLookup_sound _ k _)
        · split
          · exact touched.trans (resolveLookup_sound _ k _)
          · exact touched

theorem tryPlace_sound (s : State) (k : Lookup) (b : Bool) : Sound s (tryPlace s k b).1 := by
  have placed := placeCases_sound s k
  unfold tryPlace
  split
  · next h => rwa [h] at placed
  · next h =>
    rw [h] at placed
    split
    · split
      · exact placed
      · exact placed.trans (issueFetch_alike _ _ _ _ _).sound
    · exact placed

theorem arriveLookup_sound (s : State) (k : Lookup) : Sound s (arriveLookup s k) := by
  have placed : Sound s (tryPlace { s with acc := { s.acc with lookups := bump s.acc.lookups } } k
      (!s.acc.backlog.isEmpty)).1 := .after (tryPlace_sound _ _ _) (.of_same rfl rfl rfl)
  exact .ite (fun _ => placed.trans (.of_same rfl rfl rfl)) fun _ => placed

theorem serveBacklogLoop_sound (fuel : Nat) (s : State) : Sound s (serveBacklogLoop fuel s) := by
  induction fuel generalizing s with
  | zero => exact .refl s
  | succ fuel ih =>
    unfold serveBacklogLoop
    split
    · exact .refl s
    · next k rest _ =>
      have placed : Sound s (tryPlace { s with acc := { s.acc with backlog := rest } } k false).1 :=
        .after (tryPlace_sound _ _ _) (.of_same rfl rfl rfl)
      exact .ite (fun _ => placed.trans (.of_same rfl rfl rfl)) fun _ => placed.trans (ih _)

theorem serveBacklog_sound (s : State) : Sound s (serveBacklog s) := serveBacklogLoop_sound _ s

theorem failFetch_sound (s : State) (i : SlotNo) (x : FetchSlot) : Sound s (failFetch s i x) := by
  unfold failFetch
  dsimp only
  have resolved (v : State) (ks : List Lookup) : Sound v (resolveUnavailable v ks) :=
    .foldl _ (fun s k => resolveLookup_sound s k _) ks v
  refine Sound.trans (.after (resolved _ _) ?_) (.of_same rfl rfl rfl)
  split
  · exact .of_same rfl rfl rfl
  · exact .ite (fun _ => .of_same rfl rfl rfl) fun _ => .of_same rfl rfl rfl

theorem resolveWaiter_sound (f : FrameNo) (x : List Entry) (s : State) (k : Lookup) : Sound s (resolveWaiter f x s k) := by
  have touched : Sound s (touchFrame s f) := .of_same rfl rfl rfl
  unfold resolveWaiter
  refine .ite (fun _ => resolveLookup_sound s k _) fun _ => ?_
  dsimp only
  split
  · exact touched.trans (resolveLookup_sound _ k _)
  · exact touched.trans (resolveLookup_sound _ k _)

theorem finishFill_sound (s : State) (i : SlotNo) (x : FetchSlot) (e : List Entry) : Sound s (finishFill s i x e) :=
  .after (serveBacklog_sound _) (.after (Sound.foldl _ (resolveWaiter_sound x.frame e) _ _) (.of_same rfl rfl rfl))

theorem applyBucketData_sound (s : State) (body : List Byte) : Sound s (applyBucketData s body) := by
  unfold applyBucketData
  split
  · exact .of_same rfl rfl rfl
  · refine .ite (fun _ => ?_) fun _ => .of_same rfl rfl rfl
    split
    · exact (failFetch_sound s _ _).trans (serveBacklog_sound _)
    · refine .ite (fun _ => ?_) fun _ => .ite (fun _ => ?_) fun _ => ?_
      · exact .after (serveBacklog_sound _) (.after (failFetch_sound _ _ _) (.of_same rfl rfl rfl))
      · exact .after (finishFill_sound _ _ _ _) (.ite (fun _ => .of_same rfl rfl rfl) fun _ => .of_same rfl rfl rfl)
      · exact .after (finishFill_sound _ _ _ _) (.of_same rfl rfl rfl)

/-! ### Characters -/

theorem placeChars_sound (chars : List Byte) (h : s.phaseIs l .connected = false) : Sound s (placeChars s l chars) :=
  fun _ i => placeChars_inv i h chars

/-- A change of the field buffers of a call in the dialogue, and the characters it sends. -/
theorem echoed_sound (apart : s.phaseIs l .connected = false) (chars : List Byte) (f : Call → Call)
    (h : ∀ c, (f c).phase = c.phase ∧ (f c).endCause = c.endCause ∧ (f c).attach = c.attach ∧
      (f c).slotHeld = c.slotHeld ∧ (f c).released = c.released ∧ (f c).txBuf = c.txBuf ∧ (f c).credit = c.credit) :
    Sound s (placeChars (s.modCall l f) l chars) := by
  have changed := Alike.modCall_plain s l f h
  exact .after (placeChars_sound chars (by rwa [changed.phaseIs])) changed.sound

theorem cleared_sound (apart : s.phaseIs l .connected = false) (slot : Fin 24) (f : Call → Call)
    (h : ∀ c, (f c).phase = c.phase ∧ (f c).endCause = c.endCause ∧ (f c).attach = c.attach ∧
      (f c).slotHeld = c.slotHeld ∧ (f c).released = c.released ∧ (f c).txBuf = c.txBuf ∧ (f c).credit = c.credit) :
    Sound s (placeText (s.modCall l f) l slot) := by
  have changed := Alike.modCall_plain s l f h
  exact .after (placeText_sound slot none (by rwa [changed.phaseIs])) changed.sound

theorem restartField_alike (s : State) (l : LineNo) : Alike s (restartField s l) :=
  .modCall_plain s l _ fun _ => ⟨rfl, rfl, rfl, rfl, rfl, rfl, rfl⟩

theorem name_apart (h : s.phaseIs l .name = true) : s.phaseIs l .connected = false := by
  obtain ⟨c, hc, p⟩ := phaseIs_iff.1 h
  exact notConnected hc (by simp [p])

theorem password_apart (h : s.phaseIs l .password = true) : s.phaseIs l .connected = false := by
  obtain ⟨c, hc, p⟩ := phaseIs_iff.1 h
  exact notConnected hc (by simp [p])

theorem nameCharacter_sound (h : s.phaseIs l .name = true) (c : Call) (ch : Byte) : Sound s (nameCharacter s l c ch) := by
  have restarted := restartField_alike s l
  have stays := (restarted.phaseIs l .name).trans h
  unfold nameCharacter
  dsimp only
  refine restarted.sound.trans ?_
  generalize restartField s l = v at stays
  have apart := name_apart stays
  have bell : Sound v (placeChars v l [chBEL]) := placeChars_sound _ apart
  refine .ite (fun _ => .ite (fun _ => placeText_sound 1 none apart) fun _ => ?password) fun _ => .ite (fun _ => .refl v) fun _ =>
    .ite (fun _ => .ite (fun _ => bell) fun _ => ?erase) fun _ => .ite (fun _ => ?clear) fun _ => .ite (fun _ => ?input) fun _ => bell
  case password =>
    intro cr i
    obtain ⟨d, hd, phase⟩ := phaseIs_iff.1 stays
    refine placeText_inv (dialogue_inv i hd id (.inl phase) _ (.inr (.inl rfl)) rfl rfl rfl rfl rfl) ?_ 2 none
    exact notConnected (c := { d with phase := .password, pwBuf := [] }) (by rw [State.callOn_modCall_self, hd]; rfl) (by simp)
  case erase => exact echoed_sound apart _ _ fun _ => ⟨rfl, rfl, rfl, rfl, rfl, rfl, rfl⟩
  case clear => exact cleared_sound apart 1 _ fun _ => ⟨rfl, rfl, rfl, rfl, rfl, rfl, rfl⟩
  case input => exact echoed_sound apart _ _ fun _ => ⟨rfl, rfl, rfl, rfl, rfl, rfl, rfl⟩

theorem endPassword_sound (h : s.phaseIs l .password = true) (c : Call) : Sound s (endPassword s l c) := by
  obtain ⟨d, hd, phase⟩ := phaseIs_iff.1 h
  have looks : Sound s (s.modCall l fun c => { c with phase := .lookup, fieldTimer := none }) := fun cr i =>
    dialogue_inv i hd id (.inr (.inl phase)) _ (.inr (.inr rfl)) rfl rfl rfl rfl rfl
  have waits : (s.modCall l fun c => { c with phase := .lookup, fieldTimer := none }).phaseIs l .lookup = true :=
    phaseIs_iff.2 ⟨{ d with phase := .lookup, fieldTimer := none }, by rw [State.callOn_modCall_self, hd]; rfl, rfl⟩
  exact .ite (fun _ => looks.trans (arriveLookup_sound _ _)) fun _ =>
    .after (endCall_sound _ l _) (looks.trans (placeText_sound 22 none (lookup_apart waits)))

theorem passwordCharacter_sound (h : s.phaseIs l .password = true) (c : Call) (ch : Byte) :
    Sound s (passwordCharacter s l c ch) := by
  have restarted := restartField_alike s l
  have stays := (restarted.phaseIs l .password).trans h
  unfold passwordCharacter
  dsimp only
  refine restarted.sound.trans ?_
  generalize restartField s l = v at stays
  have apart := password_apart stays
  have bell : Sound v (placeChars v l [chBEL]) := placeChars_sound _ apart
  refine .ite (fun _ => endPassword_sound stays c) fun _ => .ite (fun _ => .refl v) fun _ =>
    .ite (fun _ => .ite (fun _ => bell) fun _ => ?erase) fun _ => .ite (fun _ => ?clear) fun _ => .ite (fun _ => ?input) fun _ => bell
  case erase => exact Alike.sound (.modCall_plain v l _ fun _ => ⟨rfl, rfl, rfl, rfl, rfl, rfl, rfl⟩)
  case clear => exact cleared_sound apart 2 _ fun _ => ⟨rfl, rfl, rfl, rfl, rfl, rfl, rfl⟩
  case input => exact Alike.sound (.modCall_plain v l _ fun _ => ⟨rfl, rfl, rfl, rfl, rfl, rfl, rfl⟩)

theorem restartIdle_alike (s : State) (l : LineNo) : Alike s (restartIdle s l) :=
  .modCall_plain s l _ fun _ => ⟨rfl, rfl, rfl, rfl, rfl, rfl, rfl⟩

theorem connectedCharacter_sound (s : State) (l : LineNo) (c : Call) (ch : Byte) : Sound s (connectedCharacter s l c ch) := by
  have stored (v : State) : Sound v (v.modCall l fun c => appendBatch c ch) :=
    Alike.sound (.modCall_plain v l _ fun _ => ⟨rfl, rfl, rfl, rfl, rfl, rfl, rfl⟩)
  unfold connectedCharacter
  refine (restartIdle_alike s l).sound.trans (.ite (fun _ => Alike.sound ?_) fun _ => .ite (fun _ => ?_) fun _ => ?_)
  · exact .modCall_plain _ l _ fun _ => ⟨rfl, rfl, rfl, rfl, rfl, rfl, rfl⟩
  · exact .ite (fun _ => (stored _).trans (batchDue_safe _ l).sound) fun _ => stored _
  · exact (Alike.modCounters _ l _).sound

theorem connectedBreak_sound (s : State) (l : LineNo) (c : Call) : Sound s (connectedBreak s l c) := by
  have sent : Alike s (if attentionWaits (restartIdle s l) l c then restartIdle s l
      else (enqueuePriority (restartIdle s l) (callFrame (restartIdle s l) l .attention)).modCarriage l
        fun k => { k with attentions := bump k.attentions }) :=
    (restartIdle_alike s l).trans (.ite (fun _ => .refl _) fun _ =>
      (enqueuePriority_alike _ _).trans (.modCarriage _ l _))
  unfold connectedBreak
  refine .ite (fun _ => sent.sound.trans (.after (grantTest_safe _ l).sound (Alike.sound ?_))) fun _ => sent.sound
  exact .modCall_drained _ l _ fun _ => ⟨rfl, rfl, rfl, rfl, rfl, rfl, rfl⟩

theorem deliverCharacter_sound (s : State) (l : LineNo) (ch : Byte) : Sound s (deliverCharacter s l ch) := by
  unfold deliverCharacter
  split
  · exact .refl s
  · next c hc =>
    split
    · next p => exact nameCharacter_sound (phaseIs_iff.2 ⟨c, hc, p⟩) c ch
    · next p => exact passwordCharacter_sound (phaseIs_iff.2 ⟨c, hc, p⟩) c ch
    · exact connectedCharacter_sound s l c ch
    all_goals exact .refl s

theorem deliverBreak_sound (s : State) (l : LineNo) : Sound s (deliverBreak s l) := by
  have restarted := restartField_alike s l
  unfold deliverBreak
  split
  · exact .refl s
  · next c hc =>
    split
    · next p =>
      refine restarted.sound.trans (cleared_sound (name_apart ?_) 1 _ fun _ => ⟨rfl, rfl, rfl, rfl, rfl, rfl, rfl⟩)
      exact (restarted.phaseIs l .name).trans (phaseIs_iff.2 ⟨c, hc, p⟩)
    · next p =>
      refine restarted.sound.trans (cleared_sound (password_apart ?_) 2 _ fun _ => ⟨rfl, rfl, rfl, rfl, rfl, rfl, rfl⟩)
      exact (restarted.phaseIs l .password).trans (phaseIs_iff.2 ⟨c, hc, p⟩)
    · exact connectedBreak_sound s l c
    all_goals exact .refl s

theorem transmit_alike (s : State) (l : LineNo) (ch : Byte) : Alike s (transmit s l ch) := .modLine s l _ rfl rfl

theorem offerOutput_safe (s : State) (l : LineNo) : Safe s (offerOutput s l) := by
  unfold offerOutput
  split
  · exact .refl s
  · next c hc =>
    split
    · next f _ =>
      have taken : Alike s (transmit (s.modCall l fun c => { c with pendingFlow := none }) l (flowByte f)) :=
        .after (transmit_alike _ l _) (.modCall_plain s l _ fun _ => ⟨rfl, rfl, rfl, rfl, rfl, rfl, rfl⟩)
      cases f
      · exact taken.safe
      · unfold offerFlow
        exact Alike.safe (.after (.modCarriage (transmit _ l _) l _) taken)
    · refine .ite (fun _ => .refl s) fun _ => ?_
      unfold offerText
      split
      · refine Alike.safe (.after (transmit_alike _ l _) ?_)
        exact .modCall_plain s l _ fun _ => ⟨rfl, rfl, rfl, rfl, rfl, rfl, rfl⟩
      · split
        · refine Alike.safe (.after (transmit_alike _ l _) ?_)
          exact .modCall_plain s l _ fun _ => ⟨rfl, rfl, rfl, rfl, rfl, rfl, rfl⟩
        · split
          · next ch rest front =>
            refine .after (grantTest_safe _ l) (Alike.safe (.after (transmit_alike _ l _) ?_))
            refine .modCall s l _ fun d hd => ?_
            obtain rfl := Option.some.inj (hc.symm.trans hd)
            split
            all_goals exact ⟨rfl, rfl, rfl, rfl, rfl, by rw [front, List.length_cons]; dsimp only; omega, le_rfl⟩
          · exact .refl s

theorem acceptHostData_sound (hc : s.callOn l = some c) (connected : c.phase = .connected) (chars : List Byte) :
    Sound s (acceptHostData s l c chars) := fun cr i => by
  have counted := (Alike.modCarriage s l fun k => { k with
    hostData := bump k.hostData, excess := bumpBy k.excess (chars.length - (Config.transmitDepth - c.txBuf.length)) }).inv i
  have taken := counted.carriage ((State.callOn_modCarriage s l l _).trans hc) (fun d => { d with
    txBuf := d.txBuf ++ chars.take (Config.transmitDepth - c.txBuf.length), credit := d.credit - chars.length })
    rfl rfl rfl rfl rfl fun on => by
      have := (i.creditOf on hc).1
      refine ⟨?_, fun no => absurd connected no⟩
      simp only [List.length_append, List.length_take, Config.transmitDepth]
      omega
  unfold acceptHostData
  dsimp only
  split
  · refine (raiseFault_alike _ _ _ _ _ _).inv (Alike.inv (.modCall _ l _ fun d hd => ?_) taken)
    exact ⟨rfl, rfl, rfl, rfl, rfl, by dsimp only; omega, by dsimp only; omega⟩
  · exact taken

end Sys2Proof.Machine
end

section
namespace Sys2Proof.Machine

variable {cr : Prop} {T T' Q : LineNo → Prop} {s t u : State} {l : LineNo} {c : Call}

/-! ### The takes -/

theorem hli_sound (s : State) (x : Hli) : Sound s { s with hli := x } := .of_same rfl rfl rfl
theorem acc_sound (s : State) (x : Acc) : Sound s { s with acc := x } := .of_same rfl rfl rfl
theorem ctu_sound (s : State) (x : Ctu) : Sound s { s with ctu := x } := .of_same rfl rfl rfl
theorem sfu_sound (s : State) (x : Sfu) : Sound s { s with sfu := x } := .of_same rfl rfl rfl
theorem soe_sound (s : State) (x : Soe) : Sound s { s with soe := x } := .of_same rfl rfl rfl

theorem adm_alike (s : State) (x : Adm) (inUse : x.inUse = s.adm.inUse) (capacity : x.capacity = s.adm.capacity)
    (queues : x.queues = s.adm.queues) : Alike s { s with adm := x } :=
  ⟨fun _ => .of_eq rfl rfl, inUse, capacity, queues, rfl⟩

theorem bst_alike (s : State) (x : Bst) (held : x.held = s.bst.held) : Alike s { s with bst := x } :=
  ⟨fun _ => .of_eq rfl rfl, rfl, rfl, rfl, held⟩

theorem takeFrame_sound {code : Nat} {f : InFrame} (h : takeFrame s code = some (f, t)) : Sound s t := by
  obtain ⟨rest, -, -, -, ⟨-, -, rfl⟩ | ⟨-, rfl⟩⟩ := takeFrame_some h
  · exact hli_sound s _
  · exact hli_sound s _

theorem takeReplied_sound {code : Nat} {carry : InFrame → State → State × Answer} (h : ∀ f u, Sound u (carry f u).1)
    (s : State) : Sound s (takeReplied s code carry) := by
  unfold takeReplied
  split
  · exact .refl s
  · next f t ht =>
    exact .after (hli_sound _ _) (.after (h f _) ((takeFrame_sound ht).trans (hli_sound t _)))

theorem checked_sound {bad : Option Nat} {carry : State → State × Answer} (h : bad = none → ∀ u, Sound u (carry u).1)
    (s : State) : Sound s (checked bad s carry).1 := by
  cases bad
  · exact h rfl s
  · exact .refl s

theorem takeSession_sound {code : Nat} {accepts : Call → Bool} {carry : InFrame → LineNo → Call → State → State}
    (h : ∀ f l c u, u.callOn l = some c → accepts c = true → Sound u (carry f l c u)) (s : State) :
    Sound s (takeSession s code accepts carry) := by
  unfold takeSession
  split
  · exact .refl s
  · next f t ht =>
    refine (takeFrame_sound ht).trans ?_
    split
    · exact .of_same rfl rfl rfl
    · next c hc =>
      unfold sessionCall at hc
      split at hc
      · next d hd =>
        split at hc
        · next ok =>
          obtain rfl := Option.some.inj hc
          exact h f _ d t hd ok.2
        · simp at hc
      · simp at hc

/-! ### The host link and the service -/

theorem noCalls_whole (lines : ∀ l, (t.line l).call = none ∧ (t.line l).st = .idle) (adm : t.adm = Adm.powerOn)
    (bst : t.bst = Bst.powerOn) : Whole cr t where
  line l := .empty (lines l).1 (.inr (.inl (lines l).2))
  count := by
    have free : holdsSlot t = fun _ => false := funext fun l => holdsSlot_of_none (lines l).1
    simp [adm, Adm.powerOn, free]
  most := by simp [adm, Adm.powerOn]
  capacity := by simp [adm, Adm.powerOn]
  queued := by simp [adm, Adm.powerOn]
  held := by simp [bst, Bst.powerOn]
  once := by simp [bst, Bst.powerOn]

theorem powerOnState_whole (s : State) (rx : Receiver) : Whole cr (powerOnState s rx) :=
  noCalls_whole (fun l => by simp [powerOnState, Line.powerOn]) rfl rfl

theorem restartState_whole (s : State) : Whole cr (restartState s) :=
  noCalls_whole (fun l => by simp [restartState, Line.powerOn]) rfl rfl

theorem execRestart_sound {mode : RestartMode} (h : execRestart mode s = .next t) : Sound s t := by
  obtain rfl := Host.Outcome.next.inj h
  split
  · exact .refl s
  · next f u hu =>
    refine .ite (fun _ => (takeFrame_sound hu).trans (hli_sound u _)) fun _ => ?_
    exact .after (hli_sound _ _) fun _ _ => restartState_whole u

theorem execInboundFrameEnd_sound {bytes : List Byte} (h : execInboundFrameEnd bytes s = .next t) : Sound s t := by
  obtain rfl := Host.Outcome.next.inj h
  split
  · exact .refl s
  · unfold endFrame
    dsimp only
    split
    · exact .after (raiseFault_alike _ _ _ _ _ _).sound (hli_sound s _)
    · exact hli_sound s _
  · exact .after (raiseFault_alike _ _ _ _ _ _).sound (hli_sound s _)
  · exact hli_sound s _

theorem execFrameMalformed_sound (h : execFrameMalformed s = .next t) : Sound s t := by
  obtain rfl := Host.Outcome.next.inj h
  split
  · exact .refl s
  · refine .ite (fun _ => ?_) fun _ => .refl s
    exact .ite (fun _ => .after (raiseFault_alike _ _ _ _ _ _).sound (hli_sound s _))
      fun _ => .after (raiseFault_alike _ _ _ _ _ _).sound (hli_sound s _)

theorem refillOrdered_sound (s : State) : Sound s (refillOrdered s) := by
  unfold refillOrdered
  split
  · exact .refl s
  · exact .after (enqueueOrdered_alike _ _).sound (hli_sound s _)

theorem execTransmissionStart_sound {requestFirst : Bool} (h : execTransmissionStart requestFirst s = .next t) :
    Sound s t := by
  obtain rfl := Host.Outcome.next.inj h
  refine .ite (fun _ => .refl s) fun _ => ?_
  split
  · exact hli_sound s _
  · split
    · have refilled (x : Hli) : Sound s (refillOrdered { s with hli := x }) := (hli_sound s x).trans (refillOrdered_sound _)
      exact .ite (fun _ => (refilled _).trans (serveForward_safe _).sound) fun _ => refilled _
    · exact .refl s

theorem closedTransmitted_sound (s : State) (l : LineNo) (n : Nat) : Sound s (closedTransmitted s l n) := by
  unfold closedTransmitted
  split
  · exact .refl s
  · next c hc =>
    refine .ite (fun ok => ?_) fun _ => .refl s
    intro cr i
    have call := releaseSlot_callOn i id (l := l) (by simp [State.phaseIs, hc, ok.2.1])
    rw [hc] at call
    exact closeOut_inv (releaseSlot_inv i id) id call ok.2.1 rfl

theorem execFrameTransmitted_sound (h : execFrameTransmitted s = .next t) : Sound s t := by
  obtain rfl := Host.Outcome.next.inj h
  split
  · exact .refl s
  · have idle := hli_sound s { s.hli with tx := none }
    dsimp only
    split
    · exact .ite (fun _ => idle.trans (closedTransmitted_sound _ _ _)) fun _ => idle
    · exact idle

/-- A line in OFF, IDLE, RING or ANSWER has no call (R31). -/
theorem Inv.noCall (i : Inv cr T Q s) (st : (s.line l).st = .off ∨ (s.line l).st = .idle ∨ (s.line l).st = .ring ∨
    (s.line l).st = .answer) (n : ¬ T l) : s.callOn l = none := by
  cases hc : s.callOn l with
  | none => rfl
  | some c =>
    have fits := i.fitsOf n hc
    rcases st with st | st | st | st
    all_goals
      unfold phaseFits at fits
      split at fits <;> simp [st] at fits

theorem leaveOpenLine_sound (s : State) (l : LineNo) : Sound s (leaveOpenLine s l) := fun cr i => by
  unfold leaveOpenLine
  split
  · next st =>
    have none := i.noCall (l := l) (by simp [st]) id
    exact i.bare none _ none (by simp [Line.fits, show (s.line l).call = Option.none from none])
  · next st =>
    have none := i.noCall (l := l) (by simp [st]) id
    exact dropBare_inv i (fun _ _ => .rfl) id (by simp [none])
  · exact i

theorem openService_sound (s : State) : Sound s (openService s).1 := by
  unfold openService
  split
  · exact .refl s
  · exact sfu_sound s _
  · split
    · exact sfu_sound s _
    · exact .refl s

theorem filter_nodup (p : LineNo → Bool) : (allLines.filter p).Nodup := allLines_nodup.filter p

theorem closeService_sound (s : State) (mode : CloseMode) : Sound s (closeService s mode).1 := by
  unfold closeService
  split
  · exact .refl s
  · have left : Sound s (if s.sfu.service = .opened then allLines.foldl leaveOpenLine s else s) :=
      .ite (fun _ => .foldl _ leaveOpenLine_sound _ s) fun _ => .refl s
    refine .after (haltIfDone_alike _).sound (.after (endAll_safe _ (filter_nodup _) _).sound ?_)
    exact left.trans (sfu_sound _ _)

theorem clearCounters_alike (s : State) : Alike s (clearCounters s) :=
  ⟨fun l => .of_eq (by simp [clearCounters]) (by simp [clearCounters]), rfl, rfl, rfl, rfl⟩

theorem produceSurvey_sound (s : State) : Sound s (produceSurvey s) :=
  .ite (fun _ => .refl s) fun _ => (enqueuePriority_alike s _).sound

theorem setSurvey_sound (s : State) (lines : List LineNo) (period : Interval) : Sound s (setSurvey s lines period) :=
  .ite (fun _ => .of_same rfl rfl rfl) fun _ => .after (produceSurvey_sound _) (sfu_sound s _)

/-! ### The billing store -/

/-- Held calls are placed from the head of their order: each is in HELD, and holds no slot (R178). -/
theorem placeHeld_inv (held : List LineNo) (i : Whole cr s) (h : s.bst.held = held) : Whole cr (placeHeld held s).1 := by
  induction held generalizing s with
  | nil => exact i
  | cons l rest ih =>
    unfold placeHeld
    split
    · obtain ⟨out, once⟩ := List.nodup_cons.1 (h ▸ i.once)
      have popped : Whole cr { s with bst := { s.bst with held := rest } } :=
        { i with once := once, held := fun m hm => i.held m (by simp [h, hm]) }
      refine ih (placeRecord_inv popped id fun c hc => ?_) (placeRecord_bst _ l).1
      have phase : c.phase = .held := by
        have := i.held l (by simp [h])
        have hc : s.callOn l = some c := hc
        simpa [State.phaseIs, hc] using this
      refine ⟨?_, .inr ⟨phase, out⟩⟩
      by_contra slot
      have := ((i.line l).flag c hc (by simpa using slot)).2
      simp [phase] at this
    · exact i

theorem releasePins_alike (s : State) (a : FrameNo × EntryNo) : Alike s (releasePins s a) := by
  have swept (u : State) : Alike u (sweepEntry u a) := by
    unfold sweepEntry
    split
    · exact .ite (fun _ => .of_same rfl rfl rfl) fun _ => .refl u
    · exact .refl u
  have unpinned : Alike s (sweepEntry ((s.modEntry a fun e => { e with stored := e.stored - 1 }).modFrame a.1
      fun x => { x with pins := x.pins - 1 }) a) := .after (swept _) (.of_same rfl rfl rfl)
  exact .ite (fun _ => unpinned.trans (.of_same rfl rfl rfl)) fun _ => unpinned

theorem Alike.foldl {α : Type} (f : State → α → State) (h : ∀ s a, Alike s (f s a)) (xs : List α) (s : State) :
    Alike s (xs.foldl f s) := by
  induction xs generalizing s with
  | nil => exact .refl s
  | cons x xs ih => exact (h s x).trans (ih _)

theorem releaseRecords_sound (number : Nat) (s : State) : Sound s (releaseRecords s number).1 := by
  unfold releaseRecords
  split
  · exact .refl s
  · next i _ =>
    rw [removeRecords_eq_take]
    have removed : Alike s (withoutRecords s (s.bst.store.take (i + 1)) (s.bst.store.drop (i + 1))) :=
      .after (.foldl _ (fun s (r : BillRecord) => releasePins_alike s r.entry) _ _) (bst_alike s _ rfl)
    exact fun cr whole => placeHeld_inv _ (removed.inv whole) rfl

/-! ### Lines -/

theorem changeFlow_alike (c : Call) (on : Bool) : CallAlike c (changeFlow c on) := by
  unfold changeFlow
  split
  · exact .refl c
  · dsimp only
    split
    all_goals exact ⟨rfl, rfl, rfl, rfl, rfl, le_rfl, le_rfl⟩

theorem setLineSettings_sound (s : State) (l : LineNo) (x : LineSettings) : Sound s (setLineSettings s l x) :=
  Alike.sound (.after (.modCall _ l _ fun c _ => changeFlow_alike c _) (.modLine s l _ rfl rfl))

theorem enableLine_sound (s : State) (l : LineNo) : Sound s (enableLine s l) := fun cr i => by
  unfold enableLine
  split
  · next st =>
    have none := i.noCall (l := l) (by simp [st]) id
    exact i.bare none _ none (by simp [Line.fits, show (s.line l).call = Option.none from none])
  · exact i

theorem bareOff_sound (s : State) (l : LineNo) : Sound s (bareOff s l) := by
  unfold bareOff
  refine .ite (fun none => ?_) fun _ => .refl s
  have off : Sound s (goOff s l) := fun _ i => goOff_inv i none
  split
  · exact off
  · exact off
  · exact off
  · exact off
  · exact .refl s
  · exact .refl s
  · exact .refl s
  · exact .refl s

theorem disableLine_sound (s : State) (l : LineNo) (mode : DisableMode) : Sound s (disableLine s l mode) := by
  unfold disableLine
  split
  · exact bareOff_sound s l
  · have marked : Alike s (s.modLine l fun x => { x with disablePending := true }) := .modLine s l _ rfl rfl
    cases mode
    · exact marked.sound.trans (endCall_sound _ l _)
    · exact marked.sound

theorem setFitted_sound (s : State) (n : Nat) : Sound s (setFitted s n) := by
  have fitted : Sound s { s with fitted := n } := .of_same rfl rfl rfl
  refine .ite (fun _ => fitted.trans ?_) fun _ => fitted
  exact .after (endAll_safe _ (filter_nodup _) _).sound (.foldl _ bareOff_sound _ _)

/-- A call is created on a line that had none, in the state that its phase goes with (R20, R31). -/
theorem created_inv {v : State} (i : Inv cr T Q s) (none : s.callOn l = none) (others : ∀ m, m ≠ l → v.line m = s.line m)
    (adm : v.adm = s.adm) (bst : v.bst = s.bst) (p : Phase) (sp : Option Speed) (k : CallSettings)
    (fits : (p = .speed ∧ (v.line l).st = .speed) ∨ (p = .name ∧ (v.line l).st = .up)) :
    Inv cr T Q (createCall v l p sp k) := by
  have n := i.notTransit none
  refine i.replace l (holdsSlot_of_none none) (by simp [State.phaseIs, none]) (fun h => ?_) (fun m e => ?_) adm
    (congrArg Bst.held bst) (createCall_free _ l _ _ _) ?_
  · have := i.held l h
    simp [State.phaseIs, none] at this
  · rw [(createCall_local v l p sp k).others m e, others m e]
  · rw [eq_false n]
    exact .created sp k fits

theorem carrierInAnswer_sound (st : (s.line l).st = .answer) (dataLow : Bool) : Sound s (carrierInAnswer s l dataLow) :=
  fun cr i => by
  have none := i.noCall (l := l) (by simp [st]) id
  unfold carrierInAnswer
  dsimp only
  split
  · refine created_inv i none (fun m e => ?_) ?_ ?_ _ _ _ (.inl ⟨rfl, ?_⟩)
    · simp [e]
    · rfl
    · rfl
    · simp
  · next v _ =>
    have made := created_inv i none (v := (s.modLine l fun x => { x with
      answerWait := Option.none, carrier := true, rxLow := dataLow, zeroHeld := false }).modLine l fun x => { x with
        st := .up, rxWait := false }) (fun m e => by simp [e]) rfl rfl .name (some v)
      (s.line l).settings.toCallSettings (.inr ⟨rfl, by simp⟩)
    exact startDialogue_inv (enterName_inv made (createCall_callOn _ l _ _ _) id (.inl rfl))

theorem enterAnswer_sound (h : s.callOn l = none) (dataLow : Bool) : Sound s (enterAnswer s l dataLow) := by
  have entered : Sound s ((s.modLine l fun x => { x with
      st := .answer, ringCount := 0, ringGap := none, answerWait := startTimerAtLeastOne x.settings.answerWait }).modCounters l
        fun k => { k with answers := bump k.answers }) := .after (Alike.modCounters _ l _).sound fun _ i =>
    i.bare h _ h (by simp [Line.fits, show (s.line l).call = none from h])
  exact .ite (fun _ => entered.trans (carrierInAnswer_sound (by simp) dataLow)) fun _ => entered

theorem countRing_sound (h : s.callOn l = none) (dataLow : Bool) (n : Nat) : Sound s (countRing s l dataLow n) := by
  have counted : Sound s ((s.modLine l fun x => { x with
      st := .ring, ringCount := n, ringGap := some Config.ringGapSeconds, rxLow := dataLow }).modCounters l
        fun k => { k with rings := bump k.rings }) := .after (Alike.modCounters _ l _).sound fun _ i =>
    i.bare h _ h (by simp [Line.fits, show (s.line l).call = none from h])
  exact .ite (fun _ => counted.trans (enterAnswer_sound (by simpa [State.callOn_eq] using h) dataLow)) fun _ => counted

theorem execRing_sound {rise : LineRise} (h : execRing rise s = .next t) : Sound s t := by
  obtain rfl := Host.Outcome.next.inj h
  refine .ite (fun _ => .refl s) fun _ => fun cr i => ?_
  split
  · next st =>
    have none := i.noCall (l := rise.line) (by simp [st]) id
    exact Sound.ite (fun _ => countRing_sound none _ _) (fun _ => .refl s) cr i
  · next st => exact countRing_sound (i.noCall (l := rise.line) (by simp [st]) id) _ _ cr i
  all_goals exact i

theorem failAttempt_sound (s : State) (l : LineNo) : Sound s (failAttempt s l) := by
  have counted : Sound s ((s.modLine l fun x => { x with attempts := x.attempts + 1 }).modCounters l
      fun k => { k with autobaudFailures := bump k.autobaudFailures }) :=
    Alike.sound (.after (.modCounters _ l _) (.modLine s l _ rfl rfl))
  exact .ite (fun _ => counted.trans (endCall_sound _ l _)) fun _ => counted

end Sys2Proof.Machine
end

section
namespace Sys2Proof.Machine

variable {cr : Prop} {T T' Q : LineNo → Prop} {s t u : State} {l : LineNo} {c : Call}

/-! ### Speed, carrier and the transmitter -/

theorem modLine_modLine (s : State) (l : LineNo) (f g : Line → Line) :
    (s.modLine l f).modLine l g = s.modLine l fun x => g (f x) := by simp [State.modLine]

/-- A call in SPEED takes its speed and enters NAME, its line in UP (R40). -/
theorem acceptSpeed_sound (st : (s.line l).st = .speed) (v : Speed) : Sound s (acceptSpeed s l v) := fun cr i => by
  refine startDialogue_inv ?_
  unfold enterName State.modCall
  rw [modLine_modLine, modLine_modLine]
  have fits := (i.line l).fits id
  have phase (c : Call) (hc : (s.line l).call = some c) : c.phase = .speed ∧ c.endCause.isNone = true ∧ c.slotHeld = false := by
    have fits := i.fitsOf id hc
    have speed : c.phase = .speed ∧ c.endCause.isNone = true := by
      unfold phaseFits at fits
      split at fits <;> simp [st] at fits
      exact ⟨‹_›, by simpa using fits⟩
    refine ⟨speed.1, speed.2, ?_⟩
    by_contra held
    have := ((i.line l).flag c hc (by simpa using held)).2
    simp [speed.1] at this
  cases hc : (s.line l).call with
  | none => simp [Line.fits, hc, st] at fits
  | some c =>
    obtain ⟨speed, going, free⟩ := phase c hc
    refine i.modLine l _ (fun _ _ => .rfl) ?_ (by simp [hc]) ?_ ?_
    · refine .of_call (c := { c with
        speed := some v, phase := .name, nameBuf := [], pwBuf := [], fieldTimer := startTimer s.soe.fieldTimeout })
        (by simp [hc]) (by simpa [phaseFits] using going) (by simp [free]) (by simp) (fun _ _ => ?_) fun on => ?_
      · exact (i.line l).unattached id c hc (.inl speed)
      · obtain ⟨room, zero⟩ := i.creditOf on (l := l) hc
        exact ⟨room, fun _ => zero (by simp [speed])⟩
    · simp [State.phaseIs, State.callOn_eq, hc, speed]
    · simp [State.phaseIs, State.callOn_eq, hc, speed]

theorem takeWidth_sound (st : (s.line l).st = .speed) (w : Nat) : Sound s (takeWidth s l w) := by
  have noted : Sound s (s.modLine l fun x => { x with lastWidth := w }) := Alike.sound (.modLine s l _ rfl rfl)
  unfold takeWidth
  dsimp only
  split
  · exact noted.trans (acceptSpeed_sound (by simpa using st) _)
  · exact noted.trans (failAttempt_sound _ l)

theorem execReceiveDataRise_sound {l : LineNo} (h : execReceiveDataRise l s = .next t) : Sound s t := by
  obtain rfl := Host.Outcome.next.inj h
  have risen : Alike s (s.modLine l fun x => { x with rxWait := false, rxLow := false, zeroHeld := false }) :=
    .modLine s l _ rfl rfl
  exact .ite (fun _ => Alike.sound (risen.trans (.modCounters _ l _))) fun _ => risen.sound

/-- The call of a line that is connected stays with its line between UP and FADE (Table 3.1). -/
theorem fade_inv (i : Inv cr T Q s) (n : ¬ T l) (hc : s.callOn l = some c) (phase : c.phase = .connected) (f : Line → Line)
    (st : (f (s.line l)).st = .up ∨ (f (s.line l)).st = .fade) (call : (f (s.line l)).call = (s.line l).call) :
    Inv cr T Q (s.modLine l f) := by
  have same : (s.line l).call = some c := hc
  have ok := i.line l
  have fits := i.fitsOf n hc
  have going : c.endCause.isNone = true := by
    simp only [phaseFits, phase, Bool.and_eq_true] at fits
    exact fits.2
  refine i.modLine l f (fun _ _ => .rfl) ?_ (by rw [call]) ?_ ?_
  · rw [eq_false n]
    refine .of_call (call.trans same) ?_ (ok.flag c hc) (ok.attached c hc) (fun m => ok.unattached m c hc) fun on => ?_
    · rcases st with st | st <;> simp [phaseFits, phase, going, st]
    · exact i.creditOf on hc
  · simp [State.phaseIs, hc, phase]
  · simp [State.phaseIs, hc, phase]

theorem countCarrierLoss_alike (s : State) (l : LineNo) : Alike s (countCarrierLoss s l) :=
  .after (.modCounters _ l _) (.modLine s l _ rfl rfl)

theorem enterFade_sound (hc : s.callOn l = some c) (phase : c.phase = .connected) (i : Interval) :
    Sound s (enterFade s l i) := by
  have faded : Sound s (s.modLine l fun x => { x with
      st := .fade, holdover := startTimer i, rxWait := false, zeroHeld := false }) := fun _ w =>
    fade_inv w id hc phase _ (.inr rfl) rfl
  refine faded.trans (Alike.sound (.after (.modCall_plain _ l _ fun _ => ?_) (.modCounters _ l _)))
  exact ⟨rfl, rfl, rfl, rfl, rfl, rfl, rfl⟩

/-- A call with an end cause is in ENDING, or in HELD (R24). -/
theorem Inv.overOf (i : Inv cr T Q s) (n : ¬ T l) (hc : s.callOn l = some c) (isOver : c.endCause.isSome = true) :
    c.phase = .ending ∨ c.phase = .held := by
  have fits := i.fitsOf n hc
  have ended : c.endCause.isNone = false := by simpa using isOver
  unfold phaseFits at fits
  split at fits <;> simp_all

theorem loseCarrier_sound (s : State) (l : LineNo) : Sound s (loseCarrier s l) := fun cr i => by
  unfold loseCarrier
  split
  · next none => exact dropBare_inv i (fun _ _ => .rfl) id (by simp [none])
  · next c hc =>
    split
    · next isOver =>
      refine dropLine_inv i (fun _ _ => .rfl) id fun d hd => ?_
      obtain rfl := Option.some.inj (hc.symm.trans hd)
      exact ⟨i.overOf id hc isOver, isOver⟩
    · exact Sound.ite (fun test => enterFade_sound hc test.1 _) (fun _ => (endCallLost_safe s l _).sound) cr i

theorem execCarrierLoss_sound {l : LineNo} (h : execCarrierLoss l s = .next t) : Sound s t := by
  obtain rfl := Host.Outcome.next.inj h
  have charged := (completeStep_safe endCall_safe s l).sound
  have recorded (u : State) : Sound u (u.modLine l fun x => { x with carrier := false }) := Alike.sound (.modLine u l _ rfl rfl)
  split
  all_goals refine charged.trans ?_
  · exact (countCarrierLoss_alike _ l).sound.trans (loseCarrier_sound _ l)
  · exact (countCarrierLoss_alike _ l).sound.trans (loseCarrier_sound _ l)
  · exact (countCarrierLoss_alike _ l).sound
  all_goals exact recorded _

theorem chargeFade_sound (s : State) (l : LineNo) : Sound s (chargeFade s l) := by
  unfold chargeFade
  split
  · exact .refl s
  · next c _ =>
    have counted : Alike s (s.modCall l fun d => { d with meter := { d.meter with
        connectSecs := d.meter.connectSecs + c.meter.fadeSecs, fadeSecs := 0 } }) :=
      .modCall_plain s l _ fun _ => ⟨rfl, rfl, rfl, rfl, rfl, rfl, rfl⟩
    exact .after (chargeUnitSeconds_safe endCall_safe _ l _).sound (Alike.sound (counted.trans (.of_same rfl rfl rfl)))

theorem returnCarrier_sound (st : (s.line l).st = .fade) (dataLow : Bool) : Sound s (returnCarrier s l dataLow) := by
  have returned : Sound s (s.modLine l fun x => { x with
      st := .up, carrier := true, rxLow := dataLow, holdover := none, rxWait := false, zeroHeld := false }) := fun cr i => by
    have fits := (i.line l).fits id
    cases hc : (s.line l).call with
    | none => simp [Line.fits, hc, st] at fits
    | some c =>
      have fits := i.fitsOf (l := l) id hc
      have phase : c.phase = .connected := by
        unfold phaseFits at fits
        split at fits <;> simp_all
      exact fade_inv i id hc phase _ (.inl rfl) rfl
  exact .after (chargeFade_sound _ l) (returned.trans (Alike.modCounters _ l _).sound)

theorem raiseCarrier_sound (s : State) (l : LineNo) (dataLow : Bool) : Sound s (raiseCarrier s l dataLow) := by
  have recorded : Sound s (s.modLine l fun x => { x with carrier := true, rxLow := dataLow }) :=
    Alike.sound (.modLine s l _ rfl rfl)
  unfold raiseCarrier
  split
  · next st => exact carrierInAnswer_sound st dataLow
  · next st => exact returnCarrier_sound st dataLow
  · exact recorded
  · exact recorded
  · exact recorded
  · exact recorded
  · exact .refl s
  · exact .refl s

theorem execDropGuardPassed_sound {l : LineNo} (h : execDropGuardPassed l s = .next t) : Sound s t := by
  obtain rfl := Host.Outcome.next.inj h
  have passed : Sound s (s.modLine l fun x => { x with dropGuard := none }) := Alike.sound (.modLine s l _ rfl rfl)
  exact .ite (fun _ => .ite (fun none => passed.trans fun _ i => leaveDrop_inv i none) fun _ => passed) fun _ => .refl s

theorem execReceivedCharacter_sound {l : LineNo} {bits : Byte} {parity stop : Bool}
    (h : execReceivedCharacter l bits parity stop s = .next t) : Sound s t := by
  obtain rfl := Host.Outcome.next.inj h
  have line (f : Line → Line) (st : ∀ x, (f x).st = x.st) (call : ∀ x, (f x).call = x.call) : Alike s (s.modLine l f) :=
    .modLine s l f (st _) (call _)
  split
  · exact .refl s
  · refine .ite (fun _ => .ite (fun _ => ?_) fun _ => ?_) fun _ => .refl s
    · refine (line (fun x => { x with rxLow := false }) (fun _ => rfl) fun _ => rfl).sound.trans ?_
      exact .ite (fun _ => .after (deliverCharacter_sound _ l _) (Alike.modCounters _ l _).sound)
        fun _ => deliverCharacter_sound _ l _
    · exact .ite (fun _ => Alike.sound (.modLine s l _ rfl rfl)) fun _ =>
        Alike.sound (.after (.modCounters _ l _) (line (fun x => { x with rxLow := true }) (fun _ => rfl) fun _ => rfl))

theorem execTransmitterFree_sound {l : LineNo} (h : execTransmitterFree l s = .next t) : Sound s t := by
  obtain rfl := Host.Outcome.next.inj h
  have freed : Sound s (s.modLine l fun x => { x with txChar := none }) := Alike.sound (.modLine s l _ rfl rfl)
  exact .ite (fun _ => .after (fun _ i => drainCheck_inv i id) (freed.trans (offerOutput_safe _ l).sound)) fun _ => freed

/-! ### Admission, the calendar and the clock -/

theorem startAnnouncement_alike (period : Interval) (s : State) (l : LineNo) : Alike s (startAnnouncement period s l) :=
  .modCall_plain s l _ fun c => by split <;> exact ⟨rfl, rfl, rfl, rfl, rfl, rfl, rfl⟩

theorem setClass_sound (s : State) (k : ClassNo) (r : ClassRecord) : Sound s (setClass s k r).1 := by
  have replaced : Alike s { s with adm := { s.adm with classes := s.adm.classes.set k r } } := adm_alike s _ rfl rfl rfl
  have announced (p : Prop) [Decidable p] : Alike s (if p then (s.adm.queues[k]).foldl (startAnnouncement r.announce)
      { s with adm := { s.adm with classes := s.adm.classes.set k r } }
      else { s with adm := { s.adm with classes := s.adm.classes.set k r } }) :=
    .ite (fun _ => replaced.trans (.foldl _ (startAnnouncement_alike _) _ _)) fun _ => replaced
  unfold setClass
  dsimp only
  split
  · exact (announced _).sound
  · exact (announced _).sound.trans fun _ i => runArbiter_inv i

/-- The check of CAPACITY SET lets at most 32 pass (R100). -/
theorem capacitySetBad_none {n r : Nat} {w : Interval} (h : capacitySetBad n r w = none) : n ≤ 32 := by
  unfold capacitySetBad at h
  by_contra big
  simp [firstBad, big] at h

theorem setCapacity_sound {n : Nat} (h : n ≤ 32) (s : State) (r : Nat) (w : Interval) : Sound s (setCapacity s n r w).1 := by
  have set : Sound s { s with adm := { s.adm with capacity := n, reserve := r, openWait := w } } := fun cr i =>
    { line := i.line, count := i.count, most := i.most, capacity := h, queued := i.queued, held := i.held, once := i.once }
  exact set.trans fun _ i => runArbiter_inv i

/-- A call in OPENING is connected (R110). -/
theorem connect_inv (i : Whole cr s) (hc : s.callOn l = some c) (opening : c.phase = .opening) (f : Call → Call)
    (same : (f c).phase = .connected ∧ (f c).endCause = c.endCause ∧ (f c).attach = c.attach ∧
      (f c).slotHeld = c.slotHeld ∧ (f c).txBuf = c.txBuf ∧ (f c).credit = c.credit) : Whole cr (s.modCall l f) := by
  obtain ⟨phase, endCause, attach, slotHeld, txBuf, credit⟩ := same
  have call : (s.line l).call = some c := hc
  have fits : (s.line l).st = .up ∧ c.endCause.isNone = true := by
    simpa [phaseFits, opening] using i.fitsOf id hc
  have attached := (i.line l).attached c hc (.inr opening)
  refine i.modLine l _ (fun _ _ => .rfl) ?_ (by simp [call, slotHeld]) ?_ ?_
  · refine .of_call (c := f c) (by simp [call]) ?_ (fun _ => ⟨attach ▸ attached, .inr (.inl phase)⟩) (by simp [phase])
      (by simp [phase]) fun on => ?_
    · simp [phaseFits, phase, fits, endCause]
    · rw [txBuf, credit]
      exact ⟨(i.creditOf on hc).1, fun n => absurd phase n⟩
  · simp [State.phaseIs, hc, opening]
  · simp [State.phaseIs, hc, opening]

theorem startConnected_sound (s : State) (l : LineNo) : Sound s (startConnected s l) := by
  have warned : Sound s (warnAtConnect s l) := by
    unfold warnAtConnect
    split
    · exact .ite (fun _ => (warnCall_safe s l).sound) fun _ => .refl s
    · exact .refl s
  refine .ite (fun _ => .after (grantTest_safe _ l).sound (warned.trans (Alike.sound ?_))) fun _ => .refl s
  exact .after (.modCall_plain _ l _ fun _ => ⟨rfl, rfl, rfl, rfl, rfl, rfl, rfl⟩) (startStep_alike _ l)

theorem chargeFee_sound (s : State) (l : LineNo) (k : ClassNo) : Sound s (chargeFee s l k) := by
  refine .after (evaluateCall_safe endCall_safe _ l).sound (Alike.sound (.after (addUnits_alike _ l _) ?_))
  exact .modCall_plain s l _ fun _ => ⟨rfl, rfl, rfl, rfl, rfl, rfl, rfl⟩

theorem acceptCall_sound (hc : s.callOn l = some c) (opening : c.phase = .opening) : Sound s (acceptCall s l c) := by
  have cleared := (clearOpen_alike s l).sound
  have call : (clearOpen s l).callOn l = some { c with openOutstanding := false, openWait := none } := by
    rw [clearOpen, State.callOn_modCall_self, hc]
    rfl
  unfold acceptCall
  refine .after (startConnected_sound _ l) (.after (chargeFee_sound _ l _) (.after (queueNotice_alike _ l 10 none).sound ?_))
  refine cleared.trans fun _ i => connect_inv i call opening _ ⟨rfl, rfl, rfl, rfl, rfl, rfl⟩

theorem closeLate_sound (s : State) (l : LineNo) : Sound s (closeLate s l) := by
  refine .after (settle_safe _ l).sound (Alike.sound (.after ?_ (clearOpen_alike s l)))
  exact .modCall_plain _ l _ fun _ => ⟨rfl, rfl, rfl, rfl, rfl, rfl, rfl⟩

theorem lowerCapacity_inv (i : Inv cr T Q s) : Inv cr T Q (lowerCapacity s) :=
  { line := i.line, count := i.count, most := i.most, queued := i.queued, held := i.held, once := i.once
    capacity := (min_le_left _ _).trans i.capacity }

theorem noteFull_alike (s : State) (l : LineNo) (n : Nat) : Alike s (noteFull s l n) :=
  .after (raiseFault_alike _ _ _ _ _ _) (adm_alike s _ rfl rfl rfl)

theorem countDenial_alike (s : State) : Alike s (countDenial s) := adm_alike s _ rfl rfl rfl

theorem noteOpenTimeout_alike (s : State) (l : LineNo) (c : Call) : Alike s (noteOpenTimeout s l c) :=
  .after (raiseFault_alike _ _ _ _ _ _) (adm_alike s _ rfl rfl rfl)

theorem refuseFull_sound (hc : s.callOn l = some c) (opening : c.phase = .opening) : Sound s (refuseFull s l c) := fun cr i => by
  have attached := (i.line l).attached c hc (.inr opening)
  have cleared := lowerCapacity_inv (clearSlot_inv (l := l) ((clearOpen_alike s l).inv i) id)
  have call : (lowerCapacity (clearSlot (clearOpen s l) l)).callOn l =
      some { c with openOutstanding := false, openWait := none, slotHeld := false } := by
    have : (clearSlot (clearOpen s l) l).callOn l =
        some { c with openOutstanding := false, openWait := none, slotHeld := false } := by
      rw [clearSlot_callOn, clearOpen, State.callOn_modCall_self, hc]
      rfl
    exact this
  unfold refuseFull
  dsimp only
  generalize lowerCapacity (clearSlot (clearOpen s l) l) = v at cleared call
  refine (noteFull_alike _ l _).inv (runArbiter_inv ?_)
  split
  · exact endCall_safe v l _ _ _ _ cleared
  · exact joinHead_inv (cleared.weaken fun _ f => f.elim) id ⟨call, .inr (.inr opening), attached, rfl⟩ _

theorem refuseDenied_sound (s : State) (l : LineNo) : Sound s (refuseDenied s l) := fun _ i =>
  endCall_safe _ l _ _ _ _ ((countDenial_alike _).inv (releaseSlot_inv ((clearOpen_alike s l).inv i) id))

theorem refuseLate_sound (s : State) (l : LineNo) (c : Call) (reason : RefuseReason) : Sound s (refuseLate s l c reason) := by
  intro cr i
  have cleared := (clearOpen_alike s l).inv i
  cases reason
  · exact settle_safe _ l _ _ _
      ((noteFull_alike _ l _).inv (runArbiter_inv (lowerCapacity_inv (clearSlot_inv (l := l) cleared id))))
  · exact settle_safe _ l _ _ _ ((countDenial_alike _).inv (releaseSlot_inv cleared id))

theorem execQueueWaitExpiry_sound {l : LineNo} (h : execQueueWaitExpiry l s = .next t) : Sound s t := by
  obtain rfl := Host.Outcome.next.inj h
  split
  · exact .refl s
  · exact .ite (fun _ => .after (endCall_sound _ l _) (Alike.sound (adm_alike s _ rfl rfl rfl))) fun _ => .refl s

theorem execAnnouncementTimerExpiry_sound {l : LineNo} (h : execAnnouncementTimerExpiry l s = .next t) : Sound s t := by
  obtain rfl := Host.Outcome.next.inj h
  split
  · exact .refl s
  · next c hc =>
    refine .ite (fun test => ?_) fun _ => .refl s
    refine .after (Alike.sound (.modCall_plain _ l _ fun _ => ?_)) (placeText_sound 9 _ (notConnected hc (by simp [test.1])))
    exact ⟨rfl, rfl, rfl, rfl, rfl, rfl, rfl⟩

theorem execOpenWaitExpiry_sound {l : LineNo} (h : execOpenWaitExpiry l s = .next t) : Sound s t := by
  obtain rfl := Host.Outcome.next.inj h
  split
  · exact .refl s
  · refine .ite (fun _ => .refl s) fun _ => .ite (fun _ => ?_) fun _ => .ite (fun _ => ?_) fun _ => .refl s
    · exact .after (noteOpenTimeout_alike _ l _).sound (.after (endCall_sound _ l _) (clearOpen_alike s l).sound)
    · exact .after (noteOpenTimeout_alike _ l _).sound (closeLate_sound s l)

theorem bandChangeCall_sound (s : State) (b : BandNo) (l : LineNo) : Sound s (bandChangeCall s b l) := by
  unfold bandChangeCall
  split
  · exact .refl s
  · refine .ite (fun _ => .refl s) fun _ => ?_
    split
    · exact .refl s
    · exact .ite (fun _ => (removeCause_alike s l _).sound) fun _ => (addCause_safe endCall_safe s l _ _).sound

theorem evaluateBand_sound (s : State) : Sound s (evaluateBand s) := by
  unfold evaluateBand
  refine .ite (fun _ => .refl s) fun _ => ?_
  dsimp only
  split
  · exact ctu_sound s _
  · exact .after (.foldl _ (fun s l => bandChangeCall_sound s _ l) _ _) (ctu_sound s _)

theorem switchTariff_sound (s : State) : Sound s (switchTariff s) := by
  unfold switchTariff
  split
  · exact .refl s
  · exact .after (evaluateBand_sound _) (ctu_sound s _)

theorem barCall_sound (s : State) (k : ClassNo) (l : LineNo) : Sound s (barCall s k l) := by
  unfold barCall
  split
  · exact .refl s
  · exact .ite (fun _ => .ite (fun _ => endCall_sound s l _) fun _ => (addCause_safe endCall_safe s l _ _).sound)
      fun _ => .refl s

theorem releaseCall_sound (s : State) (k : ClassNo) (l : LineNo) : Sound s (releaseCall s k l) := by
  unfold releaseCall
  split
  · exact .refl s
  · exact .ite (fun _ => (removeCause_alike s l _).sound) fun _ => .refl s

theorem evaluateBarred_sound (s : State) : Sound s (evaluateBarred s) := by
  unfold evaluateBarred
  refine .after (.foldl _ (fun s k => ?_) _ _) (ctu_sound s _)
  exact .ite (fun _ => .foldl _ (fun s l => barCall_sound s k l) _ _) fun _ =>
    .ite (fun _ => .foldl _ (fun s l => releaseCall_sound s k l) _ _) fun _ => .refl s

theorem minuteEvaluation_sound (s : State) : Sound s (minuteEvaluation s) := by
  have activated : Sound s (activate s) := .ite (fun _ => .after (switchTariff_sound _) (ctu_sound s _)) fun _ => .refl s
  exact .after (evaluateBarred_sound _) (.after (ctu_sound _ _) (activated.trans (evaluateBand_sound _)))

theorem takeSwitch_sound (s : State) : Sound s (takeSwitch s).1 := by
  unfold takeSwitch
  split
  · exact switchTariff_sound s
  · exact .refl s

theorem tickCall_alike (x : LineState) (c : Call) : CallAlike c (tickCall x c) :=
  ⟨rfl, rfl, rfl, rfl, rfl, le_rfl, le_rfl⟩

theorem tick_alike (s : State) : Alike s (tick s) where
  line l := by
    rw [tick_line]
    refine ⟨rfl, ?_⟩
    unfold tickLine
    dsimp only
    cases (s.line l).call with
    | none => exact .none
    | some c => exact .some (tickCall_alike _ c)
  inUse := by unfold tick; rfl
  capacity := by unfold tick; rfl
  queues := by unfold tick; rfl
  held := by rw [tick_bst]

theorem execDeadlineExpiry_sound {l : LineNo} (h : execDeadlineExpiry l s = .next t) : Sound s t := by
  obtain rfl := Host.Outcome.next.inj h
  split
  · exact .refl s
  · split
    · exact .refl s
    · split
      · exact endCall_sound s l _
      · exact endCall_sound s l _
      · exact endCall_sound s l _
      all_goals exact .refl s

theorem execDirectoryWaitExpiry_sound {slot : SlotNo} (h : execDirectoryWaitExpiry slot s = .next t) : Sound s t := by
  obtain rfl := Host.Outcome.next.inj h
  split
  · exact .refl s
  · refine .ite (fun _ => ?_) fun _ => .refl s
    exact .after (serveBacklog_sound _) (.after (raiseFault_alike _ _ _ _ _ _).sound (.after (acc_sound _ _)
      (failFetch_sound s slot _)))

theorem setDirectory_sound (s : State) (size : Nat) (wait : Interval) : Sound s (setDirectory s size wait).1 := by
  unfold setDirectory
  split
  · exact acc_sound s _
  · split
    · exact acc_sound s _
    · exact .refl s

theorem invalidateBucket_sound (s : State) (bucket : Nat) : Sound s (invalidateBucket s bucket).1 := by
  unfold invalidateBucket
  split
  · exact .refl s
  · split
    · exact .refl s
    · exact .refl s
    · exact .refl s
    · split
      · exact acc_sound s _
      · exact acc_sound s _

theorem onAccount_sound {carry : State → FrameNo × EntryNo → State × Answer} (h : ∀ s a, Sound s (carry s a).1)
    (s : State) (bucket account : Nat) : Sound s (onAccount s bucket account carry).1 := by
  unfold onAccount
  split
  · exact .refl s
  · split
    · exact .refl s
    · exact h s _

theorem adjustEntry_sound (delta : Int) (s : State) (a : FrameNo × EntryNo) : Sound s (adjustEntry delta s a).1 :=
  .after (evaluateAllowance_safe endCall_safe _ a).sound (modEntry_alike s a _).sound

theorem suspendEntry_sound (s : State) (a : FrameNo × EntryNo) : Sound s (suspendEntry s a).1 :=
  .after (endAll_safe _ (filter_nodup _) _).sound (modEntry_alike s a _).sound

/-- A match on a call's record that leaves a line without one alone. -/
theorem Sound.onCall (l : LineNo) {f : Call → State} (h : ∀ c, s.callOn l = some c → Sound s (f c)) :
    Sound s (match s.callOn l with | none => s | some c => f c) := by
  split
  · exact .refl s
  · exact h _ ‹_›

/-! ### Every command -/

theorem completes_sound {c : Instr} (h : Completes c s t) : Sound s t := by
  have next {r : State} (e : exec c s = .next r) (k : Sound s r) : Sound s t := by
    obtain rfl := Host.Outcome.next.inj (e.symm.trans h)
    exact k
  have line {l : LineNo} {f : Line → Line} (st : ∀ x, (f x).st = x.st) (call : ∀ x, (f x).call = x.call) :
      Sound s (s.modLine l f) := Alike.sound (.modLine s l f (st _) (call _))
  cases c
  case powerOn => exact next rfl fun _ _ => powerOnState_whole s _
  case restart => exact execRestart_sound h
  case inboundFrameEnd => exact execInboundFrameEnd_sound h
  case inboundFrameStart => exact next rfl (.ite (fun _ => hli_sound s _) fun _ => .refl s)
  case frameMalformed => exact execFrameMalformed_sound h
  case transmissionStart => exact execTransmissionStart_sound h
  case frameTransmitted => exact execFrameTransmitted_sound h
  case outboundHoldChange => exact next rfl (hli_sound s _)
  case serviceOpen => exact next rfl (takeReplied_sound (fun _ u => openService_sound u) s)
  case serviceClose m => exact next rfl (takeReplied_sound (fun _ u => closeService_sound u m) s)
  case statusQuery =>
    exact next rfl (takeReplied_sound (fun _ u => .ite (fun _ => (clearCounters_alike u).sound) fun _ => .refl u) s)
  case lineQuery => exact next rfl (takeReplied_sound (fun _ u => .refl u) s)
  case surveySet ls p => exact next rfl (takeReplied_sound (fun _ => checked_sound fun _ u => setSurvey_sound u ls p) s)
  case surveyTimerExpiry =>
    exact next rfl (.ite (fun _ => .after (produceSurvey_sound _) (sfu_sound s _)) fun _ => .refl s)
  case faultClear => exact next rfl (takeReplied_sound (fun _ u => sfu_sound u _) s)
  case faultTest => exact next rfl (takeReplied_sound (fun _ u => (raiseFault_alike u _ _ _ _ _).sound) s)
  case faultMask => exact next rfl (takeReplied_sound (fun _ u => sfu_sound u _) s)
  case auditClear => exact next rfl (takeReplied_sound (fun _ u => Alike.sound
      (bst_alike u { u.bst with auditCount := 0, auditCharge := 0 } rfl)) s)
  case billRead => exact next rfl (takeReplied_sound (fun _ => checked_sound fun _ u => .refl u) s)
  case billRelease n => exact next rfl (takeReplied_sound (fun _ => checked_sound fun _ u => releaseRecords_sound n u) s)
  case lineSet x =>
    refine next rfl (takeReplied_sound (fun f u => ?_) s)
    split
    · exact checked_sound (fun _ u => setLineSettings_sound u (lineOf f) x) u
    · exact .refl u
  case lineEnable =>
    refine next rfl (takeReplied_sound (fun f u => ?_) s)
    split
    · exact enableLine_sound u _
    · exact .refl u
  case lineDisable m => exact next rfl (takeReplied_sound (fun f u => disableLine_sound u _ m) s)
  case linesFitted n => exact next rfl (takeReplied_sound (fun _ => checked_sound fun _ u => setFitted_sound u n) s)
  case textLoad => exact next rfl (takeReplied_sound (fun _ => checked_sound fun _ u => soe_sound u _) s)
  case dialogueSet => exact next rfl (takeReplied_sound (fun _ => checked_sound fun _ u => soe_sound u _) s)
  case directorySet n w => exact next rfl (takeReplied_sound (fun _ => checked_sound fun _ u => setDirectory_sound u n w) s)
  case bucketData =>
    obtain rfl := Host.Outcome.next.inj h
    split
    · exact .refl s
    · next ht => exact (takeFrame_sound ht).trans (applyBucketData_sound _ _)
  case bucketInvalidate b => exact next rfl (takeReplied_sound (fun _ => checked_sound fun _ u => invalidateBucket_sound u b) s)
  case allowanceAdjust b a d =>
    exact next rfl (takeReplied_sound (fun _ => checked_sound fun _ u => onAccount_sound (adjustEntry_sound d) u b a) s)
  case accountSuspend b a =>
    exact next rfl (takeReplied_sound (fun _ => checked_sound fun _ u => onAccount_sound suspendEntry_sound u b a) s)
  case capacitySet n r w =>
    exact next rfl (takeReplied_sound (fun _ => checked_sound fun ok u => setCapacity_sound (capacitySetBad_none ok) u r w) s)
  case classSet k r => exact next rfl (takeReplied_sound (fun _ => checked_sound fun _ u => setClass_sound u _ r) s)
  case openAccept =>
    exact next rfl (takeSession_sound (fun _ l c u hc _ =>
      .ite (fun opening => acceptCall_sound hc opening) fun _ => closeLate_sound u l) s)
  case openRefuse reason =>
    refine next rfl (takeSession_sound (fun _ l c u hc _ => .ite (fun opening => ?_) fun _ => refuseLate_sound u l c reason) s)
    cases reason
    · exact refuseFull_sound hc opening
    · exact refuseDenied_sound u l
  case hostData =>
    exact next rfl (takeSession_sound (fun _ l c u hc ok => acceptHostData_sound hc (of_decide_eq_true ok) _) s)
  case hostClose => exact next rfl (takeSession_sound (fun _ l _ u _ _ => endCall_sound u l _) s)
  case clockSet =>
    exact next rfl (takeReplied_sound (fun _ => checked_sound fun _ u =>
      .after (minuteEvaluation_sound _) (ctu_sound u _)) s)
  case tariffLoad => exact next rfl (takeReplied_sound (fun _ => checked_sound fun _ u => ctu_sound u _) s)
  case tariffSwitch => exact next rfl (takeReplied_sound (fun _ u => takeSwitch_sound u) s)
  case windowSet =>
    exact next rfl (takeReplied_sound (fun _ => checked_sound fun _ u => .after (evaluateBarred_sound _) (ctu_sound u _)) s)
  case ring => exact execRing_sound h
  case ringGapExpiry l =>
    refine next rfl (.ite (fun test => fun _ i => ?_) fun _ => .refl s)
    have none := i.noCall (l := l) (by simp [test.1]) id
    exact i.bare none _ none (by simp [Line.fits, show (s.line l).call = Option.none from none])
  case carrierArrival => exact next rfl (raiseCarrier_sound s _ _)
  case carrierReturn => exact next rfl (raiseCarrier_sound s _ _)
  case answerWaitExpiry l =>
    refine next rfl (.ite (fun test => fun _ i => ?_) fun _ => .refl s)
    have none := i.noCall (l := l) (by simp [test.1]) id
    exact dropBare_inv ((Alike.modCounters s l _).inv i) (fun _ _ => .rfl) id (by simp [none])
  case widthMeasured l w =>
    refine next rfl (.ite (fun test => ?_) fun _ => .refl s)
    have measured := line (l := l) (f := fun x => { x with widthCounter := w.val, rxLow := false })
      (fun _ => rfl) fun _ => rfl
    exact .ite (fun _ => measured) fun _ => measured.trans (takeWidth_sound (by simpa using test.1) _)
  case widthCounterOverflow =>
    exact next rfl (.ite (fun _ => .after (failAttempt_sound _ _) (line (fun _ => rfl) fun _ => rfl)) fun _ => .refl s)
  case speedWaitExpiry => exact next rfl (.ite (fun _ => endCall_sound s _ _) fun _ => .refl s)
  case receivedCharacter => exact execReceivedCharacter_sound h
  case zeroCharacterEnded l =>
    refine next rfl (.ite (fun _ => ?_) fun _ => .refl s)
    exact Alike.sound (.after (.modCounters _ l _) (.modLine s l _ rfl rfl))
  case breakSeen l =>
    refine next rfl (.ite (fun _ => .after (deliverBreak_sound _ l) ?_) fun _ => .refl s)
    exact Alike.sound (.after (.modCounters _ l _) (.modLine s l _ rfl rfl))
  case transmitterFree => exact execTransmitterFree_sound h
  case carrierLoss => exact execCarrierLoss_sound h
  case holdoverExpiry =>
    exact next rfl (.ite (fun _ => .after (endCall_sound _ _ _) (Alike.modCounters s _ _).sound) fun _ => .refl s)
  case dropGuardPassed => exact execDropGuardPassed_sound h
  case fieldTimerExpiry l =>
    exact next rfl (Sound.onCall l fun _ _ => .ite (fun _ => endCall_sound s l _) fun _ => .refl s)
  case directoryWaitExpiry => exact execDirectoryWaitExpiry_sound h
  case queueWaitExpiry => exact execQueueWaitExpiry_sound h
  case announcementTimerExpiry => exact execAnnouncementTimerExpiry_sound h
  case openWaitExpiry => exact execOpenWaitExpiry_sound h
  case batchGapExpiry l =>
    exact next rfl (Sound.onCall l fun _ _ => .ite (fun _ => (batchDue_safe s l).sound) fun _ => .refl s)
  case oneSecondEvent =>
    exact next rfl (.after (tick_alike _).sound (.foldl _ (fun s l => (completeStep_safe endCall_safe s l).sound) _ s))
  case minuteChange => exact next rfl (.ite (fun _ => .after (minuteEvaluation_sound _) (ctu_sound s _)) fun _ => .refl s)
  case stepCompletion => exact next rfl (completeStep_safe endCall_safe s _).sound
  case deadlineExpiry => exact execDeadlineExpiry_sound h
  case idleTimerExpiry l =>
    exact next rfl (Sound.onCall l fun _ _ => .ite (fun _ => endCall_sound s l _) fun _ => .refl s)
  case drainLimitExpiry l =>
    refine next rfl (Sound.onCall l fun c hc => .ite (fun test => fun _ i => ?_) fun _ => .refl s)
    exact dropLine_inv i (fun _ _ => .rfl) id (i.endedOf (phaseIs_iff.2 ⟨c, hc, test.1⟩))
  case receiveDataRise => exact execReceiveDataRise_sound h

theorem step_sound (h : step s = .next t) : Sound s t := by
  obtain rfl | ⟨c, rest, -, hc⟩ := step_next h
  · exact .refl _
  · exact .after (completes_sound hc) (.of_same rfl rfl rfl)

/-! ### The invariant and the statements' own clauses -/

theorem whole_of_parts (fits : LinesFit s) (slots : SlotsCounted s) (credit : cr → CreditBounded s) : Whole cr s where
  line l := ⟨fun _ => fits l, fun f => f.elim, slots.flag l, slots.attached l, fun _ => slots.unattached l,
    fun on => credit on l⟩
  count := slots.count
  most := slots.most
  capacity := slots.capacity
  queued k l h := .inl (slots.queued k l h)
  held := slots.held
  once := slots.once

theorem Inv.linesFit (i : Whole cr s) : LinesFit s := fun l => (i.line l).fits id

theorem Inv.slotsCounted (i : Whole cr s) : SlotsCounted s where
  count := i.count
  most := i.most
  capacity := i.capacity
  flag l := (i.line l).flag
  attached l := (i.line l).attached
  unattached l := (i.line l).unattached id
  queued k l h := (i.queued k l h).resolve_right id
  held := i.held
  once := i.once

theorem Inv.creditBounded (i : Whole cr s) (on : cr) : CreditBounded s := fun l => (i.line l).credit on

/-- Settles O59: the whole invariant, without its credit clause, is kept by every step. -/
theorem everyStepKeepsLinesCallsAndSlots : Obligations.EveryStepKeepsLinesCallsAndSlots := by
  rintro s t h ⟨fits, slots⟩
  have kept : Whole False t := step_sound h _ (whole_of_parts fits slots fun f => f.elim)
  exact ⟨kept.linesFit, kept.slotsCounted⟩

/-- Settles O57: the bounds of lanes, store and buffers part by part; that of the credit with the whole invariant. -/
theorem everyStepKeepsTheBounds : Obligations.EveryStepKeepsTheBounds := by
  intro s t h
  have bounds := step_bounds h
  refine ⟨bounds.link, bounds.store, bounds.buffers, fun fits slots credit => ?_⟩
  have kept : Whole True t := step_sound h _ (whole_of_parts fits slots fun _ => credit)
  exact kept.creditBounded trivial

/-- Settles O60: a part after reset has no call record, empty lanes and an empty store. -/
theorem resetMeetsTheInvariants : Obligations.ResetMeetsTheInvariants := by
  have empty (l : LineNo) : (State.reset.line l).call = none ∧ (State.reset.line l).st = .idle := by
    simp [State.line, State.reset, Line.powerOn]
  have noCall (l : LineNo) (c : Call) (h : State.reset.callOn l = some c) : False := by
    simp [State.callOn, (empty l).1] at h
  have whole : Whole True State.reset := noCalls_whole empty rfl rfl
  refine ⟨?link, ?store, fun l c h => (noCall l c h).elim, whole.creditBounded trivial, ?numbers, whole.linesFit,
    whole.slotsCounted⟩
  case link => constructor <;> simp [State.reset, Hli.powerOn]
  case store => constructor <;> simp [State.reset, Bst.powerOn]
  case numbers =>
    exact ⟨by simp [State.reset], fun l c h => (noCall l c h).elim, fun l _ c _ h _ _ => (noCall l c h).elim⟩

end Sys2Proof.Machine
end

section
namespace Sys2Proof.Machine

variable {s t : State} {f : InFrame} {rest : List InFrame}

/-! ### A frame in reception (R6, R16) -/

theorem inboundFrameStart_eq (s : State) : exec .inboundFrameStart s = .next (if s.hli.rx = .idle then
    { s with hli := { s.hli with rx := if inboundHold s then .overrun else .receiving } } else s) := rfl

theorem inboundHold_iff (s : State) : inboundHold s = true ↔ 8 ≤ s.hli.inQueue.length := decide_eq_true_iff

/-- Settles O4, by the receiver's state at the rise and at the fall of frame-enable. -/
theorem frameBegunUnderHoldIsAnOverrun : Obligations.FrameBegunUnderHoldIsAnOverrun := by
  intro s bytes
  refine ⟨fun idle below => ?received, fun idle full => ?held, fun busy => ?busy, fun overrun => ?overrun,
    fun ignoring => ?ignoring, fun idle => ?idle⟩
  case received =>
    have free : inboundHold s = false := by
      rw [Bool.eq_false_iff, Ne, inboundHold_iff]
      omega
    rw [Completes, inboundFrameStart_eq, if_pos idle, free]
    rfl
  case held => rw [Completes, inboundFrameStart_eq, if_pos idle, (inboundHold_iff s).2 full]; rfl
  case busy => rw [Completes, inboundFrameStart_eq, if_neg busy]
  all_goals change execInboundFrameEnd bytes s = _
  case overrun => rw [execInboundFrameEnd, overrun]; rfl
  case ignoring => rw [execInboundFrameEnd, ignoring]
  case idle => rw [execInboundFrameEnd, idle]

/-! ### The frame check sequence (R4) -/

theorem crcShift_small {r : BitVec 16} (h : r.toNat < 2 ^ 15) : crcShift r = r <<< 1 := by
  have low : r.msb = false := by rw [BitVec.msb_eq_decide]; simpa using h
  rw [crcShift, low]
  rfl

/-- While no bit reaches the top of the register its shifts are plain shifts. -/
theorem crcShifts_small {n : Nat} {r : BitVec 16} (h : r.toNat * 2 ^ n < 2 ^ 16) : crcShifts n r = r <<< n := by
  induction n generalizing r with
  | zero => simp [crcShifts]
  | succ n ih =>
    have bound : r.toNat * 2 ^ n < 2 ^ 15 := by rw [Nat.pow_succ, ← Nat.mul_assoc] at h; omega
    have low : r.toNat < 2 ^ 15 := lt_of_le_of_lt (Nat.le_mul_of_pos_right _ (Nat.two_pow_pos n)) bound
    have shifted : (r <<< 1).toNat = r.toNat * 2 := by rw [BitVec.toNat_shiftLeft, Nat.shiftLeft_eq]; omega
    rw [crcShifts, crcShift_small low, ih (by rw [shifted]; rw [Nat.pow_succ] at h; linarith), ← BitVec.shiftLeft_add,
      Nat.add_comm 1 n, BitVec.shiftLeft_add]

theorem low_byte_shifted (r : BitVec 16) : (r.setWidth 8).setWidth 16 <<< 8 = r <<< 8 := by
  ext i hi
  by_cases top : i < 8
  · simp [top]
  · simp [top, show i - 8 < 8 by omega, BitVec.getLsbD_eq_getElem (show i - 8 < 16 by omega)]

/-- The register takes its own high byte: its low byte moves up. -/
theorem crcByte_high (r : BitVec 16) : crcByte r (r.extractLsb' 8 8) = r <<< 8 := by
  have low : r ^^^ ((r.extractLsb' 8 8).setWidth 16 <<< 8) = (r.setWidth 8).setWidth 16 := by
    ext i hi
    by_cases bottom : i < 8
    · simp [bottom, BitVec.getLsbD_eq_getElem hi]
    · simp [bottom, show i - 8 < 8 by omega, show 8 + (i - 8) = i by omega, BitVec.getLsbD_eq_getElem hi]
  have small : ((r.setWidth 8).setWidth 16).toNat < 256 := by
    rw [BitVec.toNat_setWidth, BitVec.toNat_setWidth]
    omega
  rw [crcByte, low, crcShifts_small (by omega), low_byte_shifted]

/-- It then takes its own low byte to 0. -/
theorem crcByte_low (r : BitVec 16) : crcByte (r <<< 8) (r.setWidth 8) = 0 := by
  rw [crcByte, low_byte_shifted, BitVec.xor_self, crcShifts_small (by decide)]
  rfl

theorem bytesOf_two (r : BitVec 16) : bytesOf 2 r.toNat = [r.extractLsb' 8 8, r.setWidth 8] := by
  simp [bytesOf, BitVec.extractLsb', Nat.shiftRight_eq_div_pow]
  
theorem crc_append (a b : List Byte) : crc (a ++ b) = b.foldl crcByte (crc a) := by rw [crc, List.foldl_append, crc]

theorem crc_own_bytes (bytes : List Byte) : crc (bytes ++ bytesOf 2 (crc bytes).toNat) = 0 := by
  rw [crc_append, bytesOf_two, List.foldl_cons, crcByte_high, List.foldl_cons, crcByte_low, List.foldl_nil]

/-! ### A whole frame as bytes (R3) -/

/-- The bytes that the check bytes cover: the header and the body. -/
def coveredBytes (code tag call : Nat) (body : List Byte) : List Byte :=
  BitVec.ofNat 8 code :: BitVec.ofNat 8 tag :: BitVec.ofNat 8 (call / 256) :: BitVec.ofNat 8 call ::
    BitVec.ofNat 8 (body.length / 256) :: BitVec.ofNat 8 body.length :: body

theorem length_coveredBytes (code tag call : Nat) (body : List Byte) :
    (coveredBytes code tag call body).length = 6 + body.length := by
  simp only [coveredBytes, List.length_cons]
  omega

theorem frameBytes_eq (code tag call : Nat) (body : List Byte) : frameBytes code tag call body =
    coveredBytes code tag call body ++ bytesOf 2 (crc (coveredBytes code tag call body)).toNat := by
  simp [frameBytes, bytesOf, coveredBytes]

theorem length_frameBytes (code tag call : Nat) (body : List Byte) :
    (frameBytes code tag call body).length = 8 + body.length := by
  rw [frameBytes_eq, List.length_append, length_coveredBytes, length_bytesOf]
  omega

theorem bodyLength_frameBytes (code tag call : Nat) {body : List Byte} (h : body.length ≤ 288) :
    bodyLength (frameBytes code tag call body) = body.length := by
  rw [bodyLength_eq (by rw [length_frameBytes]; omega), frameBytes_eq]
  simp only [coveredBytes, byteAt, List.cons_append, List.getD_cons_succ, List.getD_cons_zero, BitVec.toNat_ofNat]
  omega

theorem byteAt_append_right (p q : List Byte) (i : Nat) : byteAt (p ++ q) (p.length + i) = byteAt q i := by
  simp [byteAt, List.getD_eq_getElem?_getD, List.getElem?_append_right]

theorem linkCheck_frameBytes (code tag call : Nat) {body : List Byte} (h : body.length ≤ 288) :
    linkCheck (frameBytes code tag call body) = none := by
  have n := bodyLength_frameBytes code tag call h
  rw [linkCheck_of_count (by rw [n]; exact h) (by rw [n, length_frameBytes]), n, frameBytes_eq]
  have covered := length_coveredBytes code tag call body
  generalize coveredBytes code tag call body = c at covered
  rw [← covered, List.take_left, if_neg]
  have sum : byteAt (c ++ bytesOf 2 (crc c).toNat) c.length = (crc c).toNat / 256 := by
    rw [← Nat.add_zero c.length, byteAt_append_right]
    simp [byteAt, bytesOf]
    omega
  have last : byteAt (c ++ bytesOf 2 (crc c).toNat) (7 + body.length) = (crc c).toNat % 256 := by
    rw [show 7 + body.length = c.length + 1 by omega, byteAt_append_right]
    simp [byteAt, bytesOf]
  rw [sum, last]
  omega

theorem frameOf_frameBytes {code tag call : Nat} {body : List Byte} (hcode : code < 256) (htag : tag < 256)
    (hcall : call < 65536) (h : body.length ≤ 288) :
    frameOf (frameBytes code tag call body) = { code := code, tag := tag, call := call, body := body } := by
  rw [frameOf_eq (by rw [length_frameBytes]; omega), bodyLength_frameBytes code tag call h, frameBytes_eq]
  simp only [coveredBytes, byteAt, List.cons_append, List.getD_cons_succ, List.getD_cons_zero, BitVec.toNat_ofNat,
    List.drop_succ_cons, List.drop_zero, List.take_left, InFrame.mk.injEq, and_true]
  omega

/-- Settles O5: the register is linear in what it has taken, so its own bytes bring it to 0; the rest reads the frame back
byte by byte. -/
theorem frameBytesAreReadBack : Obligations.FrameBytesAreReadBack := by
  refine ⟨⟨crc_own_bytes, by decide +kernel⟩, fun code tag call body hcode htag hcall h => ⟨?_, ?_, ?_⟩⟩
  · exact linkCheck_frameBytes code tag call h
  · exact frameOf_frameBytes hcode htag hcall h
  · exact length_frameBytes code tag call body

/-! ### A malformed head frame (R8) -/

theorem catalogueRow_of_mem {r : CatalogueRow} (h : r ∈ catalogue) : catalogueRow r.code = some r := by
  revert r
  decide

theorem frameForm_of_row {r : CatalogueRow} (h : r ∈ catalogue) (hcode : r.code = f.code) (bad : headerOk r f = false) :
    frameForm f = .malformed := by
  rw [frameForm, ← hcode, catalogueRow_of_mem h]
  simp [bad]

theorem frameForm_unknown (h : ∀ r ∈ catalogue, r.code ≠ f.code) : frameForm f = .malformed := by
  have none : catalogueRow f.code = none := by
    rw [catalogueRow, List.find?_eq_none]
    simpa using h
  rw [frameForm, none]

/-- The state in which the take of a malformed frame raises its fault. -/
def afterFormat (s : State) (f : InFrame) (rest : List InFrame) : State :=
  { afterReply s f rest .format with hli := { (afterReply s f rest .format).hli with
    formatErrors := oneMore s.hli.formatErrors } }

theorem takeMalformed_eq (s : State) (f : InFrame) (rest : List InFrame) : takeMalformed s f rest =
    if f.tag < 48 then raiseFault (afterFormat s f rest) .malformed (some (lineOf f)) (some f.call) f.code
    else raiseFault (afterFormat s f rest) .malformed none none f.code := rfl

theorem frameMalformed_eq (hq : s.hli.inQueue = f :: rest) : exec .frameMalformed s = .next
    (if frameForm f ≠ .wellFormed ∧ s.hli.prio.length < 16 then takeMalformed s f rest else s) := by
  change execFrameMalformed s = _
  rw [execFrameMalformed, hq]
  rfl

/-- Settles O6, by the form of the head frame and the room in the priority lane. -/
theorem malformedFrameIsAnsweredFormat : Obligations.MalformedFrameIsAnsweredFormat := by
  refine ⟨fun s f rest hq => ?_, fun f => ⟨frameForm_unknown, fun r mem code => ?_⟩⟩
  · refine ⟨fun bad room tag => ?line, fun bad room tag => ?part, fun full => ?full, fun good => ?good⟩
    case line =>
      rw [Completes, frameMalformed_eq hq, if_pos ⟨by simp [bad], room⟩, takeMalformed_eq, if_pos tag]
      rfl
    case part =>
      rw [Completes, frameMalformed_eq hq, if_pos ⟨by simp [bad], room⟩, takeMalformed_eq, if_neg (by omega)]
      rfl
    case full => rw [Completes, frameMalformed_eq hq, if_neg (by omega)]
    case good => rw [Completes, frameMalformed_eq hq, if_neg (by simp [good])]
  refine ⟨fun line tag => ?_, fun line tag => ?_, fun call zero => ?_, fun call named => ?_⟩
  all_goals refine frameForm_of_row mem code ?_
  · simp [headerOk, line, tag]
  · simp [headerOk, line, tag]
  · simp [headerOk, call, zero]
  · simp [headerOk, call, named]

/-! ### A start of transmission (R12 to R14, R123) -/

theorem transmissionStart_priority {f : OutFrame} {rest : List OutFrame} (idle : s.hli.tx = none)
    (free : s.hli.outHold = false) (lane : s.hli.prio = f :: rest) (first : Bool) :
    exec (.transmissionStart first) s = .next (startPriority s f rest first) := by
  change execTransmissionStart first s = _
  simp [execTransmissionStart, idle, free, lane]

theorem transmissionStart_ordered {f : OutFrame} {rest : List OutFrame} (idle : s.hli.tx = none)
    (free : s.hli.outHold = false) (none : s.hli.prio = []) (lane : s.hli.ord = f :: rest) (first : Bool) :
    exec (.transmissionStart first) s = .next (startOrdered s f rest) := by
  change execTransmissionStart first s = _
  simp [execTransmissionStart, idle, free, none, lane]

theorem transmissionStart_barred (busy : s.hli.tx.isSome = true ∨ s.hli.outHold = true) (first : Bool) :
    exec (.transmissionStart first) s = .next s := by
  change execTransmissionStart first s = _
  rw [execTransmissionStart, if_pos (by simpa using busy)]

theorem transmissionStart_empty (prio : s.hli.prio = []) (ord : s.hli.ord = []) (first : Bool) :
    exec (.transmissionStart first) s = .next s := by
  change execTransmissionStart first s = _
  simp [execTransmissionStart, prio, ord]

/-- A message at the head of the wait order enters a full priority lane from which a frame has gone, unless the place is kept
for a request (R14). -/
theorem startPriority_eq (s : State) (f : OutFrame) (rest : List OutFrame) (first : Bool) :
    startPriority s f rest first =
      let places := 16 - (if first && requestWaits s then 1 else 0) - rest.length
      { s with hli := { s.hli with
          prio := rest ++ (s.hli.prioWait.take places).map (fixBody s), prioWait := s.hli.prioWait.drop places
          tx := some (f, true) } } := rfl

theorem startOrdered_none_waiting {f : OutFrame} {rest : List OutFrame} (wait : s.hli.ordWait = []) :
    startOrdered s f rest =
      if rest.length + 1 = 48 then serveForward { s with hli := { s.hli with ord := rest, tx := some (f, true) } }
      else { s with hli := { s.hli with ord := rest, tx := some (f, true) } } := by
  simp [startOrdered, refillOrdered, wait, Config.congestedAt]

theorem requestWaits_eq {q : InFrame} {qs : List InFrame} (hq : s.hli.inQueue = q :: qs) :
    requestWaits s = (isReplied q.code || decide (frameForm q ≠ .wellFormed)) := by
  rw [requestWaits, hq]
  rfl

/-- Settles O7, by the lane that the start takes its frame from. -/
theorem transmissionStartTakesThePriorityLaneFirst : Obligations.TransmissionStartTakesThePriorityLaneFirst := by
  refine ⟨fun s first f rest level => ⟨fun busy => transmissionStart_barred busy first,
    fun prio ord => transmissionStart_empty prio ord first, fun idle free lane wait => ?plain,
    fun idle free none lane wait away => ?ordered, rfl⟩,
    fun s first f rest w ws idle free => ⟨fun lane full wait claim => ?claimed, fun q qs lane full set hq claim => ?kept,
      fun none lane full wait => ?refilled⟩⟩
  case plain =>
    rw [Completes, transmissionStart_priority idle free lane, startPriority_eq]
    simp [wait]
  case ordered =>
    rw [Completes, transmissionStart_ordered idle free none lane, startOrdered_none_waiting wait, if_neg (by omega)]
  case claimed =>
    have unclaimed : (first && requestWaits s) = false := by
      rcases claim with first | well
      · simp [first]
      · cases hq : s.hli.inQueue with
        | nil => simp [requestWaits, hq]
        | cons q qs => simp [requestWaits_eq hq, well q qs hq]
    rw [Completes, transmissionStart_priority idle free lane, startPriority_eq, unclaimed]
    simp [wait, full]
  case kept =>
    have claimed : (first && requestWaits s) = true := by
      rw [requestWaits_eq hq]
      simpa [set] using claim
    rw [Completes, transmissionStart_priority idle free lane, startPriority_eq, claimed]
    simp [full]
  case refilled =>
    rw [Completes, transmissionStart_ordered idle free none lane]
    simp [startOrdered, refillOrdered, wait, enqueueOrdered, full, Config.congestedAt, Config.orderedDepth]

end Sys2Proof.Machine
end

section
namespace Sys2Proof.Machine

variable {s t : State} {l : LineNo} {c d : Call} {x : Line}

/-! ### Updates of one line, and updates of the other blocks -/

@[simp] theorem State.modLine_setLine (s : State) (l : LineNo) (x : Line) (f : Line → Line) :
    (s.setLine l x).modLine l f = s.setLine l (f x) := by simp [State.modLine]

@[simp] theorem State.modCall_setLine (s : State) (l : LineNo) (x : Line) (f : Call → Call) :
    (s.setLine l x).modCall l f = s.setLine l { x with call := x.call.map f } := by simp [State.modCall]

@[simp] theorem State.modCarriage_setLine (s : State) (l : LineNo) (x : Line) (f : CarriageCounters → CarriageCounters) :
    (s.setLine l x).modCarriage l f = s.setLine l { x with car := f x.car } := by simp [State.modCarriage]

@[simp] theorem State.modCounters_setLine (s : State) (l : LineNo) (x : Line) (f : LineCounters → LineCounters) :
    (s.setLine l x).modCounters l f = s.setLine l { x with ctr := f x.ctr } := by simp [State.modCounters]

/-- A state whose line `l` is written out, so that the rules for `setLine` apply to it. -/
theorem State.eq_setLine (s : State) (l : LineNo) : s = s.setLine l (s.line l) := (s.setLine_line l).symm

theorem State.modCall_eq (hc : s.callOn l = some c) (f : Call → Call) :
    s.modCall l f = s.setLine l { s.line l with call := some (f c) } := State.modCall_some f hc

@[simp] theorem enqueueOrdered_setLine (s : State) (l : LineNo) (x : Line) (f : OutFrame) :
    enqueueOrdered (s.setLine l x) f = (enqueueOrdered s f).setLine l x := by
  by_cases room : s.hli.ord.length < Config.orderedDepth
  · simp only [enqueueOrdered, State.hli_setLine, room, if_true]
    rfl
  · simp only [enqueueOrdered, State.hli_setLine, room, if_false]
    rfl

/-- A message other than a survey report has its body when it waits. -/
@[simp] theorem enqueuePriority_setLine (s : State) (l : LineNo) (x : Line) (f : OutFrame)
    (fixed : fixBody (s.setLine l x) f = fixBody s f) :
    enqueuePriority (s.setLine l x) f = (enqueuePriority s f).setLine l x := by
  by_cases room : s.hli.prio.length < Config.priorityDepth ∧ s.hli.prioWait = []
  · simp only [enqueuePriority, State.hli_setLine, fixed, room]
    rfl
  · simp only [enqueuePriority, State.hli_setLine, room, if_false]
    rfl

/-! ### The end of congestion (R123) -/

/-- Only a call in ENDING has ending work left. -/
theorem settle_running (hc : s.callOn l = some c) (phase : c.phase ≠ .ending) : settle s l = s := by
  simp [settle, hc, phase]

theorem callFrame_eq (hc : s.callOn l = some c) (m : OutMsg) :
    callFrame s l m = { tag := l.val, call := c.number, msg := m } := by simp [callFrame, hc]

theorem dueFlow_xon (p : Option FlowChar) : dueFlow p .xon = if p = some .xoff then none else some .xon := by
  rcases p with _ | _ | _ <;> rfl

/-- The call once its batch has gone (R122, R124). -/
def batchSent (c : Call) : Call :=
  { c with
    batch := [], forwardDue := false, batchGap := none, terminalStopped := false
    pendingFlow := if c.terminalStopped = true then (if c.pendingFlow = some .xoff then none else some .xon)
      else c.pendingFlow }

theorem sendBatch_eq (hc : s.callOn l = some c) (batch : c.batch ≠ []) (phase : c.phase ≠ .ending) : sendBatch s l =
    (enqueueOrdered s { tag := l.val, call := c.number, msg := .termData c.batch }).setLine l { s.line l with
      car := { (s.line l).car with termData := oneMore (s.line l).car.termData }, call := some (batchSent c) } := by
  have sent : (enqueueOrdered s { tag := l.val, call := c.number, msg := .termData c.batch }).callOn l = some c := by
    simpa [State.callOn_eq] using hc
  simp only [sendBatch, hc, batch, if_false, callFrame_eq hc, State.modCall_eq sent, State.modCarriage_setLine,
    dueFlow_xon]
  rw [settle_running (c := batchSent c), enqueueOrdered_line]
  · rfl
  · rw [State.callOn_setLine_self]
    rfl
  · exact phase

theorem serveForward_cons {ls : List LineNo} (h : s.forwardWait = l :: ls) :
    serveForward s = sendBatch { s with forwardWait := ls } l := by rw [serveForward, h]

/-- Settles O8: with 47 frames left the start serves the forward wait list, whose head sends its batch. -/
theorem endOfCongestionServesTheForwardHead : Obligations.EndOfCongestionServesTheForwardHead := by
  intro s first f rest l ls c idle free none lane left wait forward hc phase batch
  rw [Completes, transmissionStart_ordered idle free none lane, startOrdered_none_waiting wait, if_pos (by omega),
    serveForward_cons (l := l) (ls := ls), sendBatch_eq (c := c) ?_ batch (by simp [phase])]
  · simp only [enqueueOrdered, left, Config.orderedDepth, Config.congestedAt, Nat.reduceAdd, Nat.reduceLT, if_true]
    rfl
  · exact hc
  · exact forward

end Sys2Proof.Machine
end

section
namespace Sys2Proof.Machine
/-! ### Power-on (R16) -/

/-- The class table after power-on (Table 6.1). -/
theorem classes_powerOn : ∀ k : ClassNo, Adm.powerOn.classes[k] = { Adm.powerOn.classes[k] with
      group := if k = 0 then .high else .low, queueLimit := 48, queueWait := ⟨30, .minutes⟩, announce := ⟨1, .minutes⟩
      fee := 0, rateAdjust := 0, warningLevel := 0, allowanceGrace := ⟨2, .minutes⟩, hoursGrace := ⟨5, .minutes⟩ } ∧
    Adm.powerOn.classes[k].idleLimit.count = 0 ∧ Adm.powerOn.queues[k] = [] := by decide

/-- Settles O10: each block's record after power-on, read field by field. -/
theorem powerOnLeavesEveryBlockAtItsStart : Obligations.PowerOnLeavesEveryBlockAtItsStart := by
  intro s
  have lines (l : LineNo) : (powerOnState s (if s.hli.rx = .idle then .idle else .ignoring)).line l =
      Line.powerOn (s.line l).carrier (s.line l).rxLow := by simp [powerOnState]
  have frames (g : FrameNo) : (powerOnState s (if s.hli.rx = .idle then .idle else .ignoring)).frame g = Frame.empty := by
    simp [powerOnState, State.reset, State.frame, Acc.powerOn]
  refine ⟨_, rfl, rfl, ?_⟩
  refine ⟨rfl, rfl, rfl, rfl, rfl, rfl, rfl, rfl, rfl, rfl, rfl, rfl, rfl, rfl, rfl, fun l => ?line, rfl, rfl, rfl, rfl, rfl,
    fun g => ?frame, rfl, fun i => ?slot, rfl, rfl, rfl, rfl, rfl, rfl, rfl, rfl, classes_powerOn, rfl, rfl, rfl, rfl, rfl,
    rfl, rfl, rfl, rfl, rfl, rfl, rfl, ?now, rfl, rfl, rfl, rfl, rfl, fun i => ?window, rfl, rfl, rfl, rfl, rfl, rfl, rfl, rfl,
    rfl, rfl, rfl, rfl, rfl, rfl, rfl, fun i => ?mask, fun i => ?faults, rfl, rfl, rfl⟩
  case line =>
    simp only [lines]
    exact ⟨rfl, rfl, rfl, rfl, rfl, rfl, rfl, rfl, rfl, rfl, rfl, rfl, rfl, rfl, rfl⟩
  case frame => simp [State.entryAt, frames, Frame.empty]
  case slot => simp [powerOnState, State.reset, Acc.powerOn]
  case now => simp [powerOnState, State.reset, Ctu.powerOn, Ctu.now]
  case window => simp [powerOnState, State.reset, Ctu.powerOn, Window.powerOn]
  case mask => simp [powerOnState, State.reset, Sfu.powerOn]
  case faults => simp [powerOnState, State.reset, Sfu.powerOn]

/-! ### Widths (R39) -/

/-- The least width of each speed (Table 3.3). -/
def leastWidth : Speed → Nat
  | .b110 => 1222 | .b150 => 896 | .b300 => 448 | .b600 => 224 | .b1200 => 112 | .b2400 => 56 | .b4800 => 28 | .b9600 => 14

/-- The greatest width of each speed (Table 3.3). -/
def greatestWidth : Speed → Nat
  | .b110 => 1570 | .b150 => 1152 | .b300 => 576 | .b600 => 288 | .b1200 => 144 | .b2400 => 72 | .b4800 => 36 | .b9600 => 18

theorem speedAccepts_iff (w : Nat) (v : Speed) : speedAccepts w v = true ↔ leastWidth v ≤ w ∧ w ≤ greatestWidth v := by
  rw [speedAccepts, decide_eq_true_iff]
  cases v <;> simp only [nominalWidth, leastWidth, greatestWidth] <;> omega

/-- The ranges of two speeds do not meet. -/
theorem widths_apart : ∀ v u : Speed, v ≠ u → greatestWidth v < leastWidth u ∨ greatestWidth u < leastWidth v := by
  intro v u
  cases v <;> cases u <;> decide

theorem mem_allSpeeds (v : Speed) : v ∈ allSpeeds := by cases v <;> decide

theorem classifyWidth_iff (w : Nat) (v : Speed) : classifyWidth w = some v ↔ leastWidth v ≤ w ∧ w ≤ greatestWidth v := by
  rw [← speedAccepts_iff]
  refine ⟨List.find?_some, fun accepted => ?_⟩
  obtain ⟨u, hu⟩ := Option.isSome_iff_exists.1 (List.find?_isSome.2 ⟨v, mem_allSpeeds v, accepted⟩)
  have hu' := List.find?_some hu
  rw [speedAccepts_iff] at hu' accepted
  by_cases same : v = u
  · rw [same]
    exact hu
  · have := widths_apart v u same
    omega

theorem classifyWidth_none_iff (w : Nat) :
    classifyWidth w = none ↔ ∀ v : Speed, w < leastWidth v ∨ greatestWidth v < w := by
  simp only [classifyWidth, List.find?_eq_none, speedAccepts_iff]
  exact ⟨fun h v => by have := h v (mem_allSpeeds v); omega, fun h v _ => by have := h v; omega⟩

/-- Settles O22: a speed accepts the widths of its range, and the ranges of Table 3.3 are apart. -/
theorem widthsAreClassifiedAsTable3_3 : Obligations.WidthsAreClassifiedAsTable3_3 := by
  intro w low high
  refine ⟨fun v => ?_, classifyWidth_iff w .b9600, classifyWidth_iff w .b4800, classifyWidth_iff w .b2400,
    classifyWidth_iff w .b1200, classifyWidth_iff w .b600, classifyWidth_iff w .b300, classifyWidth_iff w .b150,
    classifyWidth_iff w .b110, ?_⟩
  · rw [classifyWidth_iff]
    cases v <;> simp only [leastWidth, greatestWidth, Nat.reduceDiv] <;> omega
  · rw [classifyWidth_none_iff]
    refine ⟨fun h => ?_, fun h v => ?_⟩
    · have := h .b9600; have := h .b4800; have := h .b2400; have := h .b1200
      have := h .b600; have := h .b300; have := h .b150; have := h .b110
      simp only [leastWidth, greatestWidth] at *
      omega
    · cases v <;> simp only [leastWidth, greatestWidth] <;> omega

/-! ### The sign-on checks (R72) -/

open Classical in
/-- The reason of the first row of a table that fails. -/
noncomputable def firstFailing : List (Prop × SignOnReason) → Option SignOnReason
  | [] => none
  | row :: rows => if row.1 then some row.2 else firstFailing rows

theorem ite_eq_firstFailing {p q : Prop} [Decidable q] (h : q ↔ p) {x : Option SignOnReason} {r : SignOnReason}
    {rows : List (Prop × SignOnReason)} (hx : x = firstFailing rows) :
    (if q then some r else x) = firstFailing ((p, r) :: rows) := by
  by_cases holds : q
  · rw [if_pos holds, firstFailing, if_pos (h.1 holds)]
  · rw [if_neg holds, firstFailing, if_neg fun fails => holds (h.2 fails), hx]

theorem firstFailing_none {rows : List (Prop × SignOnReason)} (good : ∀ row ∈ rows, ¬ row.1) : firstFailing rows = none := by
  induction rows with
  | nil => rfl
  | cons row rows ih => rw [firstFailing, if_neg (good row (by simp)), ih fun r mem => good r (by simp [mem])]

theorem firstFailing_some {before after : List (Prop × SignOnReason)} {row : Prop × SignOnReason}
    (good : ∀ earlier ∈ before, ¬ earlier.1) (bad : row.1) : firstFailing (before ++ row :: after) = some row.2 := by
  induction before with
  | nil => rw [List.nil_append, firstFailing, if_pos bad]
  | cons r rows ih =>
    rw [List.cons_append, firstFailing, if_neg (good r (by simp)), ih fun e mem => good e (by simp [mem])]

theorem allowanceFails_iff (s : State) (e : Entry) : allowanceFails s e = true ↔ ∃ a, e.allowance = some a ∧
    (remainingOf a e.charged ≤ 0 ∨ remainingOf a e.charged < (s.adm.classes[e.cls].fee : Int) ∨ e.exhausted = true) := by
  cases h : e.allowance <;> simp [allowanceFails, h, or_assoc]

theorem bandExcluded_iff (s : State) (e : Entry) :
    (match s.ctu.band with | some b => e.bandMask.getLsbD b.val | none => false) = false ↔
      ∀ b, s.ctu.band = some b → e.bandMask.getLsbD b.val = false := by
  cases s.ctu.band <;> simp

theorem signOnCheck_eq (s : State) (c : Call) (e : Entry) : signOnCheck s c e = firstFailing (checkTable s c e) := by
  refine ite_eq_firstFailing .rfl (ite_eq_firstFailing (by cases c.copy.group <;> rfl) (ite_eq_firstFailing .rfl
    (ite_eq_firstFailing (bandExcluded_iff s e) (ite_eq_firstFailing .rfl
      (ite_eq_firstFailing (allowanceFails_iff s e) (ite_eq_firstFailing .rfl (ite_eq_firstFailing .rfl rfl)))))))

/-- Settles O32: the chain of checks is Table 4.6 read from its first row. -/
theorem firstFailingCheckDecides : Obligations.FirstFailingCheckDecides := by
  intro s c e
  rw [signOnCheck_eq]
  refine ⟨firstFailing_none, fun before row after split earlier bad => ?_⟩
  rw [split, firstFailing_some earlier bad]

/-! ### The hash of a name and the check word of a password (R67, R68) -/

theorem nameHash_snoc (name : List Byte) (b : Byte) :
    nameHash (name ++ [b]) = (nameHash name * 37 + nameCode b) % 65536 := by simp [nameHash]

/-- A sum over the places of a list, the last place apart. -/
theorem sum_range_snoc (xs : List Byte) (b : Byte) (f : Nat → Byte → Nat) :
    ((List.range (xs ++ [b]).length).map fun i => f i ((xs ++ [b]).getD i 0)).sum =
      ((List.range xs.length).map fun i => f i (xs.getD i 0)).sum + f xs.length b := by
  rw [List.length_append, List.length_singleton, List.range_succ, List.map_append, List.sum_append]
  congr 2
  · refine List.map_congr_left fun i hi => ?_
    rw [List.getD_append _ _ _ _ (List.mem_range.1 hi)]
  · simp

theorem sum_map_mul (n k : Nat) (f : Nat → Nat) :
    ((List.range n).map fun i => f i * k).sum = ((List.range n).map f).sum * k := List.sum_map_mul_right ..

/-- R67: each step weighs the characters taken so far 37 times more. -/
theorem nameHash_eq (name : List Byte) : nameHash name =
    ((List.range name.length).map fun i => nameCode (name.getD i 0) * 37 ^ (name.length - 1 - i)).sum % 65536 := by
  induction name using List.reverseRecOn with
  | nil => rfl
  | append_singleton name b ih =>
    rw [nameHash_snoc, ih, sum_range_snoc name b fun i c => nameCode c * 37 ^ ((name ++ [b]).length - 1 - i)]
    have weights : ((List.range name.length).map fun i =>
        nameCode (name.getD i 0) * 37 ^ ((name ++ [b]).length - 1 - i)).sum =
        ((List.range name.length).map fun i => nameCode (name.getD i 0) * 37 ^ (name.length - 1 - i)).sum * 37 := by
      rw [← sum_map_mul]
      refine congrArg List.sum (List.map_congr_left fun i hi => ?_)
      have := List.mem_range.1 hi
      rw [show (name ++ [b]).length - 1 - i = name.length - 1 - i + 1 by simp; omega, Nat.pow_succ, Nat.mul_assoc]
    rw [weights]
    simp [Nat.add_mod, Nat.mul_mod]

theorem checkWordAux_snoc (p i : Nat) (password : List Byte) (b : Byte) : checkWordAux p i (password ++ [b]) =
    (checkWordAux p i password * 131 + (b.toNat % 128) * (i + password.length)) % 2 ^ 32 := by
  induction password generalizing p i with
  | nil => simp [checkWordAux]
  | cons c rest ih =>
    rw [List.cons_append, checkWordAux, checkWordAux, ih, List.length_cons]
    congr 3
    omega

/-- R68: each step weighs the characters taken so far 131 times more. -/
theorem checkWordAux_modEq (account : Nat) (password : List Byte) : checkWordAux account 1 password * 131 ≡
    account * 131 ^ (password.length + 1) + ((List.range password.length).map fun i =>
      ((password.getD i 0).toNat % 128) * (i + 1) * 131 ^ (password.length - i)).sum [MOD 2 ^ 32] := by
  induction password using List.reverseRecOn with
  | nil => simp [checkWordAux, Nat.ModEq]
  | append_singleton password b ih =>
    rw [checkWordAux_snoc,
      sum_range_snoc password b fun i c => c.toNat % 128 * (i + 1) * 131 ^ ((password ++ [b]).length - i)]
    have weights : ((List.range password.length).map fun i =>
        (password.getD i 0).toNat % 128 * (i + 1) * 131 ^ ((password ++ [b]).length - i)).sum =
        ((List.range password.length).map fun i =>
          (password.getD i 0).toNat % 128 * (i + 1) * 131 ^ (password.length - i)).sum * 131 := by
      rw [← sum_map_mul]
      refine congrArg List.sum (List.map_congr_left fun i hi => ?_)
      have := List.mem_range.1 hi
      rw [show (password ++ [b]).length - i = password.length - i + 1 by simp; omega, Nat.pow_succ, ← Nat.mul_assoc]
    rw [weights, List.length_append, List.length_singleton]
    generalize ((List.range password.length).map fun i =>
      (password.getD i 0).toNat % 128 * (i + 1) * 131 ^ (password.length - i)).sum = sum at ih
    calc (checkWordAux account 1 password * 131 + b.toNat % 128 * (1 + password.length)) % 2 ^ 32 * 131
      _ ≡ (checkWordAux account 1 password * 131 + b.toNat % 128 * (1 + password.length)) * 131 [MOD 2 ^ 32] :=
        (Nat.mod_modEq _ _).mul_right 131
      _ ≡ (account * 131 ^ (password.length + 1) + sum + b.toNat % 128 * (1 + password.length)) * 131 [MOD 2 ^ 32] :=
        (ih.add_right _).mul_right 131
      _ = account * 131 ^ (password.length + 1 + 1) +
          (sum * 131 + b.toNat % 128 * (password.length + 1) * 131 ^ (password.length + 1 - password.length)) := by
        rw [show password.length + 1 - password.length = 1 by omega]
        ring

theorem checkWordOf_eq (account : Nat) (password : List Byte) : checkWordOf account password =
    (account * 131 ^ (password.length + 1) +
      ((List.range password.length).map fun i =>
        ((password.getD i 0).toNat % 128) * (i + 1) * 131 ^ (password.length - i)).sum + password.length) % 2 ^ 32 :=
  (checkWordAux_modEq account password).add_right password.length

theorem nameCode_letter {b : Byte} (h : 0x41 ≤ b ∧ b ≤ 0x5A) : nameCode b = b.toNat - 64 := if_pos h.1

theorem nameCode_digit {b : Byte} (h : 0x30 ≤ b ∧ b ≤ 0x39) : nameCode b = b.toNat - 21 := by
  have low : ¬ 0x41 ≤ b := by bv_omega
  rw [nameCode, if_neg low]
  bv_omega

theorem passwordPasses_iff (e : Entry) (password : List Byte) : passwordPasses e password = true ↔
    password ≠ [] ∧ e.checkWord = BitVec.ofNat 32 (checkWordOf e.account password) := by
  have small : checkWordOf e.account password < 2 ^ 32 := Nat.mod_lt _ (by decide)
  rw [passwordPasses, Bool.and_eq_true, decide_eq_true_iff, ← BitVec.toNat_inj, BitVec.toNat_ofNat, Nat.mod_eq_of_lt small,
    eq_comm (a := e.checkWord.toNat)]
  simp

/-- Settles O31: the two sums by induction from the last character. -/
theorem hashAndCheckWordAreWeightedSums : Obligations.HashAndCheckWordAreWeightedSums :=
  ⟨fun _ => ⟨nameCode_letter, nameCode_digit⟩, nameHash_eq, checkWordOf_eq, passwordPasses_iff⟩

/-! ### The band and the windows (R142, R144) -/

/-- The last that passes, as a fold over an increasing list keeps it. -/
theorem foldl_last_iff {n : Nat} (p : Fin n → Prop) [DecidablePred p] {xs : List (Fin n)} (increasing : xs.Pairwise (· < ·))
    (b : Fin n) : xs.foldl (fun a i => if p i then some i else a) none = some b ↔
      b ∈ xs ∧ p b ∧ ∀ later ∈ xs, b < later → ¬ p later := by
  induction xs using List.reverseRecOn with
  | nil => simp
  | append_singleton xs x ih =>
    obtain ⟨before, -, last⟩ := List.pairwise_append.1 increasing
    have above (y : Fin n) (h : y ∈ xs) : y < x := last y h x (by simp)
    rw [List.foldl_append, List.foldl_cons, List.foldl_nil]
    have split (y : Fin n) (h : y ∈ xs ++ [x]) : y ∈ xs ∨ y = x := by simpa using h
    by_cases passes : p x
    · rw [if_pos passes]
      constructor
      · rintro same
        obtain rfl := Option.some.inj same
        refine ⟨by simp, passes, fun later mem after => ?_⟩
        rcases split later mem with old | rfl
        · exact absurd (above later old) after.not_gt
        · exact absurd after (lt_irrefl _)
      · rintro ⟨mem, _, ends⟩
        rcases split b mem with old | rfl
        · exact absurd passes (ends x (by simp) (above b old))
        · rfl
    · rw [if_neg passes, ih before]
      constructor
      · rintro ⟨mem, pb, ends⟩
        refine ⟨by simp [mem], pb, fun later m after => ?_⟩
        rcases split later m with old | rfl
        · exact ends later old after
        · exact passes
      · rintro ⟨mem, pb, ends⟩
        refine ⟨?_, pb, fun later m => ends later (by simp [m])⟩
        rcases split b mem with old | rfl
        · exact old
        · exact absurd pb passes

theorem bandAt_iff (t : Tariff) (minute : Nat) (b : BandNo) : bandAt t minute = some b ↔
    b.val < t.bandCount ∧ t.starts[b] ≤ minute ∧
      ∀ later : BandNo, b < later → later.val < t.bandCount → minute < t.starts[later] := by
  rw [bandAt, foldl_last_iff (fun i : BandNo => i.val < t.bandCount ∧ t.starts[i] ≤ minute) (List.pairwise_lt_finRange 8) b]
  simp only [List.mem_finRange, true_and, true_imp_iff, and_assoc, not_and, Nat.not_le]

theorem evaluatedBand_iff (c : Ctu) (b : BandNo) : evaluatedBand c = some b ↔
    c.isSet = true ∧ ∃ t, c.current = some t ∧ bandAt t (c.hour * 60 + c.minute) = some b := by
  cases h : c.current <;> cases set : c.isSet <;> simp [evaluatedBand, h, set, minuteOfDay]

/-- The span of one of the window's days covers the minute, counted modulo the week (R144). -/
theorem windowCovers_iff (w : Window) (m : Nat) : windowCovers w m = true ↔ ∃ d k : Nat, d < 7 ∧
    w.dayMask.getLsbD d = true ∧ k < w.length ∧ (d * 1440 + w.start + k) % 10080 = m % 10080 := by
  simp only [windowCovers, Bool.and_eq_true, decide_eq_true_iff, List.any_eq_true, List.mem_finRange, true_and]
  constructor
  · rintro ⟨d, day, within⟩
    exact ⟨d, _, d.isLt, day, within, by omega⟩
  · rintro ⟨d, k, low, day, within, same⟩
    refine ⟨⟨d, low⟩, day, ?_⟩
    dsimp only
    omega

theorem windowState_iff (c : Ctu) (w : Window) : windowState c w = true ↔ c.isSet = true ∧ ∃ d k : Nat, d < 7 ∧
    w.dayMask.getLsbD d = true ∧ k < w.length ∧
      (d * 1440 + w.start + k) % 10080 = (c.day * 1440 + c.hour * 60 + c.minute) % 10080 := by
  have minute : minuteOfWeek c = c.day * 1440 + c.hour * 60 + c.minute := by
    rw [minuteOfWeek, minuteOfDay, Nat.add_assoc]
  have span : windowCovers w (minuteOfWeek c) = true → 0 < w.length := by
    rw [windowCovers_iff]
    rintro ⟨_, k, _, _, within, _⟩
    omega
  rw [windowState, Bool.and_eq_true, Bool.and_eq_true, decide_eq_true_iff, and_assoc, and_iff_right_of_imp span,
    windowCovers_iff, minute]

theorem getLsbD_foldl_or (w : Fin 4 → Window) (xs : List (Fin 4)) (m : BitVec 4) (k : Nat) :
    (xs.foldl (fun m i => if (w i).isOpen then m ||| (w i).classMask else m) m).getLsbD k = true ↔
      m.getLsbD k = true ∨ ∃ i ∈ xs, (w i).isOpen = true ∧ (w i).classMask.getLsbD k = true := by
  induction xs generalizing m with
  | nil => simp
  | cons x xs ih =>
    rw [List.foldl_cons, ih]
    by_cases isOpen : (w x).isOpen = true <;> simp [isOpen, or_assoc]

theorem barredSet_iff (windows : Vector Window 4) (k : ClassNo) : (barredSet windows).getLsbD k.val = true ↔
    ∃ i : Fin 4, windows[i].isOpen = true ∧ windows[i].classMask.getLsbD k.val = true := by
  rw [barredSet, getLsbD_foldl_or fun i => windows[i]]
  simp

/-- Settles O51, from what the two folds keep and from the span of a window counted modulo the week. -/
theorem bandAndWindowStatesFollowTheClock : Obligations.BandAndWindowStatesFollowTheClock := by
  refine ⟨fun c b => ?_, windowState_iff, barredSet_iff⟩
  simp only [evaluatedBand_iff, bandAt_iff]

end Sys2Proof.Machine
end

section
namespace Sys2Proof.Machine

variable {s t u : State} {f : InFrame} {rest : List InFrame} {code : Nat}

/-! ### What carrying out a request leaves of the lanes (R9) -/

/-- The inbound queue stands and the priority lane only grows at its tail. -/
structure Fed (s t : State) : Prop where
  inQueue : t.hli.inQueue = s.hli.inQueue
  prio : s.hli.prio <+: t.hli.prio

theorem Keeps.fed (k : Keeps s t) : Fed s t := ⟨k.inQueue, k.prio⟩

theorem Local.fed {l : LineNo} (k : Local l s t) : Fed s t := k.keeps.fed

theorem Fed.refl (s : State) : Fed s s := (Keeps.refl s).fed

theorem Fed.trans (a : Fed s t) (b : Fed t u) : Fed s u := ⟨b.inQueue.trans a.inQueue, a.prio.trans b.prio⟩

theorem Fed.after (b : Fed t u) (a : Fed s t) : Fed s u := a.trans b

theorem Fed.of_hli (h : t.hli = s.hli) : Fed s t := ⟨by rw [h], by rw [h]⟩

theorem Fed.ite {p : Prop} [Decidable p] (a : p → Fed s t) (b : ¬ p → Fed s u) : Fed s (if p then t else u) := by
  split
  · exact a ‹_›
  · exact b ‹_›

theorem setLineSettings_fed (s : State) (l : LineNo) (x : LineSettings) : Fed s (setLineSettings s l x) := .of_hli rfl

theorem setFitted_fed (s : State) (n : Nat) : Fed s (setFitted s n) := by
  have fitted : Fed s { s with fitted := n } := .of_hli rfl
  refine .ite (fun _ => fitted.trans (Keeps.fed ?_)) fun _ => fitted
  exact (Keeps.foldl _ (fun s l => (bareOff_local s l).keeps) _ _).trans (endAll_keeps _ _ _)

theorem setSurvey_fed (s : State) (ls : List LineNo) (p : Interval) : Fed s (setSurvey s ls p) :=
  .ite (fun _ => ⟨rfl, List.prefix_rfl⟩) fun _ => .after (produceSurvey_keeps _).fed (.of_hli rfl)

theorem setClass_fed (s : State) (k : ClassNo) (r : ClassRecord) : Fed s (setClass s k r).1 := by
  have replaced : Fed s { s with adm := { s.adm with classes := s.adm.classes.set k r } } := .of_hli rfl
  have announced (p : Prop) [Decidable p] : Fed s (if p then (s.adm.queues[k]).foldl (startAnnouncement r.announce)
      { s with adm := { s.adm with classes := s.adm.classes.set k r } }
      else { s with adm := { s.adm with classes := s.adm.classes.set k r } }) :=
    .ite (fun _ => replaced.trans (Keeps.foldl _ (fun s l => (startAnnouncement_local _ s l).keeps) _ _).fed) fun _ => replaced
  unfold setClass
  dsimp only
  split
  · exact announced _
  · exact (announced _).trans (runArbiter_keeps _).fed

theorem evaluateBand_fed (s : State) : Fed s (evaluateBand s) := by
  refine .ite (fun _ => .refl s) fun _ => ?_
  have changed : Fed s { s with ctu := { s.ctu with band := evaluatedBand s.ctu, bandChanges := bump s.ctu.bandChanges } } :=
    .of_hli rfl
  dsimp only
  split
  · exact changed
  · next k _ => exact changed.trans (Keeps.foldl _ (fun s l => bandChangeCall_keeps s k l) _ _).fed

theorem switchTariff_fed (s : State) : Fed s (switchTariff s) := by
  unfold switchTariff
  split
  · exact .refl s
  · exact .after (evaluateBand_fed _) (.of_hli rfl)

theorem activate_fed (s : State) : Fed s (activate s) :=
  .ite (fun _ => .after (switchTariff_fed _) (.of_hli rfl)) fun _ => .refl s

theorem evaluateBarred_fed (s : State) : Fed s (evaluateBarred s) := by
  unfold evaluateBarred
  refine .after (Keeps.foldl _ (fun s k => ?_) _ _).fed (.of_hli rfl)
  exact .ite (fun _ => Keeps.foldl _ (fun s l => barCall_keeps s k l) _ _) fun _ =>
    .ite (fun _ => Keeps.foldl _ (fun s l => releaseCall_keeps s k l) _ _) fun _ => Keeps.refl s

theorem evaluateWindows_fed (s : State) : Fed s (evaluateWindows s) := .of_hli (by rw [evaluateWindows])

theorem minuteEvaluation_fed (s : State) : Fed s (minuteEvaluation s) :=
  (((activate_fed s).trans (evaluateBand_fed _)).trans (evaluateWindows_fed _)).trans (evaluateBarred_fed _)

theorem releaseRecords_fed (number : Nat) (s : State) : Fed s (releaseRecords s number).1 := by
  unfold releaseRecords
  split
  · exact .refl s
  · next i _ =>
    rw [removeRecords_eq_take]
    have removed := withoutRecords_keeps s (s.bst.store.take (i + 1)) (s.bst.store.drop (i + 1))
    exact .after ((removed.trans (placeHeld_keeps _ _ rfl)).fed) (.of_hli rfl)

/-! ### Answers -/

/-- What carrying out a request gives: an effect that feeds the lanes, and none where the answer is REFUSED (R9, R10). -/
structure Answers (s : State) (r : State × Answer) : Prop where
  fed : Fed s r.1
  refused : ∀ x d, r.2 = .refused x d → r.1 = s

theorem Answers.done {d : Detail} (h : Fed s t) : Answers s (t, .done d) := ⟨h, fun _ _ no => nomatch no⟩

theorem Answers.refusal {x : Reason} {d : Detail} : Answers s (s, .refused x d) := ⟨.refl s, fun _ _ _ => rfl⟩

theorem Answers.same {a : Answer} : Answers s (s, a) := ⟨.refl s, fun _ _ _ => rfl⟩

theorem Answers.checked {bad : Option Nat} {carry : State → State × Answer} (h : Answers s (carry s)) :
    Answers s (checked bad s carry) := by
  cases bad
  · exact h
  · exact .refusal

theorem openService_answers (s : State) : Answers s (openService s) := by
  unfold openService
  split
  · exact .same
  · exact .done (.of_hli rfl)
  · split
    · exact .done (.of_hli rfl)
    · exact .same

theorem closeService_answers (s : State) (mode : CloseMode) : Answers s (closeService s mode) := by
  unfold closeService
  split
  · exact .same
  · refine .done ?_
    have left : Keeps s (if s.sfu.service = .opened then allLines.foldl leaveOpenLine s else s) :=
      .ite (fun _ => Keeps.foldl _ (fun s l => (leaveOpenLine_local s l).keeps) _ s) fun _ => Keeps.refl s
    exact left.fed.trans (.after ((endAll_keeps _ _ _).trans (haltIfDone_keeps _)).fed (.of_hli rfl))

theorem releaseRecords_answers (s : State) (number : Nat) : Answers s (releaseRecords s number) := by
  refine ⟨releaseRecords_fed number s, fun x d refused => ?_⟩
  unfold releaseRecords at refused ⊢
  split
  · rfl
  · next found => simp [found] at refused

theorem setDirectory_answers (s : State) (n : Nat) (w : Interval) : Answers s (setDirectory s n w) := by
  unfold setDirectory
  split
  · exact .done (.of_hli rfl)
  · split
    · exact .done (.of_hli rfl)
    · exact .same

theorem invalidateBucket_answers (s : State) (bucket : Nat) : Answers s (invalidateBucket s bucket) := by
  refine ⟨(invalidateBucket_keeps s bucket).fed, fun x d refused => ?_⟩
  unfold invalidateBucket at refused
  split at refused
  · nomatch refused
  · split at refused
    · nomatch refused
    · nomatch refused
    · nomatch refused
    · split at refused <;> nomatch refused

theorem onAccount_answers {carry : State → FrameNo × EntryNo → State × Answer} (h : ∀ a, Answers s (carry s a)) (b a : Nat) :
    Answers s (onAccount s b a carry) := by
  unfold onAccount
  split
  · exact .same
  · split
    · exact .same
    · exact h _

theorem setClass_answers (s : State) (k : ClassNo) (r : ClassRecord) : Answers s (setClass s k r) := by
  refine ⟨setClass_fed s k r, fun x d refused => ?_⟩
  unfold setClass at refused
  dsimp only at refused
  split at refused <;> nomatch refused

theorem takeSwitch_answers (s : State) : Answers s (takeSwitch s) := by
  unfold takeSwitch
  split
  · exact .done (switchTariff_fed s)
  · exact .same

/-- The command takes a replied request of the code. -/
structure TakesRequest (c : Instr) (code : Nat) (carry : InFrame → State → State × Answer) : Prop where
  replied : isReplied code = true
  takes : ∀ s, exec c s = .next (takeReplied s code carry)
  answers : ∀ f s, Answers s (carry f s)

/-- Each of the replied requests but RESTART, as its block carries it out. -/
theorem takesRequest {c : Instr} (h : requestCode c = some code) (no : ∀ m, c ≠ .restart m) :
    ∃ carry, TakesRequest c code carry := by
  cases c
  case restart m => exact absurd rfl (no m)
  all_goals cases h
  case serviceOpen => exact ⟨_, by decide, fun _ => rfl, fun _ s => openService_answers s⟩
  case serviceClose m => exact ⟨_, by decide, fun _ => rfl, fun _ s => closeService_answers s m⟩
  case statusQuery => exact ⟨_, by decide, fun _ => rfl, fun _ s => .done (
    .ite (fun _ => ⟨rfl, List.prefix_rfl⟩) fun _ => .refl s)⟩
  case lineQuery => exact ⟨_, by decide, fun _ => rfl, fun _ s => .same⟩
  case surveySet ls p => exact ⟨_, by decide, fun _ => rfl, fun _ s => .checked (.done (setSurvey_fed s ls p))⟩
  case faultClear => exact ⟨_, by decide, fun _ => rfl, fun _ s => .done (.of_hli rfl)⟩
  case faultTest => exact ⟨_, by decide, fun _ => rfl, fun _ s => .done (raiseFault_keeps s _ _ _ _ _).fed⟩
  case faultMask => exact ⟨_, by decide, fun _ => rfl, fun _ s => .done (.of_hli rfl)⟩
  case auditClear => exact ⟨_, by decide, fun _ => rfl, fun _ s => .done (.of_hli rfl)⟩
  case billRead => exact ⟨_, by decide, fun _ => rfl, fun _ s => .checked .same⟩
  case billRelease n => exact ⟨_, by decide, fun _ => rfl, fun _ s => .checked (releaseRecords_answers s n)⟩
  case lineSet x => exact ⟨_, by decide, fun _ => rfl, fun f s => by
    split
    · exact .checked (.done (setLineSettings_fed s _ x))
    · exact .same⟩
  case lineEnable => exact ⟨_, by decide, fun _ => rfl, fun f s => by
    split
    · exact .done (enableLine_local s _).fed
    · exact .same⟩
  case lineDisable m => exact ⟨_, by decide, fun _ => rfl, fun f s => .done (disableLine_keeps s _ m).fed⟩
  case linesFitted n => exact ⟨_, by decide, fun _ => rfl, fun _ s => .checked (.done (setFitted_fed s n))⟩
  case textLoad => exact ⟨_, by decide, fun _ => rfl, fun _ s => .checked (.done (.of_hli rfl))⟩
  case dialogueSet => exact ⟨_, by decide, fun _ => rfl, fun _ s => .checked (.done (.of_hli rfl))⟩
  case directorySet n w => exact ⟨_, by decide, fun _ => rfl, fun _ s => .checked (setDirectory_answers s n w)⟩
  case bucketInvalidate b => exact ⟨_, by decide, fun _ => rfl, fun _ s => .checked (invalidateBucket_answers s b)⟩
  case allowanceAdjust b a d =>
    exact ⟨_, by decide, fun _ => rfl, fun _ s => .checked (onAccount_answers (fun e => .done (adjustEntry_keeps d s e).fed) b a)⟩
  case accountSuspend b a =>
    exact ⟨_, by decide, fun _ => rfl, fun _ s => .checked (onAccount_answers (fun e => .done (suspendEntry_keeps s e).fed) b a)⟩
  case capacitySet n r w =>
    exact ⟨_, by decide, fun _ => rfl, fun _ s => .checked (.done (.after (runArbiter_keeps _).fed (.of_hli rfl)))⟩
  case classSet k r => exact ⟨_, by decide, fun _ => rfl, fun _ s => .checked (setClass_answers s _ r)⟩
  case clockSet =>
    exact ⟨_, by decide, fun _ => rfl, fun _ s => .checked (.done (.after (minuteEvaluation_fed _) (.of_hli rfl)))⟩
  case tariffLoad => exact ⟨_, by decide, fun _ => rfl, fun _ s => .checked (.done (.of_hli rfl))⟩
  case tariffSwitch => exact ⟨_, by decide, fun _ => rfl, fun _ s => takeSwitch_answers s⟩
  case windowSet =>
    exact ⟨_, by decide, fun _ => rfl, fun _ s => .checked (.done (.after (evaluateBarred_fed _) (.of_hli rfl)))⟩

/-! ### The take (R7, R9, R10) -/

theorem takeFrame_unrequested (replied : isReplied code = true) (no : ∀ f rest, ¬ Requested s code f rest) :
    takeFrame s code = none := by
  unfold takeFrame
  split
  · rfl
  · next f rest hq =>
    refine if_neg fun ⟨hcode, hform, room⟩ => no f rest ⟨⟨hq, hcode, hform⟩, room replied⟩

theorem takeReplied_unrequested (replied : isReplied code = true) (no : ∀ f rest, ¬ Requested s code f rest)
    (carry : InFrame → State → State × Answer) : takeReplied s code carry = s := by
  rw [takeReplied, takeFrame_unrequested replied no]

/-- The lane's place `i`, behind a first part of that length, takes the answer. -/
theorem set_after_prefix {α : Type} {xs ys : List α} {x y : α} (h : xs ++ [x] <+: ys) :
    ∃ later, ys.set xs.length y = xs ++ y :: later := by
  obtain ⟨later, rfl⟩ := h
  exact ⟨later, by simp⟩

/-- The REPLY has the place behind the frames that stood in the lane (R9). -/
theorem TakesRequest.placed {c : Instr} {carry : InFrame → State → State × Answer} (takes : TakesRequest c code carry)
    (h : Requested s code f rest) : ∃ t a later, Completes c s t ∧ t.hli.inQueue = rest ∧
      t.hli.prio = s.hli.prio ++ replyTo f a :: later ∧
      ∀ r d, a = .refused r d → t = afterReply s f rest a := by
  have answered := takes.answers f (afterReply s f rest .format)
  obtain ⟨later, prio⟩ := set_after_prefix (y := replyTo f (carry f (afterReply s f rest .format)).2) answered.fed.prio
  have taken := (takes.takes s).trans (by rw [takeReplied_eq h takes.replied])
  refine ⟨_, (carry f (afterReply s f rest .format)).2, later, taken, answered.fed.inQueue, prio, fun r d refused => ?_⟩
  rw [answered.refused r d refused, setPriority_afterReply]

theorem reply_ne_done {f : InFrame} {r : Reason} {d e : Detail} : replyTo f (.done e) ≠ replyTo f (.refused r d) := by
  intro same
  have answers := congrArg OutFrame.msg same
  simp [replyTo] at answers

/-! ### RESTART (R183) -/

theorem restart_eq (h : Requested s 0x03 f rest) (mode : RestartMode) : exec (.restart mode) s = .next
    (if mode = .normal ∧ mayRestart s = false then afterReply s f rest (.refused .state .none)
      else pushPriority (restartState s) (replyTo f (.done (restartDetail s)))) := by
  change execRestart mode s = _
  rw [execRestart, takeFrame_replied h (by decide)]
  rfl

theorem prio_restarted (s : State) (x : OutFrame) : (pushPriority (restartState s) x).hli.prio = [x] := rfl

/-- A taken RESTART has its REPLY at the head of the emptied lane, so one that is answered REFUSED was not taken. -/
theorem restart_refused {mode : RestartMode} (h : Requested s 0x03 f rest) (done : Completes (.restart mode) s t)
    {r : Reason} {d : Detail} (refused : t.hli.prio[s.hli.prio.length]? = some (replyTo f (.refused r d))) :
    t = afterReply s f rest (.refused r d) := by
  obtain rfl := Host.Outcome.next.inj ((restart_eq h mode).symm.trans done)
  split at refused
  · next barred =>
    rw [if_pos barred]
    have answer : (Reason.state, Detail.none) = (r, d) := by simpa [afterReply, replyTo] using refused
    cases answer
    rfl
  · rw [prio_restarted] at refused
    cases hn : s.hli.prio.length with
    | zero => simp [hn, replyTo] at refused
    | succ n => simp [hn] at refused

theorem anyCall_false_iff (s : State) : s.anyCall = false ↔ ∀ l, s.callOn l = none := by
  simp [State.anyCall, allLines]

theorem mayRestart_iff (s : State) : mayRestart s = true ↔
    s.sfu.service = .halted ∧ (∀ l, s.callOn l = none) ∧ s.bst.store = [] := by
  rw [mayRestart, Bool.and_eq_true, Bool.and_eq_true, decide_eq_true_iff, Bool.not_eq_true', anyCall_false_iff,
    List.isEmpty_iff, and_assoc]

theorem mem_callList (s : State) (item : CallListItem) : item ∈ callList s ↔ ∃ c, s.callOn item.line = some c ∧
    item.call = c.number ∧ item.phase = c.phase ∧ item.cause = c.endCause.getD .forcedRestart := by
  simp only [callList, List.mem_filterMap, Option.map_eq_some_iff]
  constructor
  · rintro ⟨l, -, c, hc, rfl⟩
    exact ⟨c, hc, rfl, rfl, rfl⟩
  · rintro ⟨c, hc, number, phase, cause⟩
    refine ⟨item.line, List.mem_finRange _, c, hc, ?_⟩
    rw [← number, ← phase, ← cause]

theorem callList_increasing (s : State) : ((callList s).map CallListItem.line).Pairwise (· < ·) := by
  rw [List.pairwise_map, callList, List.pairwise_filterMap]
  refine (List.pairwise_lt_finRange 48).imp fun {l m} less x hx y hy => ?_
  obtain ⟨c, -, rfl⟩ := Option.map_eq_some_iff.1 hx
  obtain ⟨d, -, rfl⟩ := Option.map_eq_some_iff.1 hy
  exact less

theorem callList_empty (h : ∀ l, s.callOn l = none) : callList s = [] := by
  simp [callList, h]

/-- Settles O11, by whether the RESTART may be taken. -/
theorem restartReturnsToPowerOnButForTheClock : Obligations.RestartReturnsToPowerOnButForTheClock := by
  intro s f rest head room
  have requested : Requested s 0x03 f rest := ⟨head, room⟩
  refine ⟨fun barred => ?barred, fun may => ?taken, callList s, ?forced, callList_increasing s, mem_callList s⟩
  case barred =>
    have no : mayRestart s = false := by rwa [← Bool.not_eq_true, mayRestart_iff]
    rw [OnlyAnswers, Completes, restart_eq requested, if_pos ⟨rfl, no⟩]
  case taken =>
    have yes : ¬ (RestartMode.normal = .normal ∧ mayRestart s = false) := by simp [(mayRestart_iff s).2 may]
    rw [Completes, restart_eq requested, if_neg yes, restartDetail, callList_empty may.2.1]
    rfl
  case forced =>
    rw [Completes, restart_eq requested, if_neg (by simp), restartDetail]
    rfl

/-- Settles O2: a replied request has a `takeReplied` or is RESTART, and each answers as `Answers` says. -/
theorem everyReplyTakesItsPlaceAtTheTake : Obligations.EveryReplyTakesItsPlaceAtTheTake := by
  refine ⟨fun c code s h no => ?_, fun c code s f rest t r d h requested done refused => ?_⟩
  · obtain ⟨carry, takes⟩ := takesRequest h no
    refine ⟨fun out => ?_, fun f rest requested => ?_⟩
    · rw [Completes, takes.takes, takeReplied_unrequested takes.replied out]
    · obtain ⟨t, a, later, done, queue, prio, -⟩ := takes.placed requested
      exact ⟨t, a, later, done, queue, prio⟩
  · by_cases restart : ∃ m, c = .restart m
    · obtain ⟨m, rfl⟩ := restart
      cases h
      exact restart_refused requested done refused
    · obtain ⟨carry, takes⟩ := takesRequest h fun m e => restart ⟨m, e⟩
      obtain ⟨u, a, later, done', -, prio, same⟩ := takes.placed requested
      obtain rfl := Host.Outcome.next.inj (done'.symm.trans done)
      have answer : a = .refused r d := by
        rw [prio] at refused
        simpa [replyTo] using refused
      rw [← answer]
      exact same r d answer

end Sys2Proof.Machine
end

section
namespace Sys2Proof.Machine

variable {s t u : State} {f : InFrame} {rest : List InFrame} {l : LineNo} {c : Call}

/-! ### Requests that one answer describes -/

/-- A request is answered and changes only what its effect changes, once the effect leaves the priority lane alone. -/
theorem takeReplied_state {code : Nat} (h : Requested s code f rest) (r : isReplied code = true)
    {carry : InFrame → State → State × Answer} {a : Answer}
    (ha : (carry f (afterReply s f rest .format)).2 = a)
    (ht : setPriority (carry f (afterReply s f rest .format)).1 s.hli.prio.length (replyTo f a) = t) :
    takeReplied s code carry = t := by
  rw [takeReplied_eq h r, ha, ht]

@[simp] theorem line_afterReply (s : State) (f : InFrame) (rest : List InFrame) (a : Answer) (l : LineNo) :
    (afterReply s f rest a).line l = s.line l := rfl

@[simp] theorem callOn_afterReply (s : State) (f : InFrame) (rest : List InFrame) (a : Answer) (l : LineNo) :
    (afterReply s f rest a).callOn l = s.callOn l := rfl

/-! ### STATUS QUERY (R186) -/

/-- The report is made in the state that holds the REPLY's own place. -/
theorem statusQuery_eq (h : Requested s 0x04 f rest) (clear : Bool) : exec (.statusQuery clear) s = .next
    (let r := statusReport (afterReply s f rest .format)
     if clear then clearCounters (afterReply s f rest (.done (.status r))) else afterReply s f rest (.done (.status r))) := by
  change execStatusQuery clear s = _
  rw [execStatusQuery, takeReplied_eq h (by decide)]
  cases clear
  · exact congrArg Host.Outcome.next (setPriority_afterReply s f rest _ _)
  · simp [setPriority, clearCounters, afterReply]

/-! ### LINE QUERY (R187) -/

theorem findIdx?_of_not_mem {xs : List LineNo} (h : l ∉ xs) : xs.findIdx? (fun m => decide (m = l)) = none := by
  rw [List.findIdx?_eq_none_iff]
  intro m hm
  have other : m ≠ l := fun same => h (same ▸ hm)
  simpa using other

theorem findIdx?_split {ahead behind : List LineNo} (h : l ∉ ahead) :
    (ahead ++ l :: behind).findIdx? (fun m => decide (m = l)) = some ahead.length := by
  rw [List.findIdx?_append, findIdx?_of_not_mem h, List.findIdx?_cons]
  simp

theorem queuePlace_none (h : ∀ k : ClassNo, l ∉ s.adm.queues[k]) : queuePlace s l = none := by
  rw [queuePlace, List.findSome?_eq_none_iff]
  intro k _
  rw [findIdx?_of_not_mem (h k), Option.map_none]

theorem queuePlace_split {k : ClassNo} {ahead behind : List LineNo} (split : s.adm.queues[k] = ahead ++ l :: behind)
    (first : l ∉ ahead) (alone : ∀ j : ClassNo, j ≠ k → l ∉ s.adm.queues[j]) :
    queuePlace s l = some (k, ahead.length + 1) := by
  have here : (s.adm.queues[k].findIdx? fun m => decide (m = l)).map (fun i => (k, i + 1)) = some (k, ahead.length + 1) := by
    rw [split, findIdx?_split first, Option.map_some]
  cases found : queuePlace s l with
  | none =>
    rw [queuePlace, List.findSome?_eq_none_iff] at found
    exact absurd (here.symm.trans (found k (List.mem_finRange k))) (Option.some_ne_none _)
  | some place =>
    obtain ⟨j, -, at'⟩ := List.exists_of_findSome?_eq_some found
    by_cases same : j = k
    · subst same
      exact at'.symm.trans here
    · rw [findIdx?_of_not_mem (alone j same)] at at'
      nomatch at'

theorem forwardPlace_split {ahead behind : List LineNo} (split : s.forwardWait = ahead ++ l :: behind) (first : l ∉ ahead) :
    forwardPlace s l = some (ahead.length + 1) := by rw [forwardPlace, split, findIdx?_split first, Option.map_some]

theorem forwardPlace_none (h : l ∉ s.forwardWait) : forwardPlace s l = none := by
  rw [forwardPlace, findIdx?_of_not_mem h, Option.map_none]

theorem lineQuery_eq (h : Requested s 0x05 f rest) :
    OnlyAnswers .lineQuery s f rest (.done (.line (lineReport (afterReply s f rest .format) (lineOf f)))) := by
  change execLineQuery s = _
  rw [execLineQuery, takeReplied_eq h (by decide), setPriority_afterReply]

theorem call_lineReport (s : State) (l : LineNo) : (lineReport s l).call = (s.line l).call.map (callSummary s l) := rfl

/-- Settles O13: each report is made from the state that holds the REPLY's own place. -/
theorem queriesReportWhatStands : Obligations.QueriesReportWhatStands := by
  refine ⟨fun s f rest h => ⟨statusReport (afterReply s f rest .format), statusQuery_eq h false, statusQuery_eq h true, ?_⟩,
    fun s f rest h => ⟨_, lineQuery_eq h, rfl, rfl, rfl, rfl, rfl, rfl, rfl, rfl, rfl, fun none => ?noCall,
      fun c hc => ⟨callSummary (afterReply s f rest .format) (lineOf f) c, ?call, rfl, queuePlace_none, ?queued,
        forwardPlace_none, ?waiting⟩⟩⟩
  · refine ⟨rfl, fun i => ?lines, rfl, fun k => ?queues, rfl, rfl, rfl, rfl, rfl, rfl, rfl, rfl, rfl, rfl, rfl, rfl, rfl, rfl,
      fun i => ?windows, rfl, rfl, rfl, rfl, rfl, ?priority, rfl, rfl, rfl, rfl, rfl, rfl, rfl⟩
    case lines =>
      simp only [statusReport, Fin.getElem_fin, Vector.getElem_ofFn]
      rfl
    case queues => simp [statusReport, afterReply]
    case windows => simp [statusReport, afterReply]
    case priority => simp [statusReport, afterReply]
  case noCall => rw [call_lineReport, line_afterReply, none, Option.map_none]
  case call => rw [call_lineReport, line_afterReply, hc, Option.map_some]
  case queued => exact fun k ahead behind split first alone => queuePlace_split split first alone
  case waiting => exact fun ahead behind split first => forwardPlace_split split first

/-! ### SURVEY SET and the survey timer (R188) -/

theorem surveySet_eq (h : Requested s 0x06 f rest) {period : Interval} (good : period.count ≤ 63) (ls : List LineNo) :
    exec (.surveySet ls period) s =
      .next (setPriority (setSurvey (afterReply s f rest .format) ls period) s.hli.prio.length (replyTo f (.done .none))) := by
  have inRange : firstBad [(1, intervalOk period)] = none := by simp [firstBad, (intervalOk_iff period).2 good]
  change execSurveySet ls period s = _
  rw [execSurveySet, takeReplied_eq h (by decide), inRange]
  rfl

theorem surveySet_bad (h : Requested s 0x06 f rest) {period : Interval} (bad : 63 < period.count) (ls : List LineNo) :
    OnlyAnswers (.surveySet ls period) s f rest (.refused .badValue (.index 1)) := by
  have outOfRange : firstBad [(1, intervalOk period)] = some 1 := by
    have no : intervalOk period = false := by
      rw [Bool.eq_false_iff, Ne, intervalOk_iff]
      omega
    simp [firstBad, no]
  exact congrArg Host.Outcome.next (takeReplied_bad h (by decide) (fun _ => firstBad [(1, intervalOk period)]) _ outOfRange)

theorem surveySet_empty (ls : List LineNo) : (allLines.filter fun l => decide (l ∈ ls)) = [] ↔ ls = [] := by
  rw [List.filter_eq_nil_iff, List.eq_nil_iff_forall_not_mem]
  exact ⟨fun none l mem => none l (List.mem_finRange l) (by simpa using mem), fun none l _ => by simp [none l]⟩

/-- The survey's settings replaced, its timer started (R188). -/
def surveying (s : State) (ls : List LineNo) (period : Interval) : State :=
  { s with sfu := { s.sfu with
    surveyLines := allLines.filter fun l => decide (l ∈ ls), surveyPeriod := period, surveyTimer := startTimer period } }

theorem setSurvey_some {ls : List LineNo} (some : ls ≠ []) (period : Interval) :
    setSurvey s ls period = produceSurvey (surveying s ls period) :=
  if_neg fun none => some ((surveySet_empty ls).1 none)

theorem setSurvey_none (s : State) (period : Interval) : setSurvey s [] period =
    { s with
      sfu := { s.sfu with surveyLines := [], surveyPeriod := period, surveyTimer := none }
      hli := { s.hli with prioWait := s.hli.prioWait.filter fun f => !isSurvey f } } := by
  unfold setSurvey
  exact if_pos ((surveySet_empty []).2 rfl)

theorem produceSurvey_waiting (waits : s.hli.prioWait.any isSurvey = true) : produceSurvey s = s := if_pos waits

theorem produceSurvey_room (wait : s.hli.prioWait = []) (room : s.hli.prio.length < 16) : produceSurvey s =
    { s with hli := { s.hli with
      prio := s.hli.prio ++ [{ tag := 255, call := 0, msg := .surveyReport (surveyItems s) }] } } := by
  have none : ¬ s.hli.prioWait.any isSurvey = true := by simp [wait]
  rw [produceSurvey, if_neg none, enqueuePriority_room _ room wait]
  rfl

theorem surveyTimerExpiry_eq (s : State) : exec .surveyTimerExpiry s = .next (if isDue s.sfu.surveyTimer = true then
    produceSurvey { s with sfu := { s.sfu with surveyTimer := startTimer s.sfu.surveyPeriod } } else s) := rfl

theorem isDue_iff (timer : Option Nat) : isDue timer = true ↔ timer = some 0 := decide_eq_true_iff

/-- Settles O14, by the set of lines, the wait order and the room in the lane. -/
theorem surveyReportsFollowTheirSettings : Obligations.SurveyReportsFollowTheirSettings := by
  intro s f rest ls period h
  refine ⟨fun bad => surveySet_bad h bad ls, fun good none => ?stops, fun good some wait room => ?reports,
    fun good some waits => ?waits, fun early => ?early, fun due => ⟨fun waits => ?again, fun wait room => ?further⟩⟩
  case stops =>
    subst none
    rw [Completes, surveySet_eq h good, setSurvey_none]
    simp [setPriority, afterReply]
  case reports =>
    rw [Completes, surveySet_eq h good, setSurvey_some some, produceSurvey_room (by exact wait) ?_]
    · simp [setPriority, afterReply, surveying, surveyItems]
    · simp only [surveying, afterReply, List.length_append, List.length_singleton]
      omega
  case waits =>
    rw [Completes, surveySet_eq h good, setSurvey_some some, produceSurvey_waiting (by exact waits)]
    simp [setPriority, afterReply, surveying]
  case early => rw [Completes, surveyTimerExpiry_eq, if_neg fun due => early ((isDue_iff _).1 due)]
  case again => rw [Completes, surveyTimerExpiry_eq, if_pos ((isDue_iff _).2 due), produceSurvey_waiting (by exact waits)]
  case further =>
    rw [Completes, surveyTimerExpiry_eq, if_pos ((isDue_iff _).2 due), produceSurvey_room (by exact wait) (by exact room)]

/-! ### The fault record (R184, R185) -/

theorem maskOf_index (kinds : List FaultKind) (k : FaultKind) : (maskOf kinds)[faultIndex k] = decide (k ∈ kinds) := by
  have apart : ∀ j : FaultKind, faultIndex j = faultIndex k ↔ j = k := by
    intro j
    cases j <;> cases k <;> decide
  simp [maskOf, apart, List.any_eq]

theorem setPriority_enqueuePriority {i : Nat} (h : i < s.hli.prio.length) (g x : OutFrame) :
    setPriority (enqueuePriority s g) i x = enqueuePriority (setPriority s i x) g := by
  have fixed : fixBody (setPriority s i x) g = fixBody s g := by
    unfold fixBody
    split <;> rfl
  by_cases room : s.hli.prio.length < Config.priorityDepth ∧ s.hli.prioWait = []
  · rw [enqueuePriority, if_pos room, enqueuePriority, if_pos (by simpa [setPriority] using room), fixed]
    simp [setPriority, h]
  · simp [enqueuePriority, setPriority, room]

/-- A fault raised behind a REPLY's place leaves the place to the REPLY (R9, R184). -/
theorem setPriority_raiseFault {i : Nat} (h : i < s.hli.prio.length) (x : OutFrame) (k : FaultKind) (l : Option LineNo)
    (n : Option Nat) (d : Nat) (test : Bool) :
    setPriority (raiseFault s k l n d test) i x = raiseFault (setPriority s i x) k l n d test := by
  by_cases masked : s.sfu.mask[faultIndex k] = true
  · simp [raiseFault, setPriority, masked]
  · cases full : s.sfu.record
    · have empty : (setPriority s i x).sfu.record = none := full
      have free : ¬ (setPriority s i x).sfu.mask[faultIndex k] = true := masked
      rw [raiseFault, if_neg masked, full, raiseFault, if_neg free, empty]
      exact setPriority_enqueuePriority (by exact h) _ x
    · simp [raiseFault, setPriority, masked, full]

/-- Settles O15: a fault by the mask, the record and the room in the lane. -/
theorem faultRecordTakesTheFirstUnmasked : Obligations.FaultRecordTakesTheFirstUnmasked := by
  refine ⟨fun s kind line call detail test => ⟨fun masked => ?masked, fun free full => ?further, fun free empty room wait => ?fills,
    fun free empty full => ?fillsWaiting⟩, fun s f rest h => ?clear, fun s f rest kinds h => ⟨_, maskOf_index kinds, ?mask⟩,
    fun s f rest kind h => ?test⟩
  case masked => rw [raiseFault, if_pos masked]; rfl
  case further =>
    obtain ⟨r, hr⟩ := Option.isSome_iff_exists.1 full
    rw [raiseFault, if_neg (by simp [free]), hr]
    rfl
  case fills =>
    rw [raiseFault, if_neg (by simp [free]), empty]
    exact enqueuePriority_room _ room wait
  case fillsWaiting =>
    rw [raiseFault, if_neg (by simp [free]), empty]
    exact enqueuePriority_wait _ (.inl full)
  case clear =>
    change execFaultClear s = _
    rw [execFaultClear, takeReplied_eq h (by decide)]
    simp [setPriority, afterReply]
  case mask =>
    change execFaultMask kinds s = _
    rw [execFaultMask, takeReplied_eq h (by decide)]
    simp [setPriority, afterReply]
  case test =>
    change execFaultTest kind s = _
    rw [execFaultTest, takeReplied_eq h (by decide)]
    refine congrArg Host.Outcome.next ((setPriority_raiseFault (by simp [afterReply]) _ _ _ _ _ _).trans ?_)
    rw [setPriority_afterReply]
    rfl

end Sys2Proof.Machine
end

section
namespace Sys2Proof.Machine

variable {s t u : State} {f : InFrame} {rest : List InFrame} {l : LineNo} {c : Call}

/-! ### The first field out of range (R10) -/

theorem firstBad_none {xs : List (Nat × Bool)} (good : ∀ p ∈ xs, p.2 = true) : firstBad xs = none := by
  induction xs with
  | nil => rfl
  | cons p xs ih => rw [firstBad, if_pos (good p (by simp)), ih fun q mem => good q (by simp [mem])]

/-- The checks of a request, in the order of their fields, against the fields' ranges. -/
structure Ranges (xs : List (Nat × Bool)) (good : Nat → Prop) : Prop where
  increasing : (xs.map Prod.fst).Pairwise (· < ·)
  agrees : ∀ p ∈ xs, p.2 = true ↔ good p.1

theorem Ranges.tail {p : Nat × Bool} {xs : List (Nat × Bool)} {good : Nat → Prop} (r : Ranges (p :: xs) good) : Ranges xs good :=
  ⟨(List.pairwise_cons.1 r.increasing).2, fun q mem => r.agrees q (by simp [mem])⟩

theorem Ranges.none {xs : List (Nat × Bool)} {good : Nat → Prop} (r : Ranges xs good) (all : ∀ i, good i) :
    firstBad xs = none := firstBad_none fun p mem => (r.agrees p mem).2 (all p.1)

theorem Ranges.first {xs : List (Nat × Bool)} {good : Nat → Prop} (r : Ranges xs good) {i : Nat}
    (mem : i ∈ xs.map Prod.fst) (bad : ¬ good i) (before : ∀ j, j < i → good j) : firstBad xs = some i := by
  induction xs with
  | nil => simp at mem
  | cons p xs ih =>
    have head := r.agrees p (by simp)
    by_cases ok : p.2 = true
    · rw [firstBad, if_pos ok]
      refine ih r.tail ((List.mem_cons.1 mem).resolve_left ?_)
      rintro rfl
      exact bad (head.1 ok)
    · rw [firstBad, if_neg ok]
      have here : i = p.1 := by
        refine (List.mem_cons.1 mem).resolve_right fun later => ok (head.2 (before p.1 ?_))
        exact (List.pairwise_cons.1 r.increasing).1 i later
      rw [here]

/-! ### LINE SET (R51, R52, R129) -/

/-- The ranges of LINE SET's fields (Table 3.5). -/
def lineSetGood (new : LineSettings) (i : Nat) : Prop :=
  match i with
  | 1 => new.answerAfter ≤ 15
  | 5 => new.answerWait.count ≤ 63
  | 6 => new.speedWait.count ≤ 63
  | 7 => new.holdover.count ≤ 63
  | 8 => new.forwardCount ≤ 4
  | 9 => 1 ≤ new.forwardSize ∧ new.forwardSize ≤ 64
  | 10 => 1 ≤ new.batchGap ∧ new.batchGap ≤ 25
  | _ => True

theorem lineSet_ranges (new : LineSettings) : Ranges [(1, decide (new.answerAfter ≤ 15)), (5, intervalOk new.answerWait),
    (6, intervalOk new.speedWait), (7, intervalOk new.holdover), (8, decide (new.forwardCount ≤ 4)),
    (9, decide (1 ≤ new.forwardSize) && decide (new.forwardSize ≤ 64)),
    (10, decide (1 ≤ new.batchGap) && decide (new.batchGap ≤ 25))] (lineSetGood new) := by
  refine ⟨?_, ?_⟩
  · simp only [List.map_cons, List.map_nil]
    decide
  · simp [lineSetGood, intervalOk_iff]

theorem lineSetGood_elsewhere (new : LineSettings) {i : Nat} (h : i ∉ [1, 5, 6, 7, 8, 9, 10]) : lineSetGood new i := by
  unfold lineSetGood
  split <;> simp at h ⊢

theorem lineSetBad_none {new : LineSettings} (all : ∀ i, lineSetGood new i) : lineSetBad new = none :=
  (lineSet_ranges new).none all

theorem lineSetBad_first {new : LineSettings} {i : Nat} (bad : ¬ lineSetGood new i) (before : ∀ j, j < i → lineSetGood new j) :
    lineSetBad new = some i :=
  (lineSet_ranges new).first (by_contra fun no => bad (lineSetGood_elsewhere new no)) bad before

theorem setPriority_setLine (s : State) (l : LineNo) (x : Line) (i : Nat) (y : OutFrame) :
    setPriority (s.setLine l x) i y = (setPriority s i y).setLine l x := rfl

theorem lineSet_eq (h : Requested s 0x10 f rest) (new : LineSettings) : exec (.lineSet new) s = .next
    (if (lineOf f).val < s.fitted then
      match lineSetBad new with
      | some i => afterReply s f rest (.refused .badValue (.index i))
      | none => setLineSettings (afterReply s f rest (.done .none)) (lineOf f) new
    else afterReply s f rest (.refused .noLine .none)) := by
  change execLineSet new s = _
  rw [execLineSet, takeReplied_eq h (by decide)]
  by_cases fitted : (lineOf f).val < s.fitted
  · have below : isFitted (afterReply s f rest .format) (lineOf f) = true := decide_eq_true fitted
    rw [if_pos fitted, if_pos below]
    cases lineSetBad new
    · exact congrArg (fun u => Host.Outcome.next (setLineSettings u (lineOf f) new)) (setPriority_afterReply s f rest _ _)
    · exact congrArg Host.Outcome.next (setPriority_afterReply s f rest _ _)
  · have past : ¬ isFitted (afterReply s f rest .format) (lineOf f) = true := fun below => fitted (of_decide_eq_true below)
    rw [if_neg fitted, if_neg past, setPriority_afterReply]

theorem setLineSettings_eq (s : State) (l : LineNo) (new : LineSettings) : setLineSettings s l new =
    s.setLine l { s.line l with settings := new, call := (s.line l).call.map fun c => changeFlow c new.flowControl } := by
  rw [setLineSettings, State.modLine_eq, State.modCall_setLine]

theorem changeFlow_eq (c : Call) (on : Bool) : changeFlow c on = { c with
    copy := { c.copy with flowControl := on }
    outputPaused := if c.copy.flowControl = true ∧ on = false then false else c.outputPaused
    terminalStopped := if c.copy.flowControl = true ∧ on = false then false else c.terminalStopped
    pendingFlow := if c.copy.flowControl = true ∧ on = false ∧ c.terminalStopped = true then
        (if c.pendingFlow = some .xoff then none else some .xon) else c.pendingFlow } := by
  by_cases same : c.copy.flowControl = on
  · subst same
    have stays (p : Prop) : ¬ (c.copy.flowControl = true ∧ c.copy.flowControl = false ∧ p) := by
      rintro ⟨yes, no, -⟩
      exact absurd (yes.symm.trans no) (by decide)
    rw [if_neg (stays _), changeFlow, if_pos rfl]
    simp
  · cases on
    · have was : c.copy.flowControl = true := by simpa using same
      simp [changeFlow, was, dueFlow_xon]
    · simp [changeFlow, same]

/-- Settles O18, by the line's number, the first bad field and the call on the line. -/
theorem lineSetLeavesTheCallsCopyButForFlowControl : Obligations.LineSetLeavesTheCallsCopyButForFlowControl := by
  intro s f rest new h
  refine ⟨fun past => ?past, fun fitted i bad before => ?bad, fun fitted good => ⟨fun none => ?bare, fun c hc => ?call⟩⟩
  case past => rw [OnlyAnswers, Completes, lineSet_eq h, if_neg (by omega)]
  case bad => 
    rw [OnlyAnswers, Completes, lineSet_eq h, if_pos fitted, lineSetBad_first bad before]
  case bare =>
    rw [Completes, lineSet_eq h, if_pos fitted, lineSetBad_none good]
    simp only [setLineSettings_eq, line_afterReply, show (s.line (lineOf f)).call = Option.none from none, Option.map_none]
  case call =>
    rw [Completes, lineSet_eq h, if_pos fitted, lineSetBad_none good]
    simp only [setLineSettings_eq, line_afterReply, show (s.line (lineOf f)).call = some c from hc, Option.map_some,
      changeFlow_eq]

/-! ### BILL RELEASE with calls held (R176, R178) -/

theorem placeRecord_attached {a : FrameNo × EntryNo} (hc : s.callOn l = some c) (ha : c.attach = some a) :
    (placeRecord s l).bst.store = s.bst.store ++ [makeRecord s l c a] ∧
      ((s.line l).st = .drop → (placeRecord s l).callOn l = none) := by
  simp only [placeRecord, hc, ha]
  refine ⟨?_, fun drop => callOn_removeCall ?_⟩
  · rw [removeCall_bst, recordPins, State.bst_modEntry]
    split
    · rw [raiseFault_bst, enqueueOrdered_bst]
    · rw [enqueueOrdered_bst]
  · rw [recordPins, State.line_modEntry]
    split <;> simp [drop]

/-- What handing free places to the held order gives: `n` calls from its head are placed (R178). -/
structure Placed (held : List LineNo) (s t : State) (n : Nat) : Prop where
  order : t.bst.held = held.drop n
  store : ∃ new, t.bst.store = s.bst.store ++ new ∧ new.length = n
  ends : t.bst.held = [] ∨ t.bst.store.length = 32
  bound : t.bst.store.length ≤ 32
  removed : ∀ l ∈ held.take n, (s.line l).st = .drop → t.callOn l = none
  others : ∀ l, l ∉ held → t.line l = s.line l

theorem placeHeld_placed {held : List LineNo} (h : s.bst.held = held) (room : s.bst.store.length ≤ 32)
    (attached : ∀ l ∈ held, ∃ c, s.callOn l = some c ∧ c.attach.isSome = true) (nodup : held.Nodup) :
    Placed held s (placeHeld held s).1 (placeHeld held s).2 := by
  induction held generalizing s with
  | nil => exact ⟨h, ⟨[], by simp [placeHeld], rfl⟩, .inl h, room, by simp, fun _ _ => rfl⟩
  | cons l rest ih =>
    obtain ⟨out, nodup⟩ := List.nodup_cons.1 nodup
    by_cases less : s.bst.store.length < Config.storeDepth
    · obtain ⟨c, hc, ha⟩ := attached l (by simp)
      obtain ⟨a, ha⟩ := Option.isSome_iff_exists.1 ha
      let u := placeRecord { s with bst := { s.bst with held := rest } } l
      have u_eq : u = placeRecord { s with bst := { s.bst with held := rest } } l := rfl
      obtain ⟨store, gone⟩ : u.bst.store = s.bst.store ++ [_] ∧ ((s.line l).st = .drop → u.callOn l = none) :=
        placeRecord_attached (s := { s with bst := { s.bst with held := rest } }) hc ha
      have heldU : u.bst.held = rest := (placeRecord_bst _ l).1
      have others (m : LineNo) (ne : m ≠ l) : u.line m = s.line m :=
        (placeRecord_local { s with bst := { s.bst with held := rest } } l less).others m ne
      have below (m : LineNo) (mem : m ∈ rest) : m ≠ l := fun same => out (same ▸ mem)
      have next : Placed rest u (placeHeld rest u).1 (placeHeld rest u).2 := by
        refine ih heldU ?_ (fun m mem => ?_) nodup
        · rw [store, List.length_append, List.length_singleton]
          exact less
        · rw [State.callOn_eq, others m (below m mem)]
          exact attached m (by simp [mem])
      have step : placeHeld (l :: rest) s = ((placeHeld rest u).1, (placeHeld rest u).2 + 1) := by
        rw [placeHeld, if_pos less, u_eq]
      rw [step]
      obtain ⟨new, grown, count⟩ := next.store
      refine ⟨by simpa using next.order, ⟨_ :: new, by rw [grown, store, List.append_assoc]; rfl, by simp [count]⟩, next.ends,
        next.bound, fun m mem drop => ?_, fun m mem => ?_⟩
      · rcases List.mem_cons.1 (by simpa using mem) with rfl | later
        · rw [State.callOn_eq, next.others m out]
          exact gone drop
        · exact next.removed m later (by rwa [others m (below m (List.mem_of_mem_take later))])
      · rw [next.others m fun inside => mem (by simp [inside]), others m fun same => mem (by simp [same])]
    · have full : s.bst.store.length = 32 := by
        simp only [Config.storeDepth] at less
        omega
      rw [placeHeld, if_neg less]
      exact ⟨h, ⟨[], by simp, rfl⟩, .inr full, room, by simp, fun _ _ => rfl⟩

/-- A BILL RELEASE of a record that is in the store (R178). -/
theorem releaseRecords_found {number : Nat} {ahead behind : List BillRecord} {r : BillRecord}
    (hs : s.bst.store = ahead ++ r :: behind) (hr : r.number = number) (ha : ∀ x ∈ ahead, x.number ≠ number) :
    releaseRecords s number =
      let p := placeHeld s.bst.held (withoutRecords s (ahead ++ [r]) behind)
      (p.1, .done (.released (ahead.length + 1) p.2)) := by
  have removed : removeRecords s (ahead.length + 1) = withoutRecords s (ahead ++ [r]) behind := by
    rw [← removeRecords_eq (by rw [hs, List.append_assoc]; rfl), List.length_append, List.length_singleton]
  have same : (withoutRecords s (ahead ++ [r]) behind).bst.held = s.bst.held :=
    congrArg (fun t => t.bst.held) (withoutRecords_cacheOnly s (ahead ++ [r]) behind)
  rw [releaseRecords, hs, findIdx?_number hr ha]
  simp only [removed, same]

/-- Settles O17: the store without the released records has room, which the held order takes from its head. -/
theorem freedPlacesGoToTheHeldOrder : Obligations.FreedPlacesGoToTheHeldOrder := by
  intro s f rest number r ahead behind h low high store named others room attached nodup
  let u := afterReply s f rest .format
  let v := withoutRecords u (ahead ++ [r]) behind
  have cache : CacheOnly { u with bst := { u.bst with store := behind } } v := withoutRecords_cacheOnly u (ahead ++ [r]) behind
  have known : v = { { u with bst := { u.bst with store := behind } } with acc := v.acc } := cache
  have bst : v.bst = { s.bst with store := behind } := by rw [known]; rfl
  have line (l : LineNo) : v.line l = s.line l := by rw [known]; exact line_afterReply s f rest .format l
  have few : v.bst.store.length ≤ 32 := by
    rw [bst]
    simp only [store, List.length_append, List.length_cons] at room
    dsimp only
    omega
  have placed : Placed s.bst.held v _ _ := placeHeld_placed (s := v) (by rw [bst]) few
    (fun l mem => by rw [State.callOn_eq, line]; exact attached l mem) nodup
  have released := releaseRecords_found (s := u) store named others
  have fed : Fed u (placeHeld s.bst.held v).1 := by
    have all := releaseRecords_fed number u
    rwa [released] at all
  have taken : Completes (.billRelease number) s _ := congrArg Host.Outcome.next
    ((takeReplied_good h (by decide) (fun s => releaseRecords s number) (billReleaseBad_none low high)))
  obtain ⟨later, prio⟩ := set_after_prefix
    (y := replyTo f (.done (.released (ahead.length + 1) (placeHeld s.bst.held v).2))) fed.prio
  obtain ⟨new, grown, count⟩ := placed.store
  refine ⟨_, (placeHeld s.bst.held v).2, taken, ?_⟩
  rw [released]
  refine ⟨?reply, placed.order, ?length, ?behind, placed.ends, placed.bound,
    fun l mem drop => placed.removed l mem (by rwa [line]), fun l mem => (placed.others l mem).trans (line l)⟩
  case reply =>
    refine (congrArg (fun p : List OutFrame => p[s.hli.prio.length]?) prio).trans ?_
    simp
  case length =>
    refine (congrArg List.length grown).trans ?_
    rw [bst, List.length_append, count]
  case behind =>
    refine ⟨new, (grown.trans ?_).symm⟩
    rw [bst]

end Sys2Proof.Machine
end

section
/-! SUPPORT. The line unit: rings, the creation of a call, the measurement of the speed. -/

namespace Sys2Proof.Machine

variable {s : State} {l : LineNo} {c : Call}

/-! ### Texts placed for a caller (R59, R60) -/

/-- The state in which the transmit buffer of the call `d` on line `l` holds other characters, texts having been dropped or not. -/
def placedFor (s : State) (l : LineNo) (d : Call) (buf : List Byte) (drops : Nat) : State :=
  { s.setLine l { s.line l with call := some { d with txBuf := buf } } with soe := { s.soe with textDrops := drops } }

theorem placeText_placed (hc : s.callOn l = some c) (slot : Fin 24) (n : Option Nat) :
    ∃ buf drops, placeText s l slot n = placedFor s l c buf drops := by
  have same : s = placedFor s l c c.txBuf s.soe.textDrops := by
    rw [placedFor, ← show (s.line l).call = some c from hc, State.setLine_line]
  unfold placeText placeChars
  rw [hc]
  by_cases empty : textChars s slot n = []
  · exact ⟨_, _, by rw [if_pos empty]; exact same⟩
  · rw [if_neg empty]
    dsimp only
    split
    · exact ⟨_, s.soe.textDrops, State.modCall_eq hc _⟩
    · refine ⟨c.txBuf, bump s.soe.textDrops, ?_⟩
      rw [placedFor, ← show (s.line l).call = some c from hc, State.setLine_line]

theorem line_placedFor (s : State) (l : LineNo) (d : Call) (buf : List Byte) (drops : Nat) :
    (placedFor s l d buf drops).line l = { s.line l with call := some { d with txBuf := buf } } :=
  State.line_setLine_self s l _

theorem placedFor_placedFor (s : State) (l : LineNo) (d : Call) (buf buf' : List Byte) (drops drops' : Nat) :
    placedFor (placedFor s l d buf drops) l { d with txBuf := buf } buf' drops' = placedFor s l d buf' drops' := by
  rw [placedFor, line_placedFor]
  exact congrArg (fun t : State => { t with soe := { s.soe with textDrops := drops' } }) (State.setLine_setLine s l _ _)

theorem placeText_placedFor (buf : List Byte) (drops : Nat) (slot : Fin 24) (n : Option Nat) :
    ∃ buf' drops', placeText (placedFor s l c buf drops) l slot n = placedFor s l c buf' drops' := by
  have there : (placedFor s l c buf drops).callOn l = some { c with txBuf := buf } := by rw [State.callOn_eq, line_placedFor]
  obtain ⟨buf', drops', eq⟩ := placeText_placed there slot n
  exact ⟨buf', drops', eq.trans (placedFor_placedFor s l c buf buf' drops drops')⟩

/-- The call once it has entered NAME (R60). -/
def named (s : State) (c : Call) : Call :=
  { c with phase := .name, nameBuf := [], pwBuf := [], fieldTimer := startTimer s.soe.fieldTimeout }

theorem startDialogue_placed (hc : s.callOn l = some c) :
    ∃ buf drops, startDialogue s l = placedFor s l (named s c) buf drops := by
  have entered : (enterName s l).callOn l = some (named s c) := by rw [enterName, State.callOn_modCall_self, hc]; rfl
  obtain ⟨buf, drops, banner⟩ := placeText_placed entered 0 none
  obtain ⟨buf', drops', prompt⟩ := placeText_placedFor (s := enterName s l) (l := l) (c := named s c) buf drops 1 none
  refine ⟨buf', drops', ?_⟩
  rw [startDialogue, banner, prompt, enterName, State.modCall_eq hc, placedFor, State.line_setLine_self, State.setLine_setLine]
  rfl

/-! ### The creation of a call (R20, R21, R36) -/

/-- The first numbers that follow any number are different. -/
theorem advance_injective (n : Nat) {a b : Nat} (less : a < b) (few : b < 49) : advanceNumber^[a] n ≠ advanceNumber^[b] n := by
  obtain ⟨b, rfl⟩ : ∃ b', b = b' + 1 := ⟨b - 1, by omega⟩
  have range := advanceNumber_range n
  have later := advance_iterate (advanceNumber n) b range (by omega)
  rw [Function.iterate_succ_apply, later]
  cases a with
  | zero =>
    rw [Function.iterate_zero_apply]
    unfold advanceNumber at range ⊢
    split <;> split <;> omega
  | succ a =>
    rw [Function.iterate_succ_apply, advance_iterate (advanceNumber n) a range (by omega)]
    split <;> split <;> omega

/-- Among one more numbers than are used, one is free, from whatever number the search starts (R21). -/
theorem freeNumber_unused (used : List Nat) (n : Nat) (few : used.length ≤ 48) : freeNumber used 48 n ∉ used := by
  obtain ⟨k, most, found, before, free⟩ := freeNumber_eq used 48 n
  rw [found]
  by_cases less : k < 48
  · exact free less
  · obtain rfl : k = 48 := by omega
    intro last
    have distinct : ((List.range 49).map fun j => advanceNumber^[j] n).Nodup := by
      refine List.Nodup.map_on (fun a ha b hb same => ?_) List.nodup_range
      rw [List.mem_range] at ha hb
      rcases Nat.lt_trichotomy a b with less | eq | more
      · exact absurd same (advance_injective n less hb)
      · exact eq
      · exact absurd same.symm (advance_injective n more ha)
    have inside : ((List.range 49).map fun j => advanceNumber^[j] n) ⊆ used := by
      intro y mem
      obtain ⟨j, less, rfl⟩ := List.mem_map.1 mem
      rcases Nat.lt_or_ge j 48 with first | final
      · exact before j first
      · obtain rfl : j = 48 := by have := List.mem_range.1 less; omega
        exact last
    have := (List.subperm_of_subset distinct inside).length_le
    simp at this
    omega

theorem nextCallNumber_unused (s : State) {m : LineNo} {d : Call} (hd : s.callOn m = some d) : d.number ≠ nextCallNumber s :=
  fun same => freeNumber_unused (usedNumbers s) s.nextCall (usedNumbers_length s)
    ((show nextCallNumber s ∈ usedNumbers s from same ▸ mem_usedNumbers hd))

/-- The line of which call `c` is a copy of, and which it comes to stand on. -/
def createdOn (s : State) (l : LineNo) (x : Line) (c : Call) : State :=
  { s.setLine l { x with call := some c, ctr := { x.ctr with callsCreated := bump x.ctr.callsCreated } } with
    nextCall := advanceNumber c.number }

/-- A new call takes a number that no call on another line has (R21). -/
theorem createCall_setLine (s : State) (l : LineNo) (x : Line) (phase : Phase) (speed : Option Speed) (copy : CallSettings) :
    ∃ n, (∀ m d, m ≠ l → s.callOn m = some d → d.number ≠ n) ∧
      createCall (s.setLine l x) l phase speed copy = createdOn s l x (Call.fresh n phase speed copy) := by
  refine ⟨nextCallNumber (s.setLine l x), fun m d ne hd => nextCallNumber_unused (s.setLine l x) (m := m) ?_, ?_⟩
  · rwa [State.callOn_eq, State.line_setLine_ne s x ne]
  · unfold createCall createdOn
    dsimp only
    rw [State.modLine_setLine, State.modCounters_setLine]
    rfl

/-- The line that carrier finds in ANSWER, once the measurement of its speed starts (R36, R38). -/
def measuring (x : Line) (dataLow : Bool) : Line :=
  { x with
    answerWait := none, carrier := true, rxLow := dataLow, zeroHeld := false, st := .speed, attempts := 0
    speedWait := startTimerAtLeastOne x.settings.speedWait, rxWait := dataLow }

/-- The line that carrier finds in ANSWER, once it is in UP at a fixed speed (R36). -/
def answeredUp (x : Line) (dataLow : Bool) : Line :=
  { x with answerWait := none, carrier := true, rxLow := dataLow, zeroHeld := false, st := .up, rxWait := false }

theorem carrierInAnswer_auto (dataLow : Bool) (auto : (s.line l).settings.speed = none) :
    carrierInAnswer s l dataLow =
      createCall (s.setLine l (measuring (s.line l) dataLow)) l .speed none (s.line l).settings.toCallSettings := by
  unfold carrierInAnswer
  simp only [auto, State.modLine_eq, State.line_setLine_self, State.setLine_setLine]
  rfl

theorem carrierInAnswer_fixed (dataLow : Bool) {v : Speed} (fixed : (s.line l).settings.speed = some v) :
    carrierInAnswer s l dataLow = startDialogue
      (createCall (s.setLine l (answeredUp (s.line l) dataLow)) l .name (some v) (s.line l).settings.toCallSettings) l := by
  unfold carrierInAnswer
  simp only [fixed, State.modLine_eq, State.line_setLine_self, State.setLine_setLine]
  rfl

theorem line_createdOn_ne {m : LineNo} (ne : m ≠ l) (x : Line) (c : Call) : (createdOn s l x c).line m = s.line m :=
  State.line_setLine_ne s _ ne

theorem line_createdOn (s : State) (l : LineNo) (x : Line) (c : Call) : (createdOn s l x c).line l =
    { x with call := some c, ctr := { x.ctr with callsCreated := bump x.ctr.callsCreated } } := State.line_setLine_self s l _

/-- Settles O21, by the state of the line and its speed setting. -/
theorem carrierInAnswerCreatesACall : Obligations.CarrierInAnswerCreatesACall := by
  intro s l low x
  refine ⟨fun answer => ?answer, fun still => congrArg Host.Outcome.next (raiseCarrier_recorded low still), ?active⟩
  case active =>
    rintro (st | st) <;> simp [Completes, exec, execCarrierArrival, raiseCarrier, show (s.line l).st = _ from st]
  have taken : Completes (.carrierArrival l low) s (carrierInAnswer s l low) := by
    simp [Completes, exec, execCarrierArrival, raiseCarrier, show (s.line l).st = _ from answer]
  cases speed : x.settings.speed with
  | none =>
    obtain ⟨n, unused, created⟩ := createCall_setLine s l (measuring x low) .speed none x.settings.toCallSettings
    rw [carrierInAnswer_auto low speed, created] at taken
    have line := line_createdOn s l (measuring x low) (Call.fresh n .speed none x.settings.toCallSettings)
    refine ⟨_, _, taken, congrArg Line.call line, unused, rfl, rfl, rfl, rfl, rfl, rfl, rfl, rfl, rfl, rfl, rfl, congrArg Line.answerWait line,
      congrArg Line.ctr line, fun m ne => line_createdOn_ne ne _ _, rfl, rfl, rfl, rfl, rfl, rfl, fun _ => ?_, nofun⟩
    exact ⟨congrArg Line.st line, rfl, rfl, congrArg Line.attempts line, congrArg Line.speedWait line, congrArg Line.rxWait line, rfl⟩
  | some v =>
    obtain ⟨n, unused, created⟩ := createCall_setLine s l (answeredUp x low) .name (some v) x.settings.toCallSettings
    have line := line_createdOn s l (answeredUp x low) (Call.fresh n .name (some v) x.settings.toCallSettings)
    obtain ⟨buf, drops, entered⟩ := startDialogue_placed (congrArg Line.call line)
    rw [carrierInAnswer_fixed low speed, created, entered] at taken
    have after := line_placedFor (createdOn s l (answeredUp x low) (Call.fresh n .name (some v) x.settings.toCallSettings)) l
      (named s (Call.fresh n .name (some v) x.settings.toCallSettings)) buf drops
    rw [line] at after
    refine ⟨_, _, taken, congrArg Line.call after, unused, rfl, rfl, rfl, rfl, rfl, rfl, rfl, rfl, rfl, rfl, rfl, congrArg Line.answerWait after,
      congrArg Line.ctr after, fun m ne => (State.line_setLine_ne _ _ ne).trans (line_createdOn_ne ne _ _), rfl, rfl, rfl, rfl, rfl, rfl,
      nofun, fun w same => ?_⟩
    obtain rfl := Option.some.inj same
    exact ⟨congrArg Line.st after, rfl, rfl, rfl⟩

/-! ### Rings and the answer (R33 to R37) -/

theorem countRing_early (low : Bool) (count : Nat)
    (early : (s.line l).settings.answerAfter = 0 ∨ count < (s.line l).settings.answerAfter) :
    countRing s l low count = s.setLine l { s.line l with
      st := .ring, ringCount := count, ringGap := some Config.ringGapSeconds, rxLow := low
      ctr := { (s.line l).ctr with rings := bump (s.line l).ctr.rings } } := by
  unfold countRing
  simp only [State.modLine_eq, State.modCounters_setLine, State.line_setLine_self]
  exact if_neg (by omega)

/-- The line that enters ANSWER at its last ring (R34). -/
def answeredLine (x : Line) (low : Bool) : Line :=
  { x with
    st := .answer, ringCount := 0, ringGap := none, rxLow := low
    answerWait := startTimerAtLeastOne x.settings.answerWait
    ctr := { x.ctr with rings := bump x.ctr.rings, answers := bump x.ctr.answers } }

theorem countRing_answered (low : Bool) (count : Nat) (on : 1 ≤ (s.line l).settings.answerAfter)
    (reached : (s.line l).settings.answerAfter ≤ count) :
    countRing s l low count =
      let t := s.setLine l (answeredLine (s.line l) low)
      if (s.line l).carrier then carrierInAnswer t l low else t := by
  unfold countRing enterAnswer
  simp only [State.modLine_eq, State.modCounters_setLine, State.line_setLine_self, State.setLine_setLine]
  rw [if_pos ⟨on, reached⟩]
  rfl

/-- The line once it is dropped (R49). -/
def droppedLine (x : Line) : Line :=
  { x with
    st := .drop, ringGap := none, answerWait := none, speedWait := none, holdover := none
    dropGuard := some Config.dropGuardSeconds, rxWait := false, zeroHeld := false
    ctr := { x.ctr with drops := bump x.ctr.drops } }

theorem dropBare_eq (s : State) (l : LineNo) : dropBare s l = s.setLine l (droppedLine (s.line l)) := by
  unfold dropBare
  simp only [State.modLine_eq, State.modCounters_setLine]
  rfl

theorem dropBare_setLine (s : State) (l : LineNo) (x : Line) : dropBare (s.setLine l x) l = s.setLine l (droppedLine x) := by
  rw [dropBare_eq, State.line_setLine_self, State.setLine_setLine]

/-- Settles O20, by the state of the line and the count of rings. -/
theorem ringsAreCountedUpToTheAnswer : Obligations.RingsAreCountedUpToTheAnswer := by
  refine ⟨fun s l low => ?_, fun s l => ?_⟩
  · intro x ring
    have fitted (less : l.val < s.fitted) : isFitted s l = true := by simp [isFitted, less]
    have run (less : l.val < s.fitted) (count : Nat) (counted : x.st = .idle ∧ s.sfu.service = .opened ∧ count = 1 ∨
        x.st = .ring ∧ count = min (x.ringCount + 1) 15) : Completes ring s (countRing s l low count) := by
      refine congrArg Host.Outcome.next ?_
      rcases counted with ⟨st, opened, rfl⟩ | ⟨st, rfl⟩
      · simp [fitted less, show (s.line l).st = _ from st, serviceOpen, opened]
      · simp [fitted less, show (s.line l).st = _ from st, x]
    have idles (h : (isFitted s l = false ∨ (x.st ≠ .idle ∧ x.st ≠ .ring)) ∨ (x.st = .idle ∧ s.sfu.service ≠ .opened)) :
        Completes ring s s := by
      refine congrArg Host.Outcome.next ?_
      rcases h with (past | ⟨notIdle, notRing⟩) | ⟨idle, closed⟩
      · exact if_pos past
      · refine (ite_eq_left_iff.2 fun _ => ?_)
        cases st : (s.line l).st with
        | idle => exact absurd st notIdle
        | ring => exact absurd st notRing
        | off | answer | speed | up | fade | drop => rfl
      · simp [show (s.line l).st = _ from idle, serviceOpen, closed]
    refine ⟨fun past => idles (.inl (.inl ?past)), fun notIdle notRing => idles (.inl (.inr ⟨notIdle, notRing⟩)),
      fun idle closed => idles (.inr ⟨idle, closed⟩), fun count less counted => ⟨fun early => ?early, fun on reached => ?answered⟩,
      fun st due => ?gap, fun no => ?still⟩
    case past => simpa [isFitted] using past
    case early => exact (run less count counted).trans (congrArg Host.Outcome.next (countRing_early low count early))
    case answered =>
      have rung := (run less count counted).trans (congrArg Host.Outcome.next (countRing_answered low count on reached))
      refine ⟨fun down => ?_, fun active => ⟨carrierInAnswer (s.setLine l (answeredLine x low)) l low, ?_, ?_⟩⟩
      · simp only [show (s.line l).carrier = false from down] at rung
        exact rung
      · refine congrArg Host.Outcome.next (show raiseCarrier (s.setLine l (answeredLine x low)) l low = _ from ?_)
        rw [raiseCarrier, State.line_setLine_self]
        rfl
      · simpa [show (s.line l).carrier = true from active] using rung
    case gap => exact congrArg Host.Outcome.next (if_pos ⟨st, (isDue_iff _).2 due⟩)
    case still => exact congrArg Host.Outcome.next (if_neg fun ⟨st, due⟩ => no.elim (· st) (· ((isDue_iff _).1 due)))
  · intro x
    refine ⟨fun st due => ?drops, fun st => congrArg Host.Outcome.next (if_neg fun h => st h.1), fun st low => ?recorded⟩
    case drops =>
      refine congrArg Host.Outcome.next ((if_pos ⟨st, (isDue_iff _).2 due⟩).trans ?_)
      exact dropBare_setLine s l { x with ctr := { x.ctr with answerFailures := bump x.ctr.answerFailures } }
    case recorded => exact congrArg Host.Outcome.next (raiseCarrier_recorded low (.inr (.inr (.inr st))))

end Sys2Proof.Machine
end

section
/-! SUPPORT. The characters of a connected call: batches and their sending, flow commands, parity, framing and BREAK. -/

namespace Sys2Proof.Machine

variable {s : State} {l : LineNo} {c : Call}

/-! ### Batches (R121 to R124) -/

/-- What the link holds once a TERM DATA frame has entered an ordered lane with room (R13, R122). -/
def dataSent (s : State) (f : OutFrame) : State :=
  { s with hli := { s.hli with
      ord := s.hli.ord ++ [f]
      congestions := if s.hli.ord.length = 47 then oneMore s.hli.congestions else s.hli.congestions } }

theorem enqueueOrdered_few (s : State) (f : OutFrame) (few : s.hli.ord.length < 48) : enqueueOrdered s f = dataSent s f := by
  unfold enqueueOrdered dataSent
  rw [if_pos (show s.hli.ord.length < Config.orderedDepth by simp only [Config.orderedDepth]; omega)]
  simp only [Config.congestedAt, bump, Config.counterMax, Nat.reduceEqDiff]

theorem batchDue_marked (hc : s.callOn l = some c) (due : c.forwardDue = true) : batchDue s l = s := by
  simp [batchDue, hc, due]

theorem batchDue_sent (hc : s.callOn l = some c) (due : c.forwardDue = false) (batch : c.batch ≠ []) (phase : c.phase ≠ .ending)
    (few : s.hli.ord.length < 48) (list : s.forwardWait = []) :
    batchDue s l = (dataSent s { tag := l.val, call := c.number, msg := .termData c.batch }).setLine l { s.line l with
      car := { (s.line l).car with termData := oneMore (s.line l).car.termData }, call := some (batchSent c) } := by
  have free : congested s = false := by
    rw [congested, decide_eq_false_iff_not, Config.congestedAt]
    omega
  let d : Call := { c with forwardDue := true, batchGap := none }
  have marked : batchDue s l = forwardBatch (s.setLine l { s.line l with call := some d }) l := by
    simp [batchDue, hc, due, State.modCall_eq hc, d]
  rw [marked, forwardBatch, if_pos ⟨free, list⟩,
    sendBatch_eq (c := d) (State.callOn_setLine_self s l _) batch phase, enqueueOrdered_setLine, enqueueOrdered_few s _ few,
    State.setLine_setLine, State.line_setLine_self]
  rfl

theorem batchDue_waits (hc : s.callOn l = some c) (due : c.forwardDue = false)
    (wait : 48 ≤ s.hli.ord.length ∨ s.forwardWait ≠ []) (new : l ∉ s.forwardWait) :
    batchDue s l = { s.setLine l { s.line l with call := some { c with forwardDue := true, batchGap := none } } with
      forwardWait := s.forwardWait ++ [l] } := by
  have busy : ¬ (congested s = false ∧ s.forwardWait = []) := by
    rintro ⟨free, empty⟩
    rcases wait with many | other
    · rw [congested, decide_eq_false_iff_not, Config.congestedAt] at free
      omega
    · exact other empty
  simp only [batchDue, hc, due, State.modCall_eq hc, forwardBatch]
  rw [if_neg (by simp), if_neg, if_neg]
  · rfl
  · exact new
  · exact busy

/-- The character appended to the call's batch, its idle timer having restarted (R120, R121, R124). -/
theorem appendBatch_eq (c : Call) (ch : Byte) :
    appendBatch c ch =
      let stops := c.copy.flowControl = true ∧ c.terminalStopped = false ∧ 47 ≤ c.batch.length
      { c with
        batch := c.batch ++ [ch], batchGap := if c.forwardDue = true then none else some c.copy.batchGap
        terminalStopped := if stops then true else c.terminalStopped
        pendingFlow := if stops then (if c.pendingFlow = some .xon then none else some .xoff) else c.pendingFlow } := by
  have flow (p : Option FlowChar) : dueFlow p .xoff = if p = some .xon then none else some .xoff := by
    rcases p with _ | _ | _ <;> rfl
  have length : Config.flowThreshold ≤ c.batch.length + 1 ↔ 47 ≤ c.batch.length := by
    rw [Config.flowThreshold]
    omega
  by_cases stops : c.copy.flowControl = true ∧ c.terminalStopped = false ∧ 47 ≤ c.batch.length
  · obtain ⟨on, going, many⟩ := stops
    simp [appendBatch, length, on, going, many, flow]
  · have kept : (c.copy.flowControl && !c.terminalStopped && decide (Config.flowThreshold ≤ (c.batch ++ [ch]).length)) = false := by
      simpa [length] using stops
    simp only [appendBatch, kept]
    rw [if_neg stops, if_neg stops]
    simp

theorem meetsForwarding_iff (d : Call) (ch : Byte) : meetsForwarding (appendBatch d ch) ch = true ↔
    d.batch.length + 1 = d.copy.forwardSize ∨ ch ∈ d.copy.forwardChars.toList.take d.copy.forwardCount := by
  simp [meetsForwarding, appendBatch, isForwarding]

theorem isFlowCommand_iff (d : Call) (ch : Byte) :
    isFlowCommand d ch = true ↔ d.copy.flowControl = true ∧ (ch = 0x11 ∨ ch = 0x13) := by
  rw [isFlowCommand, Bool.and_eq_true, Bool.or_eq_true, decide_eq_true_iff, decide_eq_true_iff]
  rfl

/-! ### Delivery to a connected call (R120) -/

theorem restartIdle_heard (s : State) (l : LineNo) (d : Call) :
    restartIdle (heard s l d) l = heard s l { d with idle := startTimer s.adm.classes[d.classNow].idleLimit } :=
  modCall_heard s l d _

theorem connectedCharacter_heard (s : State) (l : LineNo) (c : Call) (ch : Byte) : connectedCharacter (heard s l c) l c ch =
    let d := { c with idle := startTimer s.adm.classes[c.classNow].idleLimit }
    if c.copy.flowControl = true ∧ (ch = 0x11 ∨ ch = 0x13) then heard s l { d with outputPaused := decide (ch = 0x13) }
    else if c.batch.length < 64 then
      if c.batch.length + 1 = c.copy.forwardSize ∨ ch ∈ c.copy.forwardChars.toList.take c.copy.forwardCount then
        batchDue (heard s l (appendBatch d ch)) l
      else heard s l (appendBatch d ch)
    else s.setLine l { s.line l with
      rxLow := false, ctr := { (s.line l).ctr with overruns := oneMore (s.line l).ctr.overruns }, call := some d } := by
  unfold connectedCharacter storeCharacter
  dsimp only
  rw [restartIdle_heard]
  simp only [isFlowCommand_iff, meetsForwarding_iff, modCall_heard]
  refine if_congr Iff.rfl rfl (if_congr Iff.rfl rfl ?_)
  exact State.modCounters_setLine _ _ _ _

theorem hli_parityCounted (s : State) (l : LineNo) (f : DataFormat) (bits : Byte) (parity : Bool) :
    (parityCounted s l f bits parity).hli = s.hli ∧ (parityCounted s l f bits parity).adm = s.adm ∧
      (parityCounted s l f bits parity).forwardWait = s.forwardWait := by
  simp only [parityCounted]
  split <;> exact ⟨rfl, rfl, rfl⟩

theorem deliverCharacter_connected (hc : s.callOn l = some c) (phase : c.phase = .connected) (ch : Byte) :
    deliverCharacter s l ch = connectedCharacter s l c ch := by simp only [deliverCharacter, hc, phase]

/-- A character that the line of a connected call hears (R120). -/
theorem receivedCharacter_connected {k : ClassNo} (h : Hears s l c) (phase : c.phase = .connected) (now : c.classNow = k)
    (bits : Byte) (parity : Bool) :
    Completes (.receivedCharacter l bits parity true) s (
      let ch := delivered c.copy.format bits parity
      let t := parityCounted s l c.copy.format bits parity
      let d := { c with idle := startTimer s.adm.classes[k].idleLimit }
      if c.copy.flowControl = true ∧ (ch = 0x11 ∨ ch = 0x13) then heard t l { d with outputPaused := decide (ch = 0x13) }
      else if c.batch.length < 64 then
        if c.batch.length + 1 = c.copy.forwardSize ∨ ch ∈ c.copy.forwardChars.toList.take c.copy.forwardCount then
          batchDue (heard t l (appendBatch d ch)) l
        else heard t l (appendBatch d ch)
      else t.setLine l { t.line l with
        rxLow := false, ctr := { (t.line l).ctr with overruns := oneMore (t.line l).ctr.overruns }, call := some d }) := by
  have heardIt := receivedCharacter_heard h bits parity
  obtain ⟨hli, adm, list⟩ := hli_parityCounted s l c.copy.format bits parity
  rw [deliverCharacter_connected (callOn_heard _ l c) phase, connectedCharacter_heard] at heardIt
  simp only [now, adm] at heardIt
  exact heardIt

/-- Settles O35, by the kind of the character, the forwarding conditions and the room in the lane. -/
theorem connectedCharacterIsBatched : Obligations.ConnectedCharacterIsBatched := by
  intro s l c bits parity k h phase cls cmd ch s' x d flow meets stops stored sent
  have taken := receivedCharacter_connected h phase (k := k) (by rw [Call.classNow, cls]; rfl) bits parity
  obtain ⟨hli, adm, list⟩ := hli_parityCounted s l c.copy.format bits parity
  have appended : appendBatch d ch = stored := appendBatch_eq d ch
  have there : (heard s' l stored).callOn l = some stored := callOn_heard s' l stored
  have notEnding : stored.phase ≠ .ending := by
    rw [show stored.phase = .connected from phase]
    decide
  have due (plain : ¬ flow) (room : c.batch.length < 64) (m : meets) : Completes cmd s (batchDue (heard s' l stored) l) := by
    rw [if_neg plain, if_pos room, if_pos m, appended] at taken
    exact taken
  have links : (heard s' l stored).hli = s.hli := hli
  have listed : (heard s' l stored).forwardWait = s.forwardWait := list
  have on : (heard s' l stored).line l = { x with rxLow := false, call := some stored } := State.line_setLine_self s' l _
  refine ⟨fun isFlow => ?flow, fun plain full => ?full, fun plain room still => ?stored, fun plain room m notDue few empty => ?sent,
    fun plain room m notDue busy new => ?waits, fun none => ?noGap, fun runs notDue batch few empty => ?gap⟩
  case flow =>
    rw [if_pos isFlow] at taken
    exact taken
  case full =>
    rw [if_neg plain, if_neg (by omega)] at taken
    exact taken
  case stored =>
    by_cases m : meets
    · rw [← batchDue_marked there (still.resolve_left (not_not_intro m))]
      exact due plain room m
    · rw [if_neg plain, if_pos room, if_neg m, appended] at taken
      exact taken
  case sent =>
    refine (due plain room m).trans (congrArg Host.Outcome.next ?_)
    rw [batchDue_sent there notDue (by simp [stored]) notEnding (by rwa [links]) (by rwa [listed]), dataSent, links, on]
    exact State.setLine_setLine
      { s' with hli := (dataSent s { tag := l.val, call := c.number, msg := .termData stored.batch }).hli } l
      { x with rxLow := false, call := some stored } _
  case waits =>
    refine (due plain room m).trans (congrArg Host.Outcome.next ?_)
    rw [batchDue_waits there notDue (by rwa [links, listed]) (by rwa [listed]), listed, on]
    exact congrArg (fun t : State => { t with forwardWait := s.forwardWait ++ [l] }) (State.setLine_setLine s' l _ _)
  case noGap => simp [Completes, exec, execBatchGapExpiry, h.call_eq, none]
  case gap =>
    have notEnding : c.phase ≠ .ending := by simp [phase]
    refine (?_ : Completes (.batchGapExpiry l) s (batchDue s l)).trans (congrArg Host.Outcome.next ?_)
    · simp [Completes, exec, execBatchGapExpiry, h.call_eq, phase, runs]
    · exact batchDue_sent h.call_eq notDue batch notEnding few empty

/-! ### Parity and framing (R41 to R43) -/

/-- The ones of the data bits, counted over the seven or over the eight bits of the byte (R41). -/
theorem countP_masked (bits : Byte) :
    (List.range 8).countP (fun i => (bits &&& 0x7F).getLsbD i) = (List.range 7).countP fun i => bits.getLsbD i := by
  have low (i : Nat) (less : i < 7) : (bits &&& 0x7F).getLsbD i = bits.getLsbD i := by
    rw [BitVec.getLsbD_and]
    have : (0x7F : Byte).getLsbD i = true := by interval_cases i <;> rfl
    rw [this, Bool.and_true]
  have high : (bits &&& 0x7F).getLsbD 7 = false := by
    rw [BitVec.getLsbD_and]
    exact Bool.and_false _
  rw [List.range_succ, List.countP_append, List.countP_singleton, high]
  refine (Nat.add_zero _).trans (List.countP_congr fun i mem => ?_)
  rw [low i (List.mem_range.1 mem)]

/-- When the parity bit disagrees with the format, by the ones of the data bits and of the parity bit (R42). -/
theorem parityBad_iff (f : DataFormat) (bits : Byte) (parity : Bool) : parityBad f bits parity = true ↔
    let ones := (List.range 8).countP fun i => (bits &&& 0x7F).getLsbD i
    (f = .even7 ∧ (ones + (if parity = true then 1 else 0)) % 2 = 1) ∨
      (f = .odd7 ∧ (ones + (if parity = true then 1 else 0)) % 2 = 0) ∨
      (f = .mark7 ∧ parity = false) ∨ (f = .space7 ∧ parity = true) := by
  unfold parityBad
  dsimp only
  rw [countP_masked]
  generalize (List.range 7).countP (fun i => bits.getLsbD i) = ones
  have odd : (decide (ones % 2 = 1) != parity) = true ↔ (ones + (if parity = true then 1 else 0)) % 2 = 1 := by
    cases parity with
    | false => simp
    | true => simp; omega
  have even : (!(decide (ones % 2 = 1) != parity)) = true ↔ (ones + (if parity = true then 1 else 0)) % 2 = 0 := by
    cases parity with
    | false => simp
    | true => simp; omega
  cases f with
  | even7 => exact odd.trans (by simp)
  | odd7 => exact even.trans (by simp)
  | mark7 | space7 | none8 => simp

theorem dataBits_eq (f : DataFormat) (bits : Byte) : dataBits f bits = if f = .none8 then bits else bits &&& 0x7F := by
  cases f <;> rfl

/-- A ready receiver, a zero character that is held, and the line's counted framing error (R43). -/
def framed (x : Line) : Line := { x with ctr := { x.ctr with framingErrors := oneMore x.ctr.framingErrors } }

theorem countFraming_setLine (s : State) (l : LineNo) (x : Line) : countFraming (s.setLine l x) l = s.setLine l (framed x) :=
  State.modCounters_setLine s l x _

theorem receivedCharacter_low (hc : s.callOn l = some c) (up : (s.line l).st = .up) (wait : (s.line l).rxWait = false)
    (zero : (s.line l).zeroHeld = false) (bits : Byte) (parity : Bool) :
    Completes (.receivedCharacter l bits parity false) s (lowStop s l (dataBits c.copy.format bits)) := by
  simp [Completes, exec, execReceivedCharacter, hc, up, wait, zero]

theorem receivedCharacter_notReady (hc : s.callOn l = some c)
    (no : ¬ ((s.line l).st = .up ∧ (s.line l).rxWait = false ∧ (s.line l).zeroHeld = false)) (bits : Byte) (parity stop : Bool) :
    Completes (.receivedCharacter l bits parity stop) s s := by
  simp only [Completes, exec, execReceivedCharacter, hc]
  rw [if_neg no]

/-- Outside UP, or with no zero character held, neither its end nor a BREAK can come. -/
theorem zeroCharacter_none (no : (s.line l).st ≠ .up ∨ (s.line l).zeroHeld = false) :
    Completes (.zeroCharacterEnded l) s s ∧ Completes (.breakSeen l) s s := by
  have not : ¬ ((s.line l).st = .up ∧ (s.line l).zeroHeld = true) := by
    rintro ⟨up, held⟩
    exact no.elim (· up) fun free => by simp [free] at held
  exact ⟨congrArg Host.Outcome.next (if_neg not), congrArg Host.Outcome.next (if_neg not)⟩

/-- Settles O36, by the stop bit, the data bits and the state of the receiver. -/
theorem parityAndFramingErrorsAreCounted : Obligations.ParityAndFramingErrorsAreCounted := by
  intro s l c bits hc x ready ones framed' data
  refine ⟨fun ⟨up, wait, zero⟩ phase noFlow room size none parity => ?delivered, fun ⟨up, wait, zero⟩ some parity => ?low,
    fun ⟨up, wait, zero⟩ none parity => ?zero, fun no => receivedCharacter_notReady hc no bits, fun up held => ?ended,
    fun up held => ⟨_, ?rise, rfl, ?noBreak, ?noEnd⟩, zeroCharacter_none⟩
  case low => 
    refine (receivedCharacter_low hc up wait zero bits parity).trans (congrArg Host.Outcome.next ?_)
    rw [dataBits_eq, lowStop, if_neg some]
    exact countFraming_setLine s l _
  case zero =>
    refine (receivedCharacter_low hc up wait zero bits parity).trans (congrArg Host.Outcome.next ?_)
    rw [dataBits_eq, lowStop, if_pos none]
    rfl
  case ended => exact congrArg Host.Outcome.next ((if_pos ⟨up, held⟩).trans (countFraming_setLine s l _))
  case rise => exact congrArg Host.Outcome.next ((if_pos ⟨up, held⟩).trans (State.modCounters_setLine s l _ _))
  case noBreak => exact (zeroCharacter_none (.inr (by rw [State.line_setLine_self]))).2
  case noEnd => exact (zeroCharacter_none (.inr (by rw [State.line_setLine_self]))).1
  case delivered =>
    intro wrong
    have taken := receivedCharacter_connected (k := c.classNow) ⟨hc, up, wait, zero⟩ phase rfl bits parity
    rw [if_neg (by simp [noFlow]), if_pos room, if_neg (by simp [none, size])] at taken
    refine ⟨_, _, taken, fun m ne => ?_, callOn_heard _ _ _, fun bad => ?_, fun good => ?_⟩
    · rw [heard_othersKept _ l _ m ne, parityCounted_othersKept s l _ bits parity m ne]
    · have counted := (parityBad_iff c.copy.format bits parity).2 bad
      simp [delivered, parityCounted, heard, counted, appendBatch, x]
    · have clean : parityBad c.copy.format bits parity = false := by
        simpa only [Bool.not_eq_true] using mt (parityBad_iff c.copy.format bits parity).1 good
      simp [delivered, parityCounted, heard, clean, appendBatch, x, data]

/-! ### BREAK and credit (R43, R44, R126, R132) -/

theorem grantTest_small (hc : s.callOn l = some c) (small : c.phase = .connected → 256 - c.txBuf.length - c.credit < 64) :
    grantTest s l = s := by
  have no : ¬ (c.phase = .connected ∧ Config.creditLeast ≤ Config.transmitDepth - c.txBuf.length - c.credit) := by
    rintro ⟨phase, many⟩
    have := small phase
    simp only [Config.creditLeast, Config.transmitDepth] at many
    omega
  simp only [grantTest, hc]
  rw [if_neg no]

theorem State.modCall_setLine_some {x : Line} (h : x.call = some c) (s : State) (l : LineNo) (f : Call → Call) :
    (s.setLine l x).modCall l f = s.setLine l { x with call := some (f c) } := by
  rw [State.modCall_setLine, h]
  rfl

theorem placeText_setLine {x : Line} (h : x.call = some c) (s : State) (l : LineNo) (slot : Fin 24)
    (room : c.txBuf.length + (slotText s slot).length ≤ 256) :
    placeText (s.setLine l x) l slot = s.setLine l { x with call := some { c with txBuf := c.txBuf ++ slotText s slot } } := by
  rw [placeText_room (s := s.setLine l x) slot (by rwa [State.line_setLine_self]) room, State.line_setLine_self,
    State.setLine_setLine]
  rfl

/-- A grant of the free space that is not yet granted (R126). -/
theorem grantTest_setLine {x : Line} (h : x.call = some c) (l : LineNo) (phase : c.phase = .connected)
    (many : c.txBuf.length + c.credit ≤ 192) (room : s.hli.prio.length < 16) (empty : s.hli.prioWait = []) :
    grantTest (s.setLine l x) l =
      (sendsPriority s [{ tag := l.val, call := c.number, msg := .credit (256 - c.txBuf.length - c.credit) }]).setLine l
        { x with call := some { c with credit := 256 - c.txBuf.length } } := by
  have there : (s.setLine l x).callOn l = some c := (State.callOn_setLine_self s l x).trans h
  have least : Config.creditLeast ≤ Config.transmitDepth - c.txBuf.length - c.credit := by
    simp only [Config.creditLeast, Config.transmitDepth]
    omega
  have whole : c.credit + (Config.transmitDepth - c.txBuf.length - c.credit) = 256 - c.txBuf.length := by
    simp only [Config.transmitDepth]
    omega
  simp only [grantTest, there]
  rw [if_pos ⟨phase, least⟩, callFrame_eq there, enqueuePriority_setLine _ _ _ _ rfl, enqueuePriority_room _ room empty,
    State.modCall_setLine_some h, whole]
  rfl

/-- A BREAK that reaches a connected call before whose ATTENTION nothing waits (R132). -/
theorem connectedBreak_room {x : Line} {k : ClassNo} (h : x.call = some c) (now : c.classNow = k) (empty : s.hli.prioWait = [])
    (room : s.hli.prio.length < 16) :
    let d := { c with idle := startTimer s.adm.classes[k].idleLimit }
    let t := (sendsPriority s [{ tag := l.val, call := c.number, msg := .attention }]).setLine l
      { x with car := { x.car with attentions := oneMore x.car.attentions }, call := some d }
    connectedBreak (s.setLine l x) l c = if c.copy.attentionFlush = true then attentionFlush t l else t := by
  subst now
  have restart : restartIdle (s.setLine l x) l =
      s.setLine l { x with call := some { c with idle := startTimer s.adm.classes[c.classNow].idleLimit } } :=
    State.modCall_setLine_some h s l _
  unfold connectedBreak
  dsimp only
  rw [restart]
  have new : attentionWaits (s.setLine l
      { x with call := some { c with idle := startTimer s.adm.classes[c.classNow].idleLimit } }) l c = false := by
    simp [attentionWaits, empty]
  rw [new, callFrame_eq (State.callOn_setLine_self s l _), enqueuePriority_setLine _ _ _ _ rfl,
    enqueuePriority_room _ room empty]
  simp only [Bool.false_eq_true, if_false, State.modCarriage_setLine]
  rfl

theorem breakSeen_delivered (up : (s.line l).st = .up) (held : (s.line l).zeroHeld = true) :
    Completes (.breakSeen l) s (deliverBreak (s.setLine l { s.line l with
      zeroHeld := false, rxWait := true, rxLow := true, ctr := { (s.line l).ctr with breaks := oneMore (s.line l).ctr.breaks } }) l) :=
  congrArg Host.Outcome.next ((if_pos ⟨up, held⟩).trans
    (congrArg (deliverBreak · l) (State.modCounters_setLine s l _ _)))

/-- Settles O37, by the phase of the call and, in CONNECTED, by the flush and the credit outstanding. -/
theorem breakActsByPhase : Obligations.BreakActsByPhase := by
  intro s l c hc up held x broken restarted noted attention
  have seen := breakSeen_delivered up held
  let t := s.setLine l broken
  have call : broken.call = some c := hc
  have there : t.callOn l = some c := (State.callOn_setLine_self s l broken).trans hc
  have restart : restartField t l = s.setLine l { broken with call := some restarted } := State.modCall_setLine_some call s l _
  refine ⟨fun phase room => ?name, fun phase room => ?password, fun notName notPassword notConnected => ?other, fun k phase cls empty few => ?connected⟩
  case name =>
    refine seen.trans (congrArg Host.Outcome.next ?_)
    have cleared : deliverBreak t l = clearName (restartField t l) l := by simp only [deliverBreak, there, phase]
    rw [cleared, restart, clearName, State.modCall_setLine_some rfl]
    exact placeText_setLine (c := { restarted with nameBuf := [] }) rfl s l 1 room
  case password =>
    refine seen.trans (congrArg Host.Outcome.next ?_)
    have cleared : deliverBreak t l = clearPasswordField (restartField t l) l := by simp only [deliverBreak, there, phase]
    rw [cleared, restart, clearPasswordField, State.modCall_setLine_some rfl]
    exact placeText_setLine (c := { restarted with pwBuf := [] }) rfl s l 2 room
  case other =>
    refine seen.trans (congrArg Host.Outcome.next (show deliverBreak t l = t from ?_))
    rw [deliverBreak, there]
    cases phase : c.phase with
    | name => exact absurd phase notName
    | password => exact absurd phase notPassword
    | connected => exact absurd phase notConnected
    | speed | lookup | queued | opening | ending | held => simp only [phase]
  case connected =>
    let d := { c with idle := startTimer s.adm.classes[k].idleLimit }
    let u := (sendsPriority s [attention]).setLine l { noted with call := some d }
    have taken : Completes (.breakSeen l) s (if c.copy.attentionFlush = true then attentionFlush u l else u) := by
      refine seen.trans (congrArg Host.Outcome.next ?_)
      have heardIt : deliverBreak t l = connectedBreak t l c := by simp only [deliverBreak, there, phase]
      rw [heardIt]
      exact connectedBreak_room call (by rw [Call.classNow, cls]; rfl) empty (by omega)
    have flushed : attentionFlush u l = grantTest ((sendsPriority s [attention]).setLine l
        { noted with call := some { d with txBuf := [], lastCR := false } }) l := by
      rw [attentionFlush, State.modCall_setLine_some rfl]
    refine ⟨fun off => ?keep, fun on many => ?noGrant, fun on little => ?grant⟩
    case keep =>
      rw [if_neg (by simp [off])] at taken
      exact taken
    case noGrant =>
      rw [if_pos on, flushed, grantTest_small (State.callOn_setLine_self _ l _)] at taken
      · exact taken
      · intro _
        dsimp only [List.length_nil, d]
        omega
    case grant =>
      have granted := grantTest_setLine (s := sendsPriority s [attention])
        (x := { noted with call := some { d with txBuf := [], lastCR := false } }) rfl l phase
        (by simpa [d] using little) (by simp [sendsPriority]; omega) empty
      rw [if_pos on, flushed, granted] at taken
      refine taken.trans (congrArg Host.Outcome.next ?_)
      simp [sendsPriority, d, attention]

end Sys2Proof.Machine
end

section
/-! SUPPORT. The transmitter and the drain of a call in ENDING. -/

namespace Sys2Proof.Machine

variable {s : State} {l : LineNo} {c : Call} {x : Line}

/-! ### What a free transmitter is offered (R127) -/

theorem transmit_setLine (h : x.call = some c) (s : State) (l : LineNo) (ch : Byte) :
    transmit (s.setLine l x) l ch = s.setLine l { x with txChar := some (sentAs c.copy ch) } := by
  rw [transmit, State.modLine_setLine, h]
  rfl

/-- The call changes and its line takes a character in the call's format (R45, R127). -/
theorem transmit_modCall (h : x.call = some c) (s : State) (l : LineNo) (f : Call → Call) (copy : (f c).copy = c.copy) (ch : Byte) :
    transmit ((s.setLine l x).modCall l f) l ch =
      s.setLine l { x with txChar := some (sentAs c.copy ch), call := some (f c) } := by
  rw [State.modCall_setLine_some h, transmit_setLine rfl, copy]

theorem offerOutput_xon (h : x.call = some c) (flow : c.pendingFlow = some .xon) (s : State) (l : LineNo) :
    offerOutput (s.setLine l x) l =
      s.setLine l { x with txChar := some (sentAs c.copy 0x11), call := some { c with pendingFlow := none } } := by
  have there : (s.setLine l x).callOn l = some c := (State.callOn_setLine_self s l x).trans h
  simp only [offerOutput, there, flow]
  exact transmit_modCall h s l (fun c => { c with pendingFlow := none }) rfl _

theorem offerOutput_xoff (h : x.call = some c) (flow : c.pendingFlow = some .xoff) (s : State) (l : LineNo) :
    offerOutput (s.setLine l x) l = s.setLine l { x with
      txChar := some (sentAs c.copy 0x13), call := some { c with pendingFlow := none }
      car := { x.car with xoffSent := oneMore x.car.xoffSent } } := by
  have there : (s.setLine l x).callOn l = some c := (State.callOn_setLine_self s l x).trans h
  simp only [offerOutput, there, flow]
  exact (congrArg (fun t : State => t.modCarriage l fun k => { k with xoffSent := bump k.xoffSent })
    (transmit_modCall h s l (fun c => { c with pendingFlow := none }) rfl chXOFF)).trans (State.modCarriage_setLine s l _ _)

theorem offerOutput_paused (h : s.callOn l = some c) (flow : c.pendingFlow = none) (paused : c.outputPaused = true) :
    offerOutput s l = s := by
  simp [offerOutput, h, flow, paused]

theorem offerOutput_text (h : s.callOn l = some c) (flow : c.pendingFlow = none) (runs : c.outputPaused = false) :
    offerOutput s l = offerText s l c := by
  simp [offerOutput, h, flow, runs]

theorem offerText_emission {ch : Byte} {rest : List Byte} (h : x.call = some c) (phase : c.phase = .connected ∨ c.phase = .ending)
    (emission : c.emission = ch :: rest) (s : State) (l : LineNo) :
    offerText (s.setLine l x) l c =
      s.setLine l { x with txChar := some (sentAs c.copy ch), call := some { c with emission := rest } } := by
  have emits : emitting c = true := by
    rcases phase with phase | phase <;> simp [emitting, phase, emission]
  unfold offerText
  rw [emits, emission]
  exact transmit_modCall h s l (fun c => { c with emission := rest }) rfl _

theorem offerText_notice {text : List Byte} {rest : List (List Byte)} (h : x.call = some c) (phase : c.phase = .connected)
    (emission : c.emission = []) (point : c.txBuf = [] ∨ c.lineEnd = true) (notices : c.notices = text :: rest)
    (s : State) (l : LineNo) :
    offerText (s.setLine l x) l c = s.setLine l { x with
      txChar := some (sentAs c.copy 0x0D)
      call := some { c with notices := rest, emission := 0x0A :: text ++ [0x0D, 0x0A], lineEnd := true } } := by
  have emits : emitting c = false := by simp [emitting, emission]
  have inserts : (decide (c.phase = .connected) && insertionPoint c) = true := by
    simpa [insertionPoint, phase] using point
  unfold offerText
  rw [emits, emission, inserts, notices]
  exact transmit_modCall h s l
    (fun c => { c with notices := rest, emission := chLF :: text ++ [chCR, chLF], lineEnd := true }) rfl _

/-- Where neither a text in emission nor a notice is offered, the transmit buffer is. -/
theorem offerText_buffer (emission : c.emission = [] ∨ (c.phase ≠ .connected ∧ c.phase ≠ .ending))
    (notices : c.phase = .connected → ¬ (c.txBuf = [] ∨ c.lineEnd = true) ∨ c.notices = []) (s : State) (l : LineNo) :
    (∀ ch rest, c.txBuf = ch :: rest → offerText s l c = offerBuffer s l ch rest) ∧
      (c.txBuf = [] → offerText s l c = s) := by
  have emits : emitting c = false := by
    rcases emission with none | ⟨a, b⟩
    · simp [emitting, none]
    · simp [emitting, a, b]
  have noNotice : (decide (c.phase = .connected) && insertionPoint c) = false ∨ c.notices = [] := by
    by_cases phase : c.phase = .connected
    · exact (notices phase).imp_left fun no => by simpa [insertionPoint, phase] using no
    · exact .inl (by simp [phase])
  refine ⟨fun ch rest buf => ?_, fun buf => ?_⟩
  all_goals
    rcases noNotice with inserts | none
    · cases texts : c.notices <;> simp only [offerText, emits, inserts, texts, buf]
    · cases inserts : (decide (c.phase = .connected) && insertionPoint c) <;> simp only [offerText, emits, inserts, none, buf]

/-- The state once the head character of a connected call's transmit buffer has been taken, before the grant test (R127, R131). -/
theorem offerBuffer_connected {ch : Byte} {rest : List Byte} (h : x.call = some c) (phase : c.phase = .connected) (s : State)
    (l : LineNo) :
    offerBuffer (s.setLine l x) l ch rest = grantTest (s.setLine l { x with
      txChar := some (sentAs c.copy ch)
      call := some { c with txBuf := rest, lineEnd := c.lastCR && decide (ch = 0x0A), lastCR := decide (ch = 0x0D) } }) l := by
  have taken := transmit_modCall h s l (fun c => if c.phase = .connected then
      { c with txBuf := rest, lineEnd := c.lastCR && decide (ch = chLF), lastCR := decide (ch = chCR) }
    else { c with txBuf := rest }) (by rw [if_pos phase]) ch
  rw [if_pos phase] at taken
  exact congrArg (grantTest · l) taken

theorem offerBuffer_other {ch : Byte} {rest : List Byte} (h : x.call = some c) (phase : c.phase ≠ .connected) (s : State)
    (l : LineNo) :
    offerBuffer (s.setLine l x) l ch rest =
      s.setLine l { x with txChar := some (sentAs c.copy ch), call := some { c with txBuf := rest } } := by
  have taken := transmit_modCall h s l (fun c => if c.phase = .connected then
      { c with txBuf := rest, lineEnd := c.lastCR && decide (ch = chLF), lastCR := decide (ch = chCR) }
    else { c with txBuf := rest }) (by rw [if_neg phase]) ch
  rw [if_neg phase] at taken
  exact (congrArg (grantTest · l) taken).trans
    (grantTest_small (State.callOn_setLine_self s l _) fun connected => absurd connected phase)

/-! ### The drain (R167, R168) -/

theorem drainCheck_notEnding (h : s.callOn l = some c) (no : ¬ (c.phase = .ending ∧ c.drain.isSome = true)) :
    drainCheck s l = s := by
  simp only [drainCheck, h]
  rw [if_neg no]

/-- The call once GOODBYE has been placed, if it was its turn (R168). -/
def goodbyed (s : State) (c : Call) : Call :=
  if c.goodbyePending = true ∧ c.txBuf = [] ∧ c.emission = [] then { c with goodbyePending := false, txBuf := slotText s 14 } else c

theorem placeGoodbye_setLine (h : x.call = some c) (s : State) (l : LineNo) (fits : (slotText s 14).length ≤ 256) :
    placeGoodbye (s.setLine l x) l = s.setLine l { x with call := some (goodbyed s c) } := by
  have there : (s.setLine l x).callOn l = some c := (State.callOn_setLine_self s l x).trans h
  simp only [placeGoodbye, there, goodbyed]
  split
  · next turn =>
    obtain ⟨_, buf, _⟩ := turn
    rw [State.modCall_setLine_some h, placeText_setLine (c := { c with goodbyePending := false }) rfl s l 14 (by simpa [buf] using fits)]
    simp [buf]
  · rw [← h]

/-- While a drain runs GOODBYE is placed in its turn; what is still being sent keeps the drain going (R167). -/
theorem drainCheck_draining (h : x.call = some c) (s : State) (l : LineNo) (fits : (slotText s 14).length ≤ 256)
    (phase : c.phase = .ending) (drain : c.drain.isSome = true) :
    drainCheck (s.setLine l x) l =
      let d := goodbyed s c
      let t := s.setLine l { x with call := some d }
      if d.txBuf = [] ∧ d.emission = [] ∧ d.goodbyePending = false ∧ x.txChar = none then drainOver t l else t := by
  have there : (s.setLine l x).callOn l = some c := (State.callOn_setLine_self s l x).trans h
  simp only [drainCheck, there]
  rw [if_pos ⟨phase, drain⟩, placeGoodbye_setLine h s l fits]
  simp only [State.callOn_setLine_self, State.line_setLine_self]

/-- The CLOSED of a call whose strands are complete enters the ordered lane (R172). -/
theorem settle_closed (h : x.call = some c) (s : State) (l : LineNo) (phase : c.phase = .ending) (released : c.released = true)
    (attach : c.attach.isSome = true) (due : c.closedDue = true) (unsent : c.closedSent = false) (batch : c.batch = [])
    (room : s.hli.ord.length < 47) :
    settle (s.setLine l x) l =
      (sendsOrdered s { tag := l.val, call := c.number, msg := .closed c.endCause c.meter.charge }).setLine l
        { x with call := some { c with closedSent := true } } := by
  have there : (s.setLine l x).callOn l = some c := (State.callOn_setLine_self s l x).trans h
  have attached : c.attach ≠ none := by simpa [Option.isSome_iff_ne_none] using attach
  simp only [settle, there]
  rw [if_pos ⟨phase, released⟩, if_neg attached, if_pos due, if_pos ⟨unsent, batch⟩, callFrame_eq there,
    State.modCall_setLine_some h, enqueueOrdered_setLine, enqueueOrdered_room _ room]
  rfl

/-- A line that drops while its call ends: the call is released there (R50, R167). -/
def releasedAt (c : Call) : Call :=
  { c with
    residue := if c.goodbyePending = true then c.residue + c.txBuf.length else c.residue
    txBuf := [], emission := [], drain := none, goodbyePending := false, released := true }

theorem dropLine_setLine (h : x.call = some c) (ended : c.endCause.isSome = true) (s : State) (l : LineNo) :
    dropLine (s.setLine l x) l = settle (s.setLine l { droppedLine x with call := some (releasedAt c) }) l := by
  have call : (droppedLine x).call = some c := h
  have there : (s.setLine l (droppedLine x)).callOn l = some c := (State.callOn_setLine_self s l _).trans call
  simp only [dropLine, dropBare_setLine, there]
  rw [if_pos ended, discardOutput, State.modCall_setLine_some call, State.modCall_setLine_some rfl]
  rfl

/-- A re-sign-on is allowed after the call (R168, R173). -/
theorem mayResign_iff (s : State) (l : LineNo) : mayResign s l = true ↔
    (s.line l).disablePending = false ∧ l.val < s.fitted ∧ s.sfu.service = .opened := by
  simp [mayResign, isFitted, serviceOpen, and_assoc]

/-- The end of a drain: the line stays UP for a re-sign-on after a host close, or drops (R167, R168). -/
theorem drainOver_setLine (h : x.call = some c) (ended : c.endCause.isSome = true) (s : State) (l : LineNo) :
    drainOver (s.setLine l x) l =
      if c.endCause = some .hostClose ∧ c.copy.afterClose = .resign ∧ x.disablePending = false ∧ l.val < s.fitted ∧
          s.sfu.service = .opened then
        settle (s.setLine l { x with call := some { c with drain := none, goodbyePending := false, released := true } }) l
      else settle (s.setLine l { droppedLine x with call := some (releasedAt c) }) l := by
  have there : (s.setLine l x).callOn l = some c := (State.callOn_setLine_self s l x).trans h
  simp only [drainOver, there, mayResign_iff, State.line_setLine_self, State.modCall_setLine_some h, dropLine_setLine h ended]
  rfl

/-! ### The transmitter (R45, R127) -/

theorem onesOf_masked (ch : Byte) : onesOf (ch &&& 0x7F) = (List.range 7).countP fun i => ch.getLsbD i := by
  rw [← countP_masked, onesOf, ← List.map_coe_finRange_eq_range, List.countP_map]
  rfl

/-- The format of a character as it is sent (R45). -/
theorem sentAs_format (copy : CallSettings) (ch : Byte) :
    let sent := sentAs copy ch
    let ones := (List.range 7).countP fun i => ch.getLsbD i
    sent.stopBits = copy.stopBits ∧ (copy.format = .none8 → sent.data = ch ∧ sent.parity = none) ∧
      (copy.format ≠ .none8 → sent.data = ch &&& 0x7F) ∧
      (copy.format = .even7 → ∃ p, sent.parity = some p ∧ (ones + if p = true then 1 else 0) % 2 = 0) ∧
      (copy.format = .odd7 → ∃ p, sent.parity = some p ∧ (ones + if p = true then 1 else 0) % 2 = 1) ∧
      (copy.format = .mark7 → sent.parity = some true) ∧ (copy.format = .space7 → sent.parity = some false) := by
  intro sent ones
  have even : (ones + if decide (ones % 2 = 1) = true then 1 else 0) % 2 = 0 := by
    by_cases one : ones % 2 = 1 <;> (simp [one]; omega)
  have odd : (ones + if decide (ones % 2 = 0) = true then 1 else 0) % 2 = 1 := by
    by_cases zero : ones % 2 = 0 <;> (simp [zero]; omega)
  refine ⟨rfl, fun f => ?none8, fun f => ?low, fun f => ⟨decide (ones % 2 = 1), ?even7, even⟩,
    fun f => ⟨decide (ones % 2 = 0), ?odd7, odd⟩, fun f => ?mark7, fun f => ?space7⟩
  case none8 => simp [sent, sentAs, f, dataBits, sentParity]
  case low => simp [sent, sentAs, dataBits_eq, f]
  case even7 | odd7 =>
    have masked : onesOf (ch &&& 127#8) = ones := onesOf_masked ch
    simp [sent, sentAs, dataBits_eq, f, sentParity, masked]
  case mark7 | space7 => simp [sent, sentAs, f, sentParity]

theorem transmitterFree_down (down : (s.line l).st ≠ .up) :
    Completes (.transmitterFree l) s (s.setLine l { s.line l with txChar := none }) := by
  refine congrArg Host.Outcome.next ((if_neg ?_).trans rfl)
  rw [State.modLine_eq, State.line_setLine_self]
  exact down

theorem transmitterFree_up (up : (s.line l).st = .up) : Completes (.transmitterFree l) s
    (drainCheck (offerOutput (s.setLine l { s.line l with txChar := none }) l) l) := by
  refine congrArg Host.Outcome.next ((if_pos ?_).trans rfl)
  rw [State.modLine_eq, State.line_setLine_self]
  exact up

/-- Settles O38, by the phase of the call and the order of the offers. -/
theorem transmitterTakesTheFirstOffer : Obligations.TransmitterTakesTheFirstOffer := by
  refine ⟨sentAs_format, fun s l => ?_⟩
  intro x quiet
  refine ⟨?_, fun c hc up => ?_⟩
  · rintro (down | none)
    · exact transmitterFree_down down
    · by_cases up : x.st = .up
      · refine (transmitterFree_up up).trans (congrArg Host.Outcome.next ?_)
        have there : quiet.callOn l = Option.none := (State.callOn_setLine_self s l _).trans none
        rw [offerOutput, there]
        dsimp only
        rw [drainCheck, there]
      · exact transmitterFree_down up
  · intro takes insertion
    let y : Line := { x with txChar := none }
    have call : y.call = some c := hc
    have there : quiet.callOn l = some c := (State.callOn_setLine_self s l y).trans call
    have run : Completes (.transmitterFree l) s (drainCheck (offerOutput quiet l) l) := transmitterFree_up up
    refine ⟨fun phase => ?_, fun ending caused fits => ?_⟩
    · have offered {t : State} {d : Call} (e : offerOutput quiet l = t) (on : t.callOn l = some d) (same : d.phase = c.phase) :
          Completes (.transmitterFree l) s t := by
        rw [e, drainCheck_notEnding on fun h => phase (same ▸ h.1)] at run
        exact run
      have text (flow : c.pendingFlow = none) (runs : c.outputPaused = false) : offerOutput quiet l = offerText quiet l c :=
        offerOutput_text there flow runs
      refine ⟨fun flow => offered (offerOutput_xon call flow s l) (State.callOn_setLine_self s l _) rfl,
        fun flow => offered (offerOutput_xoff call flow s l) (State.callOn_setLine_self s l _) rfl,
        fun flow paused => offered (offerOutput_paused there flow paused) there rfl,
        fun flow runs connected => ⟨fun ch rest emission => ?_, fun t rest emission point notices => ?_,
          fun ch rest emission none buf => ?_, fun emission none buf => ?_⟩,
        fun flow runs other => ⟨fun ch rest buf => ?_, fun buf => ?_⟩⟩
      · exact offered ((text flow runs).trans (offerText_emission call (.inl connected) emission s l))
          (State.callOn_setLine_self s l _) rfl
      · exact offered ((text flow runs).trans (offerText_notice call connected emission point notices s l))
          (State.callOn_setLine_self s l _) rfl
      · let d := { c with txBuf := rest, lineEnd := c.lastCR && decide (ch = 0x0A), lastCR := decide (ch = 0x0D) }
        have taken : offerOutput quiet l =
            grantTest (s.setLine l { x with txChar := some (sentAs c.copy ch), call := some d }) l := by
          rw [text flow runs, (offerText_buffer (.inl emission) (fun _ => none) _ _).1 ch rest buf]
          exact offerBuffer_connected call connected s l
        refine ⟨fun many => ?_, fun few room empty => ?_⟩
        · refine offered (taken.trans (grantTest_small (State.callOn_setLine_self s l _) fun _ => ?_)) (State.callOn_setLine_self s l _) rfl
          dsimp only [d]
          omega
        · exact offered (taken.trans (grantTest_setLine (c := d) rfl l connected few room empty)) (State.callOn_setLine_self _ l _) rfl
      · refine offered ((text flow runs).trans ?_) there rfl
        exact (offerText_buffer (.inl emission) (fun _ => .inr none) _ _).2 buf
      · refine offered ((text flow runs).trans ?_) (State.callOn_setLine_self s l _) rfl
        rw [(offerText_buffer (.inr ⟨other, phase⟩) (fun connected => absurd connected other) _ _).1 ch rest buf]
        exact offerBuffer_other call other s l
      · refine offered ((text flow runs).trans ?_) there rfl
        exact (offerText_buffer (.inr ⟨other, phase⟩) (fun connected => absurd connected other) _ _).2 buf
    · intro turn goodbye
      have agrees {d : Call} (same : d.drain = c.drain) : (if d.drain.isSome = true then goodbyed s d else d) = goodbye d := by
        rw [same]
        by_cases drain : c.drain.isSome = true
        · rw [if_pos drain]
          exact if_congr ⟨fun h => ⟨drain, h⟩, And.right⟩ rfl rfl
        · rw [if_neg drain]
          exact (if_neg fun h => drain h.1).symm
      have sending {z : Line} {d : Call} (e : offerOutput quiet l = s.setLine l z) (on : z.call = some d)
          (same : d.phase = c.phase ∧ d.drain = c.drain) (busy : z.txChar ≠ none) :
          Completes (.transmitterFree l) s (s.setLine l { z with call := some (goodbye d) }) := by
        rw [← agrees same.2]
        rw [e] at run
        by_cases drain : d.drain.isSome = true
        · rw [drainCheck_draining on s l fits (same.1.trans ending) drain] at run
          dsimp only at run
          rw [if_neg fun h => busy h.2.2.2] at run
          rwa [if_pos drain]
        · rw [drainCheck_notEnding ((State.callOn_setLine_self s l z).trans on) fun h => drain h.2] at run
          rw [if_neg drain, ← on]
          exact run
      have text (flow : c.pendingFlow = none) (runs : c.outputPaused = false) : offerOutput quiet l = offerText quiet l c :=
        offerOutput_text there flow runs
      have silent (flow : c.pendingFlow = none) (runs : c.outputPaused = false) (emission : c.emission = []) (buf : c.txBuf = []) :
          offerOutput quiet l = quiet := by
        have notConnected : c.phase ≠ .connected := fun h => absurd (h.symm.trans ending) (by decide)
        rw [text flow runs, (offerText_buffer (.inl emission) (fun connected => absurd connected notConnected) _ _).2 buf]
      refine ⟨fun flow => ?xon, fun flow => ?xoff, fun flow runs => ⟨fun ch rest emission => ?emission, fun ch rest emission buf => ?buffer,
        fun emission buf drain => ?quiet, fun its full => ?goodbye, fun emission buf drain done attach due unsent batch room => ?ended⟩⟩
      case xon =>
        exact sending (offerOutput_xon call flow s l) rfl ⟨rfl, rfl⟩ (Option.some_ne_none _)
      case xoff =>
        exact sending (offerOutput_xoff call flow s l) rfl ⟨rfl, rfl⟩ (Option.some_ne_none _)
      case emission =>
        exact sending ((text flow runs).trans (offerText_emission call (.inr ending) emission s l)) rfl ⟨rfl, rfl⟩ (Option.some_ne_none _)
      case buffer =>
        have notConnected : c.phase ≠ .connected := fun h => absurd (h.symm.trans ending) (by decide)
        have taken : offerOutput quiet l = s.setLine l
            { x with txChar := some (sentAs c.copy ch), call := some { c with txBuf := rest } } := by
          rw [text flow runs, (offerText_buffer (.inl emission) (fun connected => absurd connected notConnected) _ _).1 ch rest buf]
          exact offerBuffer_other call notConnected s l
        exact sending taken rfl ⟨rfl, rfl⟩ (Option.some_ne_none _)
      case quiet =>
        rw [silent flow runs emission buf, drainCheck_notEnding there (by simp [drain])] at run
        exact run
      case goodbye =>
        obtain ⟨drain, pending, buf, emission⟩ := its
        have placed : goodbyed s c = { c with goodbyePending := false, txBuf := slotText s 14 } :=
          if_pos ⟨pending, buf, emission⟩
        rw [silent flow runs emission buf, drainCheck_draining call s l fits ending drain] at run
        dsimp only at run
        rw [if_neg fun h => full (by simpa [placed] using h.1)] at run
        rw [← agrees rfl, if_pos drain]
        exact run
      case ended =>
        have placed : goodbyed s c = { c with goodbyePending := false } := by
          unfold goodbyed
          rcases done with said | empty
          · rw [if_neg (by simp [said]), ← said]
          · by_cases pending : c.goodbyePending = true
            · rw [if_pos ⟨pending, buf, emission⟩, empty, ← buf]
            · rw [if_neg fun h => pending h.1]
              rw [Bool.not_eq_true] at pending
              rw [← pending]
        rw [silent flow runs emission buf, drainCheck_draining call s l fits ending drain, placed] at run
        dsimp only at run
        rw [if_pos ⟨buf, emission, rfl, rfl⟩, drainOver_setLine (c := { c with goodbyePending := false }) rfl caused] at run
        intro drained told stays
        refine ⟨fun h => ?_, fun h => ?_⟩
        · rw [if_pos h, settle_closed (c := { c with drain := none, goodbyePending := false, released := true }) rfl s l ending rfl
            attach due unsent batch room] at run
          exact run
        · have released : releasedAt { c with goodbyePending := false } =
              { c with drain := none, goodbyePending := false, released := true } := by
            simp [releasedAt, buf, emission]
          rw [if_neg h, released, settle_closed (c := { c with drain := none, goodbyePending := false, released := true }) rfl s l
            ending rfl attach due unsent batch room] at run
          exact run

end Sys2Proof.Machine
end

section
/-! SUPPORT. The charge of a call whose entry has no limit, the step and its rate, and one second of the clock. -/

namespace Sys2Proof.Machine

variable {s : State} {l : LineNo} {c : Call} {x : Line} {at' : FrameNo × EntryNo} {e : Entry}

/-! ### Charges that are not watched (R152, R159) -/

/-- The entry has been charged the units (R152). -/
def charged (s : State) (at' : FrameNo × EntryNo) (units : Nat) : State :=
  s.modEntry at' fun e => { e with charged := e.charged + BitVec.ofNat 32 units }

@[simp] theorem entryAt_charged_self (h : s.entryAt at' = some e) (units : Nat) :
    (charged s at' units).entryAt at' = some { e with charged := e.charged + BitVec.ofNat 32 units } := by
  rw [charged, State.entryAt_modEntry_self, h]
  rfl

@[simp] theorem entryAt_charged_ne {b : FrameNo × EntryNo} (ne : b ≠ at') (units : Nat) :
    (charged s at' units).entryAt b = s.entryAt b := State.entryAt_modEntry_ne s _ ne

theorem addUnits_setLine (h : x.call = some c) (attach : c.attach = some at') (s : State) (l : LineNo) (units : Nat) :
    addUnits (s.setLine l x) l units = (charged s at' units).setLine l { x with call := some { c with
      meter := { c.meter with charge := c.meter.charge + units } } } := by
  have there : (s.setLine l x).callOn l = some c := (State.callOn_setLine_self s l x).trans h
  simp only [addUnits, there, attach, State.modCall_setLine_some h]
  rfl

theorem evaluateCall_unlimited {endIt : Ender} (hc : s.callOn l = some c) (h : Unlimited s c at' e) : evaluateCall endIt s l = s := by
  rw [evaluateCall, hc, Option.bind_some, h.attach_eq]
  exact evaluateAllowance_unlimited h.entry_eq h.no_limit

/-- A charge passes through the accumulator to the session charge and the entry, and no more follows (R152, R159). -/
theorem chargeUnitSeconds_unlimited {endIt : Ender} (h : x.call = some c) (u : Unlimited s c at' e) (l : LineNo) (a : Nat) :
    chargeUnitSeconds endIt (s.setLine l x) l a =
      (charged s at' ((c.meter.acc + a) / 3600)).setLine l { x with call := some { c with meter := { c.meter with
        acc := (c.meter.acc + a) % 3600, charge := c.meter.charge + (c.meter.acc + a) / 3600 } } } := by
  have there : (s.setLine l x).callOn l = some c := (State.callOn_setLine_self s l x).trans h
  simp only [chargeUnitSeconds, there, State.modCall_setLine_some h]
  rw [addUnits_setLine (c := { c with meter := { c.meter with acc := (c.meter.acc + a) % 3600 } }) rfl u.attach_eq]
  exact evaluateCall_unlimited (State.callOn_setLine_self _ l _) ⟨u.attach_eq, entryAt_charged_self u.entry_eq _, u.no_limit⟩

/-! ### The step (R151, R153) -/

/-- The first values of a step that starts now (R151). -/
theorem startStep_rated {t : Tariff} {b : BandNo} {k : ClassNo} {v : Speed} (h : x.call = some c) (r : Rated s c t b k v)
    (l : LineNo) :
    startStep (s.setLine l x) l = s.setLine l { x with call := some { c with meter := { c.meter with
      stepPos := 0, stepLen := t.stepLength
      stepRate := stepRateOf t b v c.meter.connectSecs s.adm.classes[k].rateAdjust } } } := by
  obtain ⟨tariff, band, cls, speed⟩ := r
  rw [startStep, State.modCall_setLine_some h]
  simp [meterTariff, tariff, band, rateAdjustOf, Call.classNow, cls, Call.speedNow, speed]

theorem stepDue_iff (hc : s.callOn l = some c) :
    stepDue s l = true ↔ c.phase = .connected ∧ 0 < c.meter.stepLen ∧ c.meter.stepLen ≤ c.meter.stepPos := by
  simp [stepDue, hc, and_assoc]

theorem completeStep_unlimited {t : Tariff} {b : BandNo} {k : ClassNo} {v : Speed} (hc : s.callOn l = some c)
    (u : Unlimited s c at' e) (r : Rated s c t b k v) (phase : c.phase = .connected) (length : 1 ≤ c.meter.stepLen)
    (complete : c.meter.stepLen ≤ c.meter.stepPos) :
    completeStep endCall s l =
      let total := c.meter.acc + c.meter.stepRate * c.meter.stepLen
      (charged s at' (total / 3600)).setLine l { s.line l with call := some { c with meter := { c.meter with
        stepPos := 0, acc := total % 3600, charge := c.meter.charge + total / 3600, stepLen := t.stepLength
        stepRate := stepRateOf t b v c.meter.connectSecs s.adm.classes[k].rateAdjust } } } := by
  have due : stepDue s l = true := (stepDue_iff hc).2 ⟨phase, length, complete⟩
  let d := { c with meter := { c.meter with stepPos := 0 } }
  have begun := State.modCall_eq hc fun c => { c with meter := { c.meter with stepPos := 0 } }
  simp only [completeStep, hc, due]
  rw [begun, chargeUnitSeconds_unlimited (c := d) rfl ⟨u.attach_eq, u.entry_eq, u.no_limit⟩]
  have runs (v : State) (y : Line) (m : Meter) :
      (v.setLine l { y with call := some { d with meter := m } }).phaseIs l .connected = true := by
    simp [State.phaseIs, d, phase]
  let paid := { d with meter := { d.meter with
    acc := (c.meter.acc + c.meter.stepRate * c.meter.stepLen) % 3600
    charge := c.meter.charge + (c.meter.acc + c.meter.stepRate * c.meter.stepLen) / 3600 } }
  rw [if_neg (by decide), runs, if_pos rfl]
  exact startStep_rated (s := charged s at' ((c.meter.acc + c.meter.stepRate * c.meter.stepLen) / 3600)) (c := paid)
    (x := { s.line l with call := some paid }) rfl ⟨r.tariff_eq, r.band_eq, r.class_eq, r.speed_eq⟩ l

/-- The rate before the floor and the ceiling (Table 9.2, steps 1 to 4). -/
def plainRate (t : Tariff) (band : BandNo) (v : Speed) (secs : Nat) (adjust : Int) : Nat :=
  min (((t.rates[band] * speedMultiplier t (speedClass v) / 256 * tierFactor t secs / 256 : Nat) : Int) + adjust).toNat 4095

theorem stepRateOf_eq (t : Tariff) (band : BandNo) (v : Speed) (secs : Nat) (adjust : Int) : stepRateOf t band v secs adjust =
    let r := plainRate t band v secs adjust
    let r := if t.floorOn then max r t.floor else r
    if t.ceilingOn then min r t.ceiling else r := rfl

/-- Settles O55, by the charge of a step that is complete, and by the adjusted rate's place in its range. -/
theorem completeStepIsChargedAtItsRate : Obligations.CompleteStepIsChargedAtItsRate := by
  refine ⟨fun s l => ⟨fun no => congrArg Host.Outcome.next (completeStep_not_due no), ?_⟩, ?_⟩
  · intro c at' e tariff band k v hc u r phase length complete total
    refine ⟨_, congrArg Host.Outcome.next (completeStep_unlimited hc u r phase length complete), ?_, State.line_setLine_self _ l _,
      entryAt_charged_self u.entry_eq _, fun b ne => entryAt_charged_ne ne _, rfl, rfl, rfl, rfl, rfl, rfl, rfl⟩
    exact fun m ne => (State.line_setLine_ne _ _ ne).trans (State.line_modEntry s at' _ m)
  · intro t band v secs adjust mult r2 tiered rate plain factor tier
    have mult_eq : speedMultiplier t (speedClass v) = mult := by cases v <;> rfl
    have factor_eq : tierFactor t secs = factor := by
      unfold tierFactor
      rcases tier with ⟨on, reached, rfl⟩ | ⟨off, on, reached, rfl⟩ | ⟨off, off1, rfl⟩
      · rw [if_pos ⟨on, reached⟩]
      · rw [if_neg (by omega), if_pos ⟨on, reached⟩]
      · rw [if_neg (by omega), if_neg (by omega)]
    have given {r : Nat} (h : plainRate t band v secs adjust = r) : plain r := by
      refine ⟨fun noFloor noCeiling => ?_, fun floor noCeiling => ?_, fun noFloor ceiling => ?_, fun floor ceiling => ?_⟩
      all_goals
        refine (stepRateOf_eq t band v secs adjust).trans ?_
        simp [*]
    have plain_eq : plainRate t band v secs adjust = min ((tiered factor : Int) + adjust).toNat 4095 := by
      rw [plainRate, mult_eq, factor_eq]
    refine ⟨fun below => given ?_, fun above => given ?_, fun r few eq => given ?_, fun low => ?_⟩
    · rw [plain_eq]
      omega
    · rw [plain_eq]
      omega
    · rw [plain_eq]
      omega
    · have most : plainRate t band v secs adjust ≤ 4095 := Nat.min_le_right _ _
      rw [show rate = _ from stepRateOf_eq t band v secs adjust]
      dsimp only
      split <;> split <;> omega

/-! ### One second (R1, R137) -/

theorem countDown_eq (timer : Option Nat) : countDown timer = timer.map (· - 1) := by
  rcases timer with _ | _ | n <;> rfl

/-- With no complete step outstanding, none is charged before the second is counted. -/
theorem settleSteps_none (none : ∀ l, stepDue s l = false) : settleSteps s = s := by
  unfold settleSteps
  generalize allLines = lines
  induction lines with
  | nil => rfl
  | cons l lines ih => rw [List.foldl_cons, completeStep_not_due (none l), ih]

theorem tickCall_eq (st : LineState) (c : Call) : tickCall st c = { c with
    fieldTimer := c.fieldTimer.map (· - 1), announce := c.announce.map (· - 1), openWait := c.openWait.map (· - 1)
    drain := c.drain.map (· - 1)
    queueWait := if c.phase = .queued then c.queueWait.map (· - 1) else c.queueWait
    queueSecs := if c.phase = .queued then min (c.queueSecs + 1) 16777215 else c.queueSecs
    idle := if c.phase = .connected ∧ st = .up then c.idle.map (· - 1) else c.idle
    pend := if c.phase = .queued ∨ c.phase = .opening ∨ c.phase = .connected then
        ⟨c.pend.allowance.map (· - 1), c.pend.window.map (· - 1), c.pend.hours.map (· - 1)⟩ else c.pend
    meter := if c.phase = .connected ∧ st = .up then
        { c.meter with stepPos := c.meter.stepPos + 1, connectSecs := c.meter.connectSecs + 1 }
      else if c.phase = .connected ∧ st = .fade then { c.meter with fadeSecs := oneMore c.meter.fadeSecs }
      else c.meter } := by
  have pend : tickPending c.phase c.pend = if c.phase = .queued ∨ c.phase = .opening ∨ c.phase = .connected then
      ⟨c.pend.allowance.map (· - 1), c.pend.window.map (· - 1), c.pend.hours.map (· - 1)⟩ else c.pend := by
    cases phase : c.phase <;> simp [tickPending, countDown_eq]
  have meter : tickMeter st c.phase c.meter = if c.phase = .connected ∧ st = .up then
        { c.meter with stepPos := c.meter.stepPos + 1, connectSecs := c.meter.connectSecs + 1 }
      else if c.phase = .connected ∧ st = .fade then { c.meter with fadeSecs := oneMore c.meter.fadeSecs } else c.meter := by
    by_cases phase : c.phase = .connected
    · cases st with
      | fade => simp only [tickMeter, phase]; rfl
      | off | idle | ring | answer | speed | up | drop => simp [tickMeter, phase]
    · simp [tickMeter, phase]
  rw [tickCall, pend, meter]
  simp only [countDown_eq]
  rfl

/-- The calendar clock over one second (R137). -/
theorem tickClock_counts (c : Ctu) (on : c.isSet = true) (day : c.day ≤ 6) (hour : c.hour ≤ 23) (minute : c.minute ≤ 59)
    (second : c.second ≤ 59) :
    let t := tickClock c
    t.second = (c.second + 1) % 60 ∧ t.hour ≤ 23 ∧
      t.minute = (if c.second = 59 then (c.minute + 1) % 60 else c.minute) ∧
      t.day * 86400 + t.now.second = (c.day * 86400 + c.now.second + 1) % 604800 ∧
      t.minuteDue = (c.minuteDue || decide (c.second = 59)) := by
  intro t
  by_cases s59 : c.second = 59
  · by_cases m59 : c.minute = 59
    · by_cases h23 : c.hour = 23
      · have eq : t = { c with second := 0, minute := 0, hour := 0, day := if c.day < 6 then c.day + 1 else 0, minuteDue := true } := by
          simp [t, tickClock, on, s59, m59, h23]
        rw [eq]
        refine ⟨by simp [s59], by simp, by simp [s59, m59], ?_, by simp [s59]⟩
        simp only [Ctu.now, s59, m59, h23, Nat.zero_mul, Nat.add_zero, Nat.reduceMul, Nat.reduceAdd, Nat.add_assoc]
        by_cases last : c.day < 6
        · rw [if_pos last, Nat.mod_eq_of_lt] <;> omega
        · have six : c.day = 6 := by omega
          rw [if_neg last, six]
      · have eq : t = { c with second := 0, minute := 0, hour := c.hour + 1, minuteDue := true } := by
          simp [t, tickClock, on, s59, m59, show c.hour < 23 by omega]
        rw [eq]
        refine ⟨by simp [s59], by dsimp only; omega, by simp [s59, m59], ?_, by simp [s59]⟩
        dsimp only [Ctu.now]
        omega
    · have eq : t = { c with second := 0, minute := c.minute + 1, minuteDue := true } := by
        simp [t, tickClock, on, s59, show c.minute < 59 by omega]
      rw [eq]
      refine ⟨by simp [s59], hour, ?_, ?_, by simp [s59]⟩
      · simp only [s59, if_true]
        omega
      · dsimp only [Ctu.now]
        omega
  · have eq : t = { c with second := c.second + 1 } := by
      simp [t, tickClock, on, show c.second < 59 by omega]
    rw [eq]
    refine ⟨?_, hour, ?_, ?_, ?_⟩
    · dsimp only; omega
    · simp [s59]
    · dsimp only [Ctu.now]; omega
    · simp [s59]

theorem tick_eq (s : State) : tick s = { s with
    lines := Vector.ofFn fun l => tickLine (s.line l), acc := tickCache s.acc
    sfu := { s.sfu with surveyTimer := countDown s.sfu.surveyTimer }, ctu := tickClock s.ctu } := by
  unfold tick
  rfl

/-- A second on the clock changes the clock's own fields only (R137). -/
theorem tickClock_eq (c : Ctu) : tickClock c = { c with
    day := (tickClock c).day, hour := (tickClock c).hour, minute := (tickClock c).minute, second := (tickClock c).second
    minuteDue := (tickClock c).minuteDue } := by
  unfold tickClock
  repeat' split
  all_goals rfl

/-- Settles O54: no step is charged first, so the second is counted on the state as it stands. -/
theorem oneSecondEventCountsEverything : Obligations.OneSecondEventCountsEverything := by
  intro s none
  have counted : Completes .oneSecondEvent s (tick s) := congrArg Host.Outcome.next (congrArg tick (settleSteps_none none))
  refine ⟨tick s, counted, ?blocks, ?clock, fun off => ?unset, fun on day hour minute second => ?set, fun l => ?line, fun i => ?slot,
    fun g => ?frame⟩
  case blocks => 
    rw [tick_eq, countDown_eq]
    rfl
  case clock =>
    rw [tick_ctu]
    exact tickClock_eq s.ctu
  case unset => simp [tick_ctu, tickClock, off]
  case set =>
    rw [tick_ctu]
    exact tickClock_counts s.ctu on day hour minute second
  case line =>
    rw [tick_line, tickLine]
    simp only [countDown_eq, funext (tickCall_eq (s.line l).st)]
  case slot => simp [tick_eq, tickCache, countDown_eq]
  case frame => simp only [State.frame, tick_eq, tickCache, Fin.getElem_fin, Vector.getElem_ofFn]

end Sys2Proof.Machine
end

section
/-! SUPPORT. The answers to an open, the waits for it, and the announcements of a queued call. -/

namespace Sys2Proof.Machine

variable {s : State} {l : LineNo} {c : Call} {x : Line} {at' : FrameNo × EntryNo} {e : Entry}

/-! ### What the ending work leaves to the Admission Unit -/

@[simp] theorem placeChars_adm (s : State) (l : LineNo) (chars : List Byte) : (placeChars s l chars).adm = s.adm := by
  unfold placeChars
  split
  · rfl
  · split <;> rfl

@[simp] theorem placeText_adm (s : State) (l : LineNo) (slot : Fin 24) (n : Option Nat) : (placeText s l slot n).adm = s.adm := by
  unfold placeText
  split <;> simp

@[simp] theorem resign_adm (s : State) (l : LineNo) (c : Call) : (resign s l c).adm = s.adm := by
  simp [resign, startDialogue, enterName, createCall]

@[simp] theorem dropBare_adm (s : State) (l : LineNo) : (dropBare s l).adm = s.adm := rfl

@[simp] theorem removeCall_adm (s : State) (l : LineNo) : (removeCall s l).adm = s.adm := by
  unfold removeCall
  split
  · rfl
  · dsimp only
    split
    · split <;> simp
    · split <;> simp
    · simp

@[simp] theorem closeOut_adm (s : State) (l : LineNo) : (closeOut s l).adm = s.adm := by
  unfold closeOut
  split
  · unfold placeRecord
    split
    · rfl
    · split
      · rfl
      · dsimp only
        rw [removeCall_adm, recordPins, State.adm_modEntry]
        split <;> simp
  · exact holdCall_adm s l

@[simp] theorem settle_adm (s : State) (l : LineNo) : (settle s l).adm = s.adm := by
  unfold settle
  split
  · rfl
  · repeat' split
    all_goals simp

@[simp] theorem discardOutput_adm (s : State) (l : LineNo) (r : Bool) : (discardOutput s l r).adm = s.adm := rfl

@[simp] theorem dropLine_adm (s : State) (l : LineNo) : (dropLine s l).adm = s.adm := by
  unfold dropLine
  dsimp only
  split
  · split <;> simp
  · simp

@[simp] theorem drainOver_adm (s : State) (l : LineNo) : (drainOver s l).adm = s.adm := by
  unfold drainOver
  split
  · rfl
  · split <;> simp

@[simp] theorem placeGoodbye_adm (s : State) (l : LineNo) : (placeGoodbye s l).adm = s.adm := by
  unfold placeGoodbye
  split
  · rfl
  · split <;> simp

@[simp] theorem drainCheck_adm (s : State) (l : LineNo) : (drainCheck s l).adm = s.adm := by
  unfold drainCheck
  split
  · rfl
  · split
    · dsimp only
      split
      · simp
      · split <;> simp
    · rfl

@[simp] theorem closingTexts_adm (s : State) (l : LineNo) (cause : EndCause) : (closingTexts s l cause).adm = s.adm := by
  unfold closingTexts
  dsimp only
  split <;> simp

@[simp] theorem lineStrand_adm (s : State) (l : LineNo) (was : Phase) (cause : EndCause) (lost : Bool) :
    (lineStrand s l was cause lost).adm = s.adm := by
  unfold lineStrand
  dsimp only
  repeat' split
  all_goals simp [startDrain]

/-! ### The open wait and the announcements (R105, R113, R117) -/

/-- The ending event of a call that has no end cause and owes no step (R24). -/
theorem endCall_eq (hc : s.callOn l = some c) (running : c.endCause = none) (notDue : stepDue s l = false) (cause : EndCause) :
    endCall s l cause = lineStrand (endingWork (endFuel 48) (markEnded s l cause) l c.phase) l c.phase cause false := by
  change endCallWith (endFuel 48) s l cause false = _
  simp [endCallWith, completeStep_not_due notDue, hc, running]

theorem endCall_opening_adm (hc : s.callOn l = some c) (running : c.endCause = none) (phase : c.phase = .opening)
    (cause : EndCause) : (endCall s l cause).adm = s.adm := by
  have notDue : stepDue s l = false := by simp [stepDue, hc, phase]
  rw [endCall_eq hc running notDue, lineStrand_adm, phase]
  rfl

theorem settle_unreleased (hc : s.callOn l = some c) (no : c.released = false) : settle s l = s := by
  simp [settle, hc, no]

theorem closeLate_unreleased (hc : s.callOn l = some c) (no : c.released = false) :
    closeLate s l = s.setLine l { s.line l with
      call := some { c with openOutstanding := false, openWait := none, closedDue := true } } := by
  rw [closeLate, clearOpen, State.modCall_eq hc, State.modCall_setLine_some rfl]
  exact settle_unreleased (State.callOn_setLine_self s l _) no

/-- A text that shows a number is placed with the number in the place of its mark (R57, R59). -/
theorem placeText_numbered (hc : s.callOn l = some c) (slot : Fin 24) (n : Nat)
    (room : c.txBuf.length + (placed (numbered s slot n)).length ≤ 256) :
    placeText s l slot (some n) =
      s.setLine l { s.line l with call := some { c with txBuf := c.txBuf ++ placed (numbered s slot n) } } := by
  have chars : textChars s slot (some n) = numbered s slot n := rfl
  by_cases empty : numbered s slot n = []
  · rw [placeText, chars, if_pos empty, placed, if_pos empty, List.append_nil, ← show (s.line l).call = some c from hc,
      State.setLine_line]
  · rw [placed, if_neg empty] at room ⊢
    rw [placeText, chars, if_neg empty]
    exact placeChars_room _ hc room

/-- Settles O49, by the phase of the call and its timers. -/
theorem openWaitAndAnnouncementExpire : Obligations.OpenWaitAndAnnouncementExpire := by
  intro s l c k hc cls
  have now : c.classNow = k := by rw [Call.classNow, cls]; rfl
  refine ⟨fun no => ?still, fun due phase running => ?opening, fun due phase out unreleased => ?late, fun no => ?quiet,
    fun ahead behind phase due split first alone => ?told⟩
  case still =>
    refine congrArg Host.Outcome.next ?_
    rw [hc]
    dsimp only
    by_cases notDue : isDue c.openWait = false
    · exact if_pos notDue
    · obtain ⟨opening, ending⟩ := no.resolve_left fun ne => ne ((isDue_iff _).1 (by simpa using notDue))
      rw [if_neg notDue, if_neg opening, if_neg]
      rintro ⟨phase, out⟩
      exact ending.elim (· phase) fun off => by simp [off] at out
  case opening =>
    let d := { c with openOutstanding := false, openWait := none }
    have cleared : clearOpen s l = s.setLine l { s.line l with call := some d } := State.modCall_eq hc _
    have there : (clearOpen s l).callOn l = some d := by rw [cleared]; exact State.callOn_setLine_self s l _
    have taken : Completes (.openWaitExpiry l) s (noteOpenTimeout (endCall (clearOpen s l) l .hostTimeout) l c) := by
      refine congrArg Host.Outcome.next ?_
      rw [hc]
      dsimp only
      rw [if_neg (by simp [(isDue_iff _).2 due]), if_pos phase]
    obtain ⟨carries, only⟩ := endCall_ends (cause := .hostTimeout) there running (by simp [d, phase]) (by decide)
    have lines (m : LineNo) : (noteOpenTimeout (endCall (clearOpen s l) l .hostTimeout) l c).line m =
        (endCall (clearOpen s l) l .hostTimeout).line m := raiseFault_line _ _ _ _ _ _ _
    refine ⟨⟨_, taken, fun c' h => carries c' (by rwa [State.callOn_eq, lines] at h), fun m ne _ => ?_⟩, _, taken, ?_⟩
    · rw [lines, only.others m ne, cleared]
      exact State.line_setLine_ne s _ ne
    · rw [noteOpenTimeout, raiseFault_adm]
      dsimp only
      rw [endCall_opening_adm there running phase, cleared]
      rfl
  case late =>
    refine congrArg Host.Outcome.next ?_
    rw [hc]
    dsimp only
    rw [if_neg (by simp [(isDue_iff _).2 due]), if_neg (by simp [phase]), if_pos ⟨phase, out⟩, noteOpenTimeout,
      closeLate_unreleased hc unreleased, now]
    rfl
  case quiet =>
    refine congrArg Host.Outcome.next ?_
    rw [hc]
    exact if_neg fun h => no.elim (· h.1) (· ((isDue_iff _).1 h.2))
  case told =>
    intro chars text room
    have numbered : placeText s l 9 (some (ahead.length + 1)) =
        s.setLine l { s.line l with call := some { c with txBuf := c.txBuf ++ text } } :=
      placeText_numbered hc 9 (ahead.length + 1) room
    refine congrArg Host.Outcome.next ?_
    rw [hc]
    dsimp only
    rw [if_pos ⟨phase, (isDue_iff _).2 due⟩, queuePlace_split split first alone, Option.map_some, numbered,
      State.modCall_setLine_some rfl]
    simp only [Call.classNow, cls, Option.getD_some]

/-! ### OPEN ACCEPT (R110, R115, R150) -/

theorem queueNotice_setLine (h : x.call = some c) (s : State) (l : LineNo) (slot : Fin 24) (few : c.notices.length < 4) :
    queueNotice (s.setLine l x) l slot = s.setLine l { x with call := some { c with
      notices := c.notices ++ if s.soe.texts[slot] = [] then [] else [s.soe.texts[slot]] } } := by
  have there : (s.setLine l x).callOn l = some c := (State.callOn_setLine_self s l x).trans h
  have chars : textChars (s.setLine l x) slot none = s.soe.texts[slot] := rfl
  unfold queueNotice
  rw [chars, there]
  dsimp only
  by_cases empty : s.soe.texts[slot] = []
  · rw [if_pos empty, if_pos empty, List.append_nil, ← h]
  · rw [if_neg empty, if_neg empty, if_pos (by simpa [Config.noticeDepth] using few), State.modCall_setLine_some h]

/-- The fee of a call whose entry has no limit (R150). -/
theorem chargeFee_unlimited (h : x.call = some c) (u : Unlimited s c at' e) (l : LineNo) (k : ClassNo) :
    chargeFee (s.setLine l x) l k = (charged s at' s.adm.classes[k].fee).setLine l { x with call := some { c with
      meter := { c.meter with feeCharged := true, charge := c.meter.charge + s.adm.classes[k].fee } } } := by
  unfold chargeFee
  dsimp only
  rw [State.modCall_setLine_some h,
    addUnits_setLine (c := { c with meter := { c.meter with feeCharged := true } }) rfl u.attach_eq]
  exact evaluateCall_unlimited (State.callOn_setLine_self _ l _) ⟨u.attach_eq, entryAt_charged_self u.entry_eq _, u.no_limit⟩

/-- The rest of the accept: the first step, the idle timer and the first credit (R110, R126, R151, R28). -/
theorem startConnected_rated {t : Tariff} {b : BandNo} {k : ClassNo} {v : Speed} (h : x.call = some c)
    (phase : c.phase = .connected) (attach : c.attach = some at') (entry : s.entryAt at' = some e)
    (unwarned : e.warnedAtLevel = false) (r : Rated s c t b k v) (credit : c.credit = 0) (buf : c.txBuf.length ≤ 192)
    (room : s.hli.prio.length < 16) (empty : s.hli.prioWait = []) (l : LineNo) :
    startConnected (s.setLine l x) l =
      (sendsPriority s [{ tag := l.val, call := c.number, msg := .credit (256 - c.txBuf.length) }]).setLine l
        { x with call := some { c with
          meter := { c.meter with
            stepPos := 0, stepLen := t.stepLength
            stepRate := stepRateOf t b v c.meter.connectSecs s.adm.classes[k].rateAdjust }
          idle := startTimer s.adm.classes[k].idleLimit, credit := 256 - c.txBuf.length } } := by
  have there : (s.setLine l x).callOn l = some c := (State.callOn_setLine_self s l x).trans h
  have connected : (s.setLine l x).phaseIs l .connected = true := by simp [State.phaseIs, there, phase]
  have quiet : warnAtConnect (s.setLine l x) l = s.setLine l x := by
    simp [warnAtConnect, State.entryOfCall, there, attach, entry, unwarned]
  let d := { c with meter := { c.meter with
    stepPos := 0, stepLen := t.stepLength
    stepRate := stepRateOf t b v c.meter.connectSecs s.adm.classes[k].rateAdjust } }
  let f := { d with idle := startTimer s.adm.classes[k].idleLimit }
  have now : d.classNow = k := by rw [Call.classNow, show d.cls = some k from r.class_eq]; rfl
  have idle : (s.setLine l { x with call := some d }).modCall l (fun c => { c with idle := startTimer s.adm.classes[c.classNow].idleLimit }) =
      s.setLine l { x with call := some f } := by
    rw [State.modCall_setLine_some rfl]
    simp only [now, f]
  have granted := grantTest_setLine (x := { x with call := some f }) (c := f) rfl l phase (by simpa [f, d, credit] using buf) room empty
  unfold startConnected
  rw [if_pos connected, quiet]
  dsimp only
  rw [startStep_rated h r]
  refine (congrArg (grantTest · l) idle).trans (granted.trans ?_)
  rw [show 256 - f.txBuf.length - f.credit = 256 - c.txBuf.length by simp [f, d, credit]]

theorem acceptCall_eq {t : Tariff} {b : BandNo} {k : ClassNo} {v : Speed} (hc : s.callOn l = some c) (u : Unlimited s c at' e)
    (unwarned : e.warnedAtLevel = false) (r : Rated s c t b k v) (notices : c.notices = []) (credit : c.credit = 0)
    (buf : c.txBuf.length ≤ 192) (room : s.hli.prio.length < 16) (empty : s.hli.prioWait = []) :
    acceptCall s l c =
      (sendsPriority (charged s at' s.adm.classes[k].fee)
        [{ tag := l.val, call := c.number, msg := .credit (256 - c.txBuf.length) }]).setLine l
        { s.line l with call := some { c with
          phase := .connected, openOutstanding := false, openWait := none, connectAt := some s.ctu.now
          notices := if s.soe.texts[10] = [] then [] else [s.soe.texts[10]]
          meter := { c.meter with
            stepPos := 0, acc := 0, feeCharged := true, charge := c.meter.charge + s.adm.classes[k].fee
            genAtConnect := s.ctu.generation, stepLen := t.stepLength
            stepRate := stepRateOf t b v c.meter.connectSecs s.adm.classes[k].rateAdjust }
          idle := startTimer s.adm.classes[k].idleLimit, credit := 256 - c.txBuf.length } } := by
  obtain ⟨attach, entry, noLimit⟩ := u
  obtain ⟨tariff, band, cls, speed⟩ := r
  have now : c.classNow = k := by rw [Call.classNow, cls]; rfl
  let d := { c with
    openOutstanding := false, openWait := none, phase := .connected, connectAt := some s.ctu.now
    meter := { c.meter with genAtConnect := s.ctu.generation, stepPos := 0, acc := 0 } }
  let f := { d with notices := c.notices ++ if s.soe.texts[10] = [] then [] else [s.soe.texts[10]] }
  let g := { f with meter := { f.meter with feeCharged := true, charge := f.meter.charge + s.adm.classes[k].fee } }
  have charging := chargeFee_unlimited (x := { s.line l with call := some f }) (c := f) rfl ⟨attach, entry, noLimit⟩ l k
  have starting := startConnected_rated (s := charged s at' s.adm.classes[k].fee) (x := { s.line l with call := some g }) (c := g) rfl rfl
    attach (entryAt_charged_self entry _) unwarned ⟨tariff, band, cls, speed⟩ credit buf room empty l
  unfold acceptCall
  dsimp only
  rw [clearOpen, State.modCall_eq hc, State.modCall_setLine_some rfl,
    queueNotice_setLine (c := d) rfl s l 10 (by simp [d, notices]), now]
  refine (congrArg (startConnected · l) charging).trans (starting.trans ?_)
  simp only [f, g, d, notices, List.nil_append]
  rfl

/-- Settles O47, by the phase of the call. -/
theorem openAcceptConnectsTheCall : Obligations.OpenAcceptConnectsTheCall := by
  refine ⟨fun s f rest h none => ?stale, fun s f rest l c h => ⟨?connects, ?late⟩⟩
  case stale =>
    refine congrArg Host.Outcome.next (takeSession_stale h (by decide) _ fun c hc number => ?_)
    obtain ⟨notOpening, ending⟩ := none c hc number
    simpa [acceptsOpenAnswer, notOpening, imp_iff_not_or] using ending
  case connects =>
    intro at' e t b k v u unwarned r phase notices credit buf room empty fee g
    have taken : Completes .openAccept s (acceptCall (afterTake s rest) l c) := by
      refine congrArg Host.Outcome.next ((takeSession_accepted h (by decide) _ (by simp [acceptsOpenAnswer, phase])).trans ?_)
      exact if_pos phase
    have lane : (afterTake s rest).hli.prio = s.hli.prio := by simp [afterTake, empty]
    have order : (afterTake s rest).hli.prioWait = [] := by simp [afterTake, empty]
    rw [acceptCall_eq (s := afterTake s rest) h.call_eq ⟨u.attach_eq, u.entry_eq, u.no_limit⟩ unwarned
      ⟨r.tariff_eq, r.band_eq, r.class_eq, r.speed_eq⟩ notices credit buf (by rwa [lane]) order] at taken
    refine ⟨_, taken, fun m ne => State.line_setLine_ne _ _ ne, State.line_setLine_self _ l _, ?_, entryAt_charged_self u.entry_eq _,
      rfl, rfl, rfl, rfl, rfl, rfl⟩
    exact congrArg (fun prio : List OutFrame => ({ (afterTake s rest).hli with
      prio := prio ++ [{ tag := l.val, call := c.number, msg := .credit g }] } : Hli)) lane
  case late =>
    intro phase out attach released unsent batch room
    have taken : Completes .openAccept s (closeLate (afterTake s rest) l) := by
      refine congrArg Host.Outcome.next ((takeSession_accepted h (by decide) _ (by simp [acceptsOpenAnswer, phase, out])).trans ?_)
      exact if_neg (by simp [phase])
    refine taken.trans (congrArg Host.Outcome.next ?_)
    have there : (afterTake s rest).callOn l = some c := h.call_eq
    rw [closeLate, clearOpen, State.modCall_eq there, State.modCall_setLine_some rfl,
      settle_closed (c := { c with openOutstanding := false, openWait := none, closedDue := true }) rfl (afterTake s rest) l phase
        released attach rfl unsent batch room]
    rfl

end Sys2Proof.Machine
end

section
/-! SUPPORT. The arbiter: the class a selection chooses, and a run of selections to its end. -/

namespace Sys2Proof.Machine

variable {s t u : State} {l : LineNo} {c : Call} {f : InFrame} {rest : List InFrame}

/-! ### The rotating pointers (R106, R107) -/

/-- The first value of a search through the positions is at the first position that has one. -/
theorem findSome?_finRange {α : Type} {n : Nat} {g : Fin n → Option α} {a : α} (h : (List.finRange n).findSome? g = some a) :
    ∃ i, g i = some a ∧ ∀ j, j < i → g j = none := by
  rw [List.findSome?_eq_some_iff] at h
  obtain ⟨before, i, after, split, here, none⟩ := h
  refine ⟨i, here, fun j less => none j ?_⟩
  have sorted := List.pairwise_lt_finRange n
  have mem : j ∈ before ++ i :: after := split ▸ List.mem_finRange j
  rw [split] at sorted
  rcases List.mem_append.1 mem with first | later
  · exact first
  · exfalso
    rcases List.mem_cons.1 later with rfl | behind
    · exact lt_irrefl _ less
    · have := (List.pairwise_cons.1 (List.pairwise_append.1 sorted).2.1).1 j behind
      exact lt_asymm less this

/-- The place of a value in the cyclic order after the upper pointer. -/
def upperPlace (p v : Fin 5) : Nat := (v.val + 4 - p.val) % 5

/-- The place of a class in the cyclic order after the LOW pointer. -/
def lowPlace (p v : Fin 4) : Nat := (v.val + 3 - p.val) % 4

theorem upperPlace_after : ∀ p i : Fin 5, upperPlace p (p + i + 1) = i.val ∧ p + (i - p - 1) + 1 = i ∧
    upperPlace p i = (i - p - 1).val := by decide

theorem lowPlace_after : ∀ p i : Fin 4, lowPlace p (p + i + 1) = i.val ∧ p + (i - p - 1) + 1 = i ∧
    lowPlace p i = (i - p - 1).val := by decide

theorem findSome?_upper {α : Type} {p : Fin 5} {g : Fin 5 → Option α} {a : α} (h : (cyclicAfter 5 p).findSome? g = some a) :
    ∃ v, g v = some a ∧ ∀ w, upperPlace p w < upperPlace p v → g w = none := by
  rw [cyclicAfter, List.findSome?_map] at h
  obtain ⟨i, here, none⟩ := findSome?_finRange h
  refine ⟨p + i + 1, here, fun w before => ?_⟩
  obtain ⟨-, back, place⟩ := upperPlace_after p w
  rw [(upperPlace_after p i).1, place] at before
  have := none (w - p - 1) before
  rwa [Function.comp_apply, back] at this

theorem find?_low {p k : Fin 4} {g : Fin 4 → Bool} (h : (cyclicAfter 4 p).find? g = some k) :
    g k = true ∧ ∀ j, lowPlace p j < lowPlace p k → g j = false := by
  rw [cyclicAfter, List.find?_eq_findSome?_guard, List.findSome?_map] at h
  obtain ⟨i, here, none⟩ := findSome?_finRange h
  obtain ⟨rfl, chosen⟩ := Option.guard_eq_some_iff.1 here
  refine ⟨chosen, fun w before => ?_⟩
  obtain ⟨-, back, place⟩ := lowPlace_after p w
  rw [(lowPlace_after p i).1, place] at before
  have := none (w - p - 1) before
  rw [Function.comp_apply, back, Option.guard_eq_none_iff] at this
  simpa using this

/-- What a value of the upper pointer stands for: a HIGH class, or LOW-GROUP, which chooses one of its classes (R107). -/
def participant (s : State) (v : Fin 5) : Option ClassNo :=
  if h : v.val < 4 then
    if highEligible s ⟨v.val, h⟩ then some ⟨v.val, h⟩ else none
  else (cyclicAfter 4 s.adm.low).find? fun k => lowEligible s k

theorem selectClass_eq (s : State) : selectClass s = (cyclicAfter 5 s.adm.upper).findSome? (participant s) := rfl

theorem participant_class (s : State) (k : ClassNo) :
    participant s k.castSucc = if highEligible s k then some k else none := by
  rw [participant, dif_pos (show k.castSucc.val < 4 from k.isLt)]
  rfl

theorem participant_low (s : State) : participant s 4 = (cyclicAfter 4 s.adm.low).find? fun k => lowEligible s k := by
  rw [participant, dif_neg (by decide)]

/-- A class with a queued call that may be granted a slot (R106). -/
def Eligible (s : State) (k : ClassNo) : Prop := s.adm.queues[k] ≠ [] ∧ slotFree s k = true

theorem highEligible_iff (s : State) (k : ClassNo) :
    highEligible s k = true ↔ s.adm.classes[k].group = .high ∧ Eligible s k := by
  simp [highEligible, Eligible, and_assoc]

theorem lowEligible_iff (s : State) (k : ClassNo) :
    lowEligible s k = true ↔ s.adm.classes[k].group ≠ .high ∧ Eligible s k := by
  unfold lowEligible
  cases s.adm.classes[k].group <;> simp [Eligible]

/-- A LOW class that is eligible makes LOW-GROUP so. -/
theorem participant_low_some {j : ClassNo} (low : s.adm.classes[j].group ≠ .high) (e : Eligible s j) : participant s 4 ≠ none := by
  rw [participant_low]
  intro none
  have := List.find?_eq_none.1 none j ?_
  · exact this ((lowEligible_iff s j).2 ⟨low, e⟩)
  · rw [cyclicAfter, List.mem_map]
    exact ⟨j - s.adm.low - 1, List.mem_finRange _, (lowPlace_after s.adm.low j).2.1⟩

/-- The class that a selection chooses, among the participants in the order of the pointers (R107). -/
theorem selectClass_some {k : ClassNo} (h : selectClass s = some k) : Eligible s k ∧
    (s.adm.classes[k].group = .high → ∀ w, upperPlace s.adm.upper w < upperPlace s.adm.upper k.castSucc → participant s w = none) ∧
    (s.adm.classes[k].group ≠ .high → (∀ w, upperPlace s.adm.upper w < upperPlace s.adm.upper 4 → participant s w = none) ∧
      ∀ j, lowPlace s.adm.low j < lowPlace s.adm.low k → lowEligible s j = false) := by
  rw [selectClass_eq] at h
  obtain ⟨v, chosen, before⟩ := findSome?_upper h
  by_cases class' : v.val < 4
  · obtain ⟨j, rfl⟩ : ∃ j : ClassNo, v = j.castSucc := ⟨⟨v.val, class'⟩, rfl⟩
    rw [participant_class] at chosen
    split at chosen
    · next eligible =>
      obtain rfl := Option.some.inj chosen
      obtain ⟨high, e⟩ := (highEligible_iff s j).1 eligible
      exact ⟨e, fun _ => before, fun low => absurd high low⟩
    · cases chosen
  · obtain rfl : v = 4 := by
      apply Fin.ext
      change v.val = 4
      omega
    rw [participant_low] at chosen
    obtain ⟨eligible, first⟩ := find?_low chosen
    obtain ⟨low, e⟩ := (lowEligible_iff s k).1 eligible
    exact ⟨e, fun high => absurd high low, fun _ => ⟨before, first⟩⟩

/-! ### A grant (R108) -/

@[simp] theorem enqueueOrdered_prio (s : State) (f : OutFrame) : (enqueueOrdered s f).hli.prio = s.hli.prio := by
  unfold enqueueOrdered
  split <;> rfl

theorem enqueueOrdered_eq (s : State) (f : OutFrame) : enqueueOrdered s f = { s with hli := (enqueueOrdered s f).hli } := by
  unfold enqueueOrdered
  split <;> rfl

/-- What a grant leaves of the part: the link's ordered lane, the call's line and the Admission Unit change (R108). -/
theorem grant_eq (s : State) (l : LineNo) : grant s l = { s with
    hli := (grant s l).hli, lines := (grant s l).lines
    adm := { s.adm with
      queues := Vector.ofFn fun k => s.adm.queues[k].filter fun m => decide (m ≠ l)
      inUse := s.adm.inUse + 1, grants := bump s.adm.grants } } := by
  simp only [grant]
  split
  · rw [enqueueOrdered_eq]
    rfl
  · rfl

theorem grant_prio (s : State) (l : LineNo) : (grant s l).hli.prio = s.hli.prio := by
  simp only [grant]
  split
  · rw [enqueueOrdered_prio]
    rfl
  · rfl

/-- The admission figures once the call on line `l` is granted a slot (R108). -/
def admGranted (s : State) (l : LineNo) : Adm :=
  { s.adm with
    queues := Vector.ofFn fun k => s.adm.queues[k].filter fun m => decide (m ≠ l)
    inUse := s.adm.inUse + 1, grants := bump s.adm.grants }

/-- The call that is granted a slot (R108). -/
def opened (s : State) (c : Call) : Call :=
  { c with
    phase := .opening, slotHeld := true, openOutstanding := true, openWait := startTimer s.adm.openWait
    queueWait := none, announce := none }

/-- The OPEN REQUEST of the call on line `l` (R109). -/
def openRequest (s : State) (l : LineNo) (c : Call) : OutFrame :=
  let account := ((c.attach.bind s.entryAt).map Entry.account).getD Config.accountWhenNone
  { tag := l.val, call := c.number, msg := .openRequest account c.cls c.speedNow }

theorem grant_taken (there : (takeSlot (leaveQueue s l) l).callOn l = some c) :
    grant s l = enqueueOrdered (takeSlot (leaveQueue s l) l) (callFrame (takeSlot (leaveQueue s l) l) l (.openRequest
      ((((takeSlot (leaveQueue s l) l).entryOfCall l).map Entry.account).getD Config.accountWhenNone) c.cls c.speedNow)) := by
  simp only [grant]
  split
  · next d hd =>
    obtain rfl : d = c := Option.some.inj (hd.symm.trans there)
    rfl
  · next none => exact absurd (none.symm.trans there) (Option.some_ne_none c).symm

/-- The grant of a call, with its OPEN REQUEST (R108, R109). -/
theorem grant_call (hc : s.callOn l = some c) : grant s l =
    (enqueueOrdered { s with adm := admGranted s l } (openRequest s l c)).setLine l
      { s.line l with call := some (opened s c) } := by
  let v : State := { s with adm := { s.adm with queues := (admGranted s l).queues } }
  let u : State := { s with adm := admGranted s l }
  let d := { c with queueWait := none, announce := none }
  have left : leaveQueue s l = v.setLine l { s.line l with call := some d } := State.modCall_eq (s := v) hc _
  have taken : takeSlot (leaveQueue s l) l = u.setLine l { s.line l with call := some (opened s c) } := by
    rw [left]
    exact State.modCall_setLine_some (x := { s.line l with call := some d }) (c := d) rfl u l _
  have there : (u.setLine l { s.line l with call := some (opened s c) }).callOn l = some (opened s c) :=
    State.callOn_setLine_self u l _
  rw [grant_taken (taken ▸ there), taken, callFrame_eq there, enqueueOrdered_setLine, State.entryOfCall, there]
  rfl

theorem grant_callOn (hc : s.callOn l = some c) : (grant s l).callOn l = some (opened s c) := by
  rw [grant_call hc]
  exact State.callOn_setLine_self _ l _

/-! ### A run of the arbiter (R107) -/

/-- What `n` grants from the queues leave as it was (R107, R108). -/
structure Grants (s t : State) (n : Nat) : Prop where
  inUse : t.adm.inUse = s.adm.inUse + n
  queues : ∀ k : ClassNo, (t.adm.queues[k]).Sublist s.adm.queues[k]
  others : ∀ l, (∀ k : ClassNo, l ∉ s.adm.queues[k]) → t.line l = s.line l
  grants : t.adm.grants = if n = 0 then s.adm.grants else min (s.adm.grants + n) 65535
  prio : t.hli.prio = s.hli.prio
  settings : t.adm.classes = s.adm.classes ∧ t.adm.capacity = s.adm.capacity ∧ t.adm.reserve = s.adm.reserve ∧
    t.adm.openWait = s.adm.openWait
  blocks : t.acc = s.acc ∧ t.ctu = s.ctu ∧ t.bst = s.bst ∧ t.sfu = s.sfu

theorem Grants.refl (s : State) : Grants s s 0 :=
  ⟨rfl, fun _ => List.Sublist.refl _, fun _ _ => rfl, rfl, rfl, ⟨rfl, rfl, rfl, rfl⟩, rfl, rfl, rfl, rfl⟩

theorem Grants.trans {m n : Nat} (a : Grants s t m) (b : Grants t u n) : Grants s u (m + n) where
  inUse := by rw [b.inUse, a.inUse, Nat.add_assoc]
  queues k := (b.queues k).trans (a.queues k)
  others l out := (b.others l fun k mem => out k ((a.queues k).subset mem)).trans (a.others l out)
  grants := by
    rw [b.grants, a.grants]
    by_cases hm : m = 0
    · simp [hm]
    · by_cases hn : n = 0
      · simp [hm, hn]
      · rw [if_neg hn, if_neg hm, if_neg (by omega)]
        omega
  prio := b.prio.trans a.prio
  settings := by
    obtain ⟨a1, a2, a3, a4⟩ := a.settings
    obtain ⟨b1, b2, b3, b4⟩ := b.settings
    exact ⟨b1.trans a1, b2.trans a2, b3.trans a3, b4.trans a4⟩
  blocks := by
    obtain ⟨a1, a2, a3, a4⟩ := a.blocks
    obtain ⟨b1, b2, b3, b4⟩ := b.blocks
    exact ⟨b1.trans a1, b2.trans a2, b3.trans a3, b4.trans a4⟩

theorem setPointers_eq (s : State) (k : ClassNo) : setPointers s k = { s with adm := { s.adm with
    upper := if s.adm.classes[k].group = .high then k.castSucc else 4
    low := if s.adm.classes[k].group = .high then s.adm.low else k } } := by
  unfold setPointers
  cases s.adm.classes[k].group <;> rfl

/-- What a selection leaves: a grant's changes, and the pointers (R107, R108). -/
theorem selectOne_eq (s : State) (l : LineNo) (k : ClassNo) : setPointers (grant s l) k = { s with
    hli := (grant s l).hli, lines := (grant s l).lines
    adm := { admGranted s l with
      upper := if s.adm.classes[k].group = .high then k.castSucc else 4
      low := if s.adm.classes[k].group = .high then s.adm.low else k } } := by
  rw [setPointers_eq, grant_eq]
  rfl

/-- One selection is one grant, and shortens a queue. -/
theorem selectOne_grants (h : selectOne s = some t) : Grants s t 1 ∧ queuedCount t < queuedCount s := by
  obtain ⟨k, l, rest, chosen, front, rfl, only⟩ := selectOne_some h
  have filtered (j : ClassNo) : (setPointers (grant s l) k).adm.queues[j] = s.adm.queues[j].filter fun m => decide (m ≠ l) := by
    rw [selectOne_eq]
    simp [admGranted]
  refine ⟨⟨?inUse, fun j => ?queues, fun m out => only.others m fun same => out k (by simp [front, same]), ?grants, ?prio, ?settings,
    ?blocks⟩, ?fewer⟩
  case inUse => rw [selectOne_eq]; rfl
  case queues => rw [filtered]; exact List.filter_sublist
  case grants => rw [selectOne_eq]; rfl
  case prio => rw [selectOne_eq]; exact grant_prio s l
  case settings => rw [selectOne_eq]; exact ⟨rfl, rfl, rfl, rfl⟩
  case blocks => rw [selectOne_eq]; exact ⟨rfl, rfl, rfl, rfl⟩
  case fewer =>
    refine List.sum_lt_sum _ _ (fun j _ => ?_) ⟨k, List.mem_finRange k, ?_⟩
    · rw [filtered]
      exact List.length_filter_le _ _
    · rw [filtered, front, List.filter_cons_of_neg (by simp)]
      exact Nat.lt_succ_of_le (List.length_filter_le _ _)

theorem selectOne_none (h : selectOne s = none) : NoneEligible s := by
  intro k queued
  by_contra free
  have e : Eligible s k := ⟨queued, by simpa using free⟩
  have none : selectClass s = Option.none := by
    unfold selectOne at h
    split at h
    · assumption
    · next j hj =>
      split at h
      · next empty => exact absurd empty (selectClass_some hj).1.1
      · cases h
  rw [selectClass_eq, List.findSome?_eq_none_iff] at none
  have silent (v : Fin 5) : participant s v = Option.none := by
    refine none v (List.mem_map.2 ⟨v - s.adm.upper - 1, List.mem_finRange _, (upperPlace_after s.adm.upper v).2.1⟩)
  by_cases high : s.adm.classes[k].group = .high
  · have := silent k.castSucc
    rw [participant_class, if_pos ((highEligible_iff s k).2 ⟨high, e⟩)] at this
    cases this
  · exact participant_low_some high e (silent 4)

/-- The selections go on to the end, at which no class is eligible. -/
theorem arbiterLoop_grants (fuel : Nat) (s : State) (enough : queuedCount s ≤ fuel) :
    Grants s (arbiterLoop fuel s).1 (arbiterLoop fuel s).2 ∧ NoneEligible (arbiterLoop fuel s).1 := by
  induction fuel generalizing s with
  | zero =>
    refine ⟨.refl s, fun k queued => absurd ?_ queued⟩
    change s.adm.queues[k] = []
    have := List.single_le_sum (l := (List.finRange 4).map fun k : ClassNo => s.adm.queues[k].length) (fun _ _ => Nat.zero_le _)
      (s.adm.queues[k].length) (List.mem_map.2 ⟨k, List.mem_finRange k, rfl⟩)
    exact List.length_eq_zero_iff.1 (Nat.le_zero.1 (this.trans enough))
  | succ fuel ih =>
    unfold arbiterLoop
    split
    · next none => exact ⟨.refl s, selectOne_none none⟩
    · next t some =>
      obtain ⟨one, fewer⟩ := selectOne_grants some
      obtain ⟨more, ended⟩ := ih t (by omega)
      exact ⟨by simpa [Nat.add_comm] using one.trans more, ended⟩

theorem runArbiter_grants (s : State) : Grants s (runArbiter s).1 (runArbiter s).2 ∧ NoneEligible (runArbiter s).1 :=
  arbiterLoop_grants _ s le_rfl

/-! ### CAPACITY SET and CLASS SET (R99, R100) -/

/-- State `t` is one in which a request `f` at state `s` has been answered with the `n` grants of its run of the arbiter. -/
def AnsweredGrants (s : State) (f : InFrame) (t : State) (n : Nat) : Prop :=
  NoneEligible t ∧ t.adm.inUse = s.adm.inUse + n ∧ (∀ k : ClassNo, (t.adm.queues[k]).Sublist s.adm.queues[k]) ∧
    (∀ l, (∀ k : ClassNo, l ∉ s.adm.queues[k]) → t.line l = s.line l) ∧
    t.adm.grants = (if n = 0 then s.adm.grants else min (s.adm.grants + n) 65535) ∧
    t.hli.prio[s.hli.prio.length]? = some (replyTo f (.done (.count n))) ∧ t.acc = s.acc ∧ t.ctu = s.ctu ∧
    t.bst = s.bst ∧ t.sfu = s.sfu

/-- A reply whose run of the arbiter granted `n` slots, the request's own change of the Admission Unit being in `v`. -/
theorem Grants.answered {v : State} {n : Nat} (g : Grants v t n) (ended : NoneEligible t)
    (adm : v.adm.inUse = s.adm.inUse ∧ v.adm.queues = s.adm.queues ∧ v.adm.grants = s.adm.grants)
    (lines : ∀ l, (∀ k : ClassNo, l ∉ s.adm.queues[k]) → v.line l = s.line l)
    (prio : v.hli.prio = s.hli.prio ++ [replyTo f .format])
    (blocks : v.acc = s.acc ∧ v.ctu = s.ctu ∧ v.bst = s.bst ∧ v.sfu = s.sfu) :
    AnsweredGrants s f (setPriority t s.hli.prio.length (replyTo f (.done (.count n)))) n := by
  obtain ⟨inUse, queues, counted⟩ := adm
  obtain ⟨acc, ctu, bst, sfu⟩ := blocks
  obtain ⟨acc', ctu', bst', sfu'⟩ := g.blocks
  refine ⟨ended, inUse ▸ g.inUse, fun k => ?_, fun l out => ?_, counted ▸ g.grants, ?_, acc'.trans acc, ctu'.trans ctu, bst'.trans bst,
    sfu'.trans sfu⟩
  · exact queues ▸ g.queues k
  · exact (g.others l (by rwa [queues])).trans (lines l out)
  · simp [setPriority, g.prio, prio]

/-- A call whose announcement timer starts, unless it runs (R99). -/
def announced (period : Interval) (d : Call) : Call :=
  { d with announce := if d.announce = none then startTimer period else d.announce }

theorem startAnnouncement_eq (period : Interval) (s : State) (l : LineNo) :
    startAnnouncement period s l = s.setLine l { s.line l with call := (s.line l).call.map (announced period) } := by
  have one (d : Call) : (if d.announce = none then { d with announce := startTimer period } else d) = announced period d := by
    unfold announced
    split
    · rfl
    · rfl
  rw [startAnnouncement, funext one]
  rfl

theorem announced_twice {period : Interval} (on : period.count ≠ 0) (d : Call) :
    announced period (announced period d) = announced period d := by
  have runs : startTimer period ≠ none := by simp [startTimer, on]
  by_cases waits : d.announce = none <;> simp [announced, waits, runs]

/-- The announcement timers of the queued calls start, each once (R99). -/
theorem foldl_startAnnouncement {period : Interval} (on : period.count ≠ 0) (ls : List LineNo) (s : State) :
    (ls.foldl (startAnnouncement period) s = { s with lines := (ls.foldl (startAnnouncement period) s).lines }) ∧
      ∀ l, (ls.foldl (startAnnouncement period) s).line l =
        if l ∈ ls then { s.line l with call := (s.line l).call.map (announced period) } else s.line l := by
  induction ls generalizing s with
  | nil => exact ⟨rfl, fun _ => rfl⟩
  | cons m ls ih =>
    obtain ⟨blocks, lines⟩ := ih (startAnnouncement period s m)
    rw [List.foldl_cons]
    refine ⟨blocks.trans ?_, fun l => ?_⟩
    · rw [startAnnouncement_eq]
      rfl
    · rw [lines, startAnnouncement_eq]
      by_cases here : l = m
      · subst here
        rw [State.line_setLine_self, if_pos List.mem_cons_self]
        split
        · simp only [Option.map_map]
          congr 1
          exact congrArg (Option.map · _) (funext (announced_twice on))
        · rfl
      · rw [State.line_setLine_ne s _ here]
        exact if_congr (by simp [here]) rfl rfl

/-- The ranges of CLASS SET's fields (Table 6.1). -/
def classSetGood (n : Nat) (r : ClassRecord) (i : Nat) : Prop :=
  match i with
  | 0 => n ≤ 3
  | 2 => r.queueLimit ≤ 48
  | 3 => r.queueWait.count ≤ 63
  | 4 => r.announce.count ≤ 63
  | 5 => r.fee ≤ 255
  | 6 => -512 ≤ r.rateAdjust ∧ r.rateAdjust ≤ 511
  | 7 => r.warningLevel ≤ 65535
  | 8 => r.allowanceGrace.count ≤ 63
  | 9 => r.hoursGrace.count ≤ 63
  | 10 => r.idleLimit.count ≤ 63
  | _ => True

theorem classSet_ranges (n : Nat) (r : ClassRecord) : Ranges [(0, decide (n ≤ 3)), (2, decide (r.queueLimit ≤ 48)),
    (3, intervalOk r.queueWait), (4, intervalOk r.announce), (5, decide (r.fee ≤ 255)),
    (6, decide (-512 ≤ r.rateAdjust) && decide (r.rateAdjust ≤ 511)), (7, decide (r.warningLevel ≤ 65535)),
    (8, intervalOk r.allowanceGrace), (9, intervalOk r.hoursGrace), (10, intervalOk r.idleLimit)] (classSetGood n r) := by
  refine ⟨?_, ?_⟩
  · simp only [List.map_cons, List.map_nil]
    decide
  · simp [classSetGood, intervalOk_iff]

theorem classSetGood_index {n : Nat} {r : ClassRecord} {i : Nat} (bad : ¬ classSetGood n r i) :
    i ∈ [0, 2, 3, 4, 5, 6, 7, 8, 9, 10] := by
  by_contra out
  refine bad ?_
  unfold classSetGood
  split <;> simp_all

theorem capacitySetBad_eq (capacity reserve : Nat) (wait : Interval) : capacitySetBad capacity reserve wait =
    if 32 < capacity then some 0 else if 8 < reserve then some 1 else if 63 < wait.count then some 2
    else if capacity < reserve then some 1 else none := by
  have timer : intervalOk wait = decide (¬ 63 < wait.count) := by
    rw [Bool.eq_iff_iff, intervalOk_iff, decide_eq_true_iff, Nat.not_lt]
  unfold capacitySetBad
  rw [timer]
  by_cases a : 32 < capacity
  · simp [firstBad, a, Nat.not_le.2 a]
  · by_cases b : 8 < reserve
    · simp [firstBad, a, b, Nat.not_lt.1 a, Nat.not_le.2 b]
    · by_cases w : 63 < wait.count
      · simp [firstBad, a, b, w, Nat.not_lt.1 a, Nat.not_lt.1 b]
      · by_cases v : capacity < reserve
        · simp [firstBad, a, b, w, v, Nat.not_lt.1 a, Nat.not_lt.1 b]
        · simp [firstBad, a, b, w, v, Nat.not_lt.1 a, Nat.not_lt.1 b, Nat.not_lt.1 v]

/-- The Admission Unit with one class's record replaced, and the announcement timers of its queue started (R99). -/
def classReplaced (s : State) (k : ClassNo) (r : ClassRecord) : State :=
  let t : State := { s with adm := { s.adm with classes := s.adm.classes.set k r } }
  if s.adm.classes[k].announce.count = 0 ∧ 0 < r.announce.count then s.adm.queues[k].foldl (startAnnouncement r.announce) t else t

theorem setClass_same {k : ClassNo} {r : ClassRecord} (same : r.group = s.adm.classes[k].group) :
    setClass s k r = (classReplaced s k r, .done (.count 0)) := if_pos same

theorem setClass_other {k : ClassNo} {r : ClassRecord} (other : r.group ≠ s.adm.classes[k].group) :
    setClass s k r = ((runArbiter (classReplaced s k r)).1, .done (.count (runArbiter (classReplaced s k r)).2)) := if_neg other

theorem classReplaced_eq (s : State) (k : ClassNo) (r : ClassRecord) :
    (classReplaced s k r = { s with
      adm := { s.adm with classes := s.adm.classes.set k r }, lines := (classReplaced s k r).lines }) ∧
    ∀ l, (classReplaced s k r).line l =
      if (s.adm.classes[k].announce.count = 0 ∧ 0 < r.announce.count) ∧ l ∈ s.adm.queues[k] then
        { s.line l with call := (s.line l).call.map (announced r.announce) }
      else s.line l := by
  unfold classReplaced
  dsimp only
  by_cases starts : s.adm.classes[k].announce.count = 0 ∧ 0 < r.announce.count
  · rw [if_pos starts]
    obtain ⟨blocks, lines⟩ := foldl_startAnnouncement (show r.announce.count ≠ 0 by omega) s.adm.queues[k]
      { s with adm := { s.adm with classes := s.adm.classes.set k r } }
    refine ⟨blocks, fun l => (lines l).trans ?_⟩
    exact if_congr ⟨fun mem => ⟨starts, mem⟩, And.right⟩ rfl rfl
  · rw [if_neg starts]
    refine ⟨rfl, fun l => ?_⟩
    rw [if_neg fun h => starts h.1]
    rfl

/-- CAPACITY SET in range runs the arbiter to its end (R100). -/
theorem capacitySet_granted (h : Requested s 0x30 f rest) {capacity reserve : Nat} {wait : Interval}
    (good : capacitySetBad capacity reserve wait = none) :
    ∃ t n, Completes (.capacitySet capacity reserve wait) s t ∧ AnsweredGrants s f t n ∧ t.adm.capacity = capacity ∧
      t.adm.reserve = reserve ∧ t.adm.openWait = wait ∧ t.adm.classes = s.adm.classes := by
  let v : State := { afterReply s f rest .format with
    adm := { s.adm with capacity := capacity, reserve := reserve, openWait := wait } }
  obtain ⟨g, ended⟩ := runArbiter_grants v
  obtain ⟨classes, cap, res, opens⟩ := g.settings
  refine ⟨_, (runArbiter v).2, congrArg Host.Outcome.next
      (takeReplied_good h (by decide) (fun s => setCapacity s capacity reserve wait) good), ?_, cap, res, opens, classes⟩
  exact g.answered ended ⟨rfl, rfl, rfl⟩ (fun _ _ => rfl) rfl ⟨rfl, rfl, rfl, rfl⟩

theorem classSet_taken (h : Requested s 0x31 f rest) {n : Nat} {r : ClassRecord} {k : ClassNo} (named : k.val = n)
    (all : ∀ i, classSetGood n r i) :
    Completes (.classSet n r) s (setPriority (setClass (afterReply s f rest .format) k r).1 s.hli.prio.length
      (replyTo f (setClass (afterReply s f rest .format) k r).2)) := by
  have ok : classSetBad n r = none := (classSet_ranges n r).none all
  have here : Fin.ofNat 4 n = k := by
    subst named
    exact Fin.ofNat_val_eq_self k
  refine congrArg Host.Outcome.next ((takeReplied_good h (by decide) (fun s => setClass s (Fin.ofNat 4 n) r) ok).trans ?_)
  rw [here]

/-- CLASS SET to another group runs the arbiter to its end (R99). -/
theorem classSet_regrouped (h : Requested s 0x31 f rest) {n : Nat} {r : ClassRecord} {k : ClassNo} (named : k.val = n)
    (all : ∀ i, classSetGood n r i) (other : r.group ≠ s.adm.classes[k].group) :
    ∃ t g, Completes (.classSet n r) s t ∧ AnsweredGrants s f t g ∧ t.adm.classes = s.adm.classes.set k r ∧
      t.adm.capacity = s.adm.capacity := by
  have taken := classSet_taken h named all
  let u := afterReply s f rest .format
  obtain ⟨blocks, lines⟩ := classReplaced_eq u k r
  obtain ⟨g, ended⟩ := runArbiter_grants (classReplaced u k r)
  obtain ⟨classes, cap, -, -⟩ := g.settings
  rw [setClass_other (s := u) other] at taken
  refine ⟨_, _, taken, g.answered ended ?_ (fun l out => ?_) ?_ ?_, classes.trans ?_, cap.trans ?_⟩
  · rw [blocks]; exact ⟨rfl, rfl, rfl⟩
  · rw [lines, if_neg fun h => out k h.2]; rfl
  · rw [blocks]; rfl
  · rw [blocks]; exact ⟨rfl, rfl, rfl, rfl⟩
  · rw [blocks]; rfl
  · rw [blocks]; rfl

/-- The selection of a class grants the head of its queue and sets the pointers (R107, R108). -/
theorem selectOne_head {k : ClassNo} (chosen : selectClass s = some k) :
    ∃ l rest t, s.adm.queues[k] = l :: rest ∧ selectOne s = some t ∧ t.adm.inUse = s.adm.inUse + 1 ∧
      t.adm.upper = (if s.adm.classes[k].group = .high then k.castSucc else 4) ∧
      t.adm.low = (if s.adm.classes[k].group = .high then s.adm.low else k) ∧ OtherLinesKept s t l ∧
      ∀ c, s.callOn l = some c → t.callOn l = some { c with
        phase := .opening, slotHeld := true, openOutstanding := true, openWait := startTimer s.adm.openWait
        queueWait := none, announce := none } := by
  obtain ⟨l, rest, front⟩ := List.exists_cons_of_ne_nil (selectClass_some chosen).1.1
  have selected : selectOne s = some (setPointers (grant s l) k) := by
    rw [selectOne, chosen]
    dsimp only
    rw [front]
  obtain ⟨_, m, _, chosen', front', eq, only⟩ := selectOne_some selected
  obtain rfl := Option.some.inj (chosen.symm.trans chosen')
  obtain ⟨rfl, -⟩ := List.cons.inj (front.symm.trans front')
  refine ⟨l, rest, _, front, selected, ?_, ?_, ?_, only.others, fun c hc => ?_⟩
  · rw [selectOne_eq]; rfl
  · rw [selectOne_eq]
  · rw [selectOne_eq]
  · rw [State.callOn_eq, show (setPointers (grant s l) k).line l = (grant s l).line l by simp only [State.line, setPointers_lines]]
    exact grant_callOn hc

/-- The class chosen comes first after the pointers among those that may be granted a slot (R107). -/
theorem selectClass_first {k : ClassNo} (chosen : selectClass s = some k) :
    let high := fun (j : ClassNo) => s.adm.classes[j].group = .high
    let place := fun (v : Nat) => (v + 4 - s.adm.upper.val) % 5
    let lowPlace := fun (v : Nat) => (v + 3 - s.adm.low.val) % 4
    (high k → (∀ j, high j → Eligible s j → place k.val ≤ place j.val) ∧
      ((∃ j, ¬ high j ∧ Eligible s j) → place k.val < place 4)) ∧
    (¬ high k → (∀ j, high j → Eligible s j → place 4 < place j.val) ∧
      ∀ j, ¬ high j → Eligible s j → lowPlace k.val ≤ lowPlace j.val) := by
  intro high place low
  obtain ⟨-, whenHigh, whenLow⟩ := selectClass_some chosen
  have distinct : ∀ p v w : Fin 5, upperPlace p v = upperPlace p w → v = w := by decide
  refine ⟨fun isHigh => ⟨fun j jHigh je => ?_, fun ⟨j, jLow, je⟩ => ?_⟩, fun isLow => ⟨fun j jHigh je => ?_, fun j jLow je => ?_⟩⟩
  · by_contra less
    have none := whenHigh isHigh j.castSucc (Nat.not_le.1 less)
    rw [participant_class, if_pos ((highEligible_iff s j).2 ⟨jHigh, je⟩)] at none
    cases none
  · by_contra less
    rcases Nat.lt_or_eq_of_le (Nat.not_lt.1 less) with before | same
    · exact participant_low_some jLow je (whenHigh isHigh 4 before)
    · have := distinct s.adm.upper 4 k.castSucc same
      exact absurd (congrArg Fin.val this) (by have := k.isLt; simp; omega)
  · by_contra less
    rcases Nat.lt_or_eq_of_le (Nat.not_lt.1 less) with before | same
    · have none := (whenLow isLow).1 j.castSucc before
      rw [participant_class, if_pos ((highEligible_iff s j).2 ⟨jHigh, je⟩)] at none
      cases none
    · have := distinct s.adm.upper j.castSucc 4 same
      exact absurd (congrArg Fin.val this) (by have := j.isLt; simp; omega)
  · by_contra less
    have none := (whenLow isLow).2 j (Nat.not_le.1 less)
    rw [(lowEligible_iff s j).2 ⟨jLow, je⟩] at none
    cases none

/-- Settles O46, request by request, and the choice of the class by the pointers. -/
theorem arbiterGrantsInRotationToItsEnd : Obligations.ArbiterGrantsInRotationToItsEnd := by
  refine ⟨fun s f rest => ?_, fun s k chosen => ?_⟩
  · intro granted
    refine ⟨fun capacity reserve wait h => ?capacity, fun n r h => ?classes⟩
    case capacity =>
      intro c
      have refused {i : Nat} (bad : capacitySetBad capacity reserve wait = some i) :
          OnlyAnswers c s f rest (.refused .badValue (.index i)) :=
        congrArg Host.Outcome.next (takeReplied_bad h (by decide) (fun _ => capacitySetBad capacity reserve wait) _ bad)
      have bad := capacitySetBad_eq capacity reserve wait
      refine ⟨fun a => refused (by rw [bad, if_pos a]),
        fun a b => refused (by rw [bad, if_neg (by omega), if_pos b]),
        fun a b w => refused (by rw [bad, if_neg (by omega), if_neg (by omega), if_pos w]),
        fun a b w v => refused (by rw [bad, if_neg (by omega), if_neg (by omega), if_neg (by omega), if_pos v]), fun a b w v => ?_⟩
      have good : capacitySetBad capacity reserve wait = none := by
        rw [bad, if_neg (by omega), if_neg (by omega), if_neg (by omega), if_neg (by omega)]
      exact capacitySet_granted h good
    case classes =>
      intro c good
      refine ⟨fun i bad before => ?_, fun k named all => ?_⟩
      · exact congrArg Host.Outcome.next (takeReplied_bad h (by decide) (fun _ => classSetBad n r) _
          ((classSet_ranges n r).first (classSetGood_index bad) bad before))
      · intro old
        have taken := classSet_taken h named all
        let u := afterReply s f rest .format
        obtain ⟨blocks, lines⟩ := classReplaced_eq u k r
        refine ⟨classSet_regrouped h named all, fun same still => ?still, fun same off on => ?starts⟩
        case still =>
          have kept : classReplaced u k r = { u with adm := { u.adm with classes := u.adm.classes.set k r } } :=
            if_neg fun h => still.elim (· h.1) fun zero => by omega
          rw [setClass_same (s := u) same, kept] at taken
          exact taken.trans (congrArg (fun t : State => Host.Outcome.next { t with
            adm := { s.adm with classes := s.adm.classes.set k r } }) (setPriority_afterReply s f rest _ _))
        case starts =>
          rw [setClass_same (s := u) same] at taken
          refine ⟨_, taken, ?_, ?_, fun l => ⟨fun out => ?_, fun mem => ?_⟩⟩
          · rw [blocks]; rfl
          · have replied := congrArg State.hli (setPriority_afterReply s f rest .format (.done (.count 0)))
            rw [blocks]
            exact replied
          · exact (lines l).trans (if_neg fun h => out h.2)
          · exact (lines l).trans (if_pos ⟨⟨off, Nat.pos_of_ne_zero on⟩, mem⟩)
  · obtain ⟨whenHigh, whenLow⟩ := selectClass_first chosen
    exact ⟨(selectClass_some chosen).1, whenHigh, whenLow, selectOne_head chosen⟩

end Sys2Proof.Machine
end

section
/-! SUPPORT. The refusal of an open. -/

namespace Sys2Proof.Machine

variable {s t u : State} {l : LineNo} {c : Call} {x : Line} {f : InFrame} {rest : List InFrame}

/-! ### Runs of the arbiter that grant nothing -/

theorem runArbiter_idle (none : selectClass s = none) : runArbiter s = (s, 0) := by
  unfold runArbiter
  cases queuedCount s with
  | zero => rfl
  | succ n => simp [arbiterLoop, selectOne, none]

theorem selectClass_none (no : ∀ k, ¬ Eligible s k) : selectClass s = none := by
  cases h : selectClass s with
  | none => rfl
  | some k => exact absurd (selectClass_some h).1 (no k)

theorem runArbiter_empty (empty : ∀ k : ClassNo, s.adm.queues[k] = []) : runArbiter s = (s, 0) :=
  runArbiter_idle (selectClass_none fun k e => e.1 (empty k))

/-- With every slot of the capacity in use, no class may be granted one (R106). -/
theorem runArbiter_full (full : s.adm.capacity ≤ s.adm.inUse) : runArbiter s = (s, 0) := by
  refine runArbiter_idle (selectClass_none fun k e => ?_)
  have := slotFree_room e.2
  omega

/-! ### A text that may not fit (R59) -/

theorem placeText_any (h : x.call = some c) (s : State) (l : LineNo) (slot : Fin 24) (n : Nat) :
    let told := placed (numbered s slot n)
    let fits := told = [] ∨ c.txBuf.length + told.length ≤ 256
    placeText (s.setLine l x) l slot (some n) =
      ({ s with soe := { s.soe with textDrops := if fits then s.soe.textDrops else oneMore s.soe.textDrops } } : State).setLine l
        { x with call := some { c with txBuf := if fits then c.txBuf ++ told else c.txBuf } } := by
  intro told fits
  have there : (s.setLine l x).callOn l = some c := (State.callOn_setLine_self s l x).trans h
  have chars : textChars (s.setLine l x) slot (some n) = numbered s slot n := rfl
  have call : ({ x with call := some { c with txBuf := c.txBuf } } : Line) = x := by rw [← h]
  by_cases empty : numbered s slot n = []
  · have nothing : told = [] := if_pos empty
    rw [placeText, chars, if_pos empty, if_pos (Or.inl nothing : fits), if_pos (Or.inl nothing : fits), nothing, List.append_nil, call]
  · have text : told = 0x0D :: 0x0A :: numbered s slot n := if_neg empty
    rw [placeText, chars, if_neg empty]
    by_cases room : c.txBuf.length + told.length ≤ 256
    · rw [if_pos (Or.inr room : fits), if_pos (Or.inr room : fits), placeChars_room _ there (by rwa [text] at room), State.line_setLine_self,
        State.setLine_setLine, text]
      rfl
    · have no : ¬ fits := fun h => h.elim (by simp [text]) room
      rw [if_neg no, if_neg no, call, placeChars, there]
      dsimp only
      rw [if_neg (by rwa [text] at room)]
      rfl

/-! ### OPEN REFUSE (R111, R112, R116) -/

/-- The state in which the call `c` on line `l` has lost its slot and its open, the capacity of the Admission Unit apart. -/
def slotless (s : State) (l : LineNo) (c : Call) : State :=
  ({ s with adm := { s.adm with inUse := s.adm.inUse - 1 } } : State).setLine l
    { s.line l with call := some { c with slotHeld := false, openOutstanding := false, openWait := none } }

theorem clearSlot_clearOpen (hc : s.callOn l = some c) (held : c.slotHeld = true) :
    clearSlot (clearOpen s l) l = slotless s l c := by
  let d := { c with openOutstanding := false, openWait := none }
  have cleared : clearOpen s l = s.setLine l { s.line l with call := some d } := State.modCall_eq hc _
  rw [cleared, clearSlot, State.callOn_setLine_self]
  dsimp only
  rw [if_pos held]
  exact State.modCall_setLine_some (x := { s.line l with call := some d }) (c := d) rfl
    { s with adm := { s.adm with inUse := s.adm.inUse - 1 } } l _

theorem releaseSlot_clearOpen (hc : s.callOn l = some c) (held : c.slotHeld = true) (empty : ∀ k : ClassNo, s.adm.queues[k] = []) :
    releaseSlot (clearOpen s l) l = slotless s l c := by
  rw [releaseSlot, clearSlot_clearOpen hc held, runArbiter_empty (s := slotless s l c) empty]

theorem callOn_slotless (s : State) (l : LineNo) (c : Call) :
    (slotless s l c).callOn l = some { c with slotHeld := false, openOutstanding := false, openWait := none } :=
  State.callOn_setLine_self _ l _

/-- A call that joins a queue is told its place there, if its class announces (R103, R105). -/
theorem startQueueing_setLine (h : x.call = some c) (s : State) (l : LineNo) (k : ClassNo) {n : Nat}
    (place : queuePlace s l = some (k, n)) :
    let period := s.adm.classes[k].announce
    let told := if period.count = 0 then [] else placed (numbered s 9 n)
    let fits := told = [] ∨ c.txBuf.length + told.length ≤ 256
    startQueueing (s.setLine l x) l k =
      ({ s with soe := { s.soe with textDrops := if fits then s.soe.textDrops else oneMore s.soe.textDrops } } : State).setLine l
        { x with call := some { c with
          phase := .queued, queueWait := startTimer s.adm.classes[k].queueWait, announce := startTimer period
          txBuf := if fits then c.txBuf ++ told else c.txBuf } } := by
  intro period told fits
  let d : Call := { c with
    phase := .queued, queueWait := startTimer s.adm.classes[k].queueWait, announce := startTimer period }
  let w := s.setLine l { x with call := some d }
  have joined : (s.setLine l x).modCall l (fun c => { c with
      phase := .queued, queueWait := startTimer s.adm.classes[k].queueWait, announce := startTimer period }) = w :=
    State.modCall_setLine_some h s l _
  have spoken : startQueueing (s.setLine l x) l k =
      if period.count = 0 then w else placeText w l 9 ((queuePlace w l).map Prod.snd) := by
    rw [← joined]
    rfl
  rw [spoken]
  by_cases silent : period.count = 0
  · have nothing : told = [] := if_pos silent
    rw [if_pos silent, if_pos (Or.inl nothing : fits), if_pos (Or.inl nothing : fits), nothing, List.append_nil]
  · have words : told = placed (numbered s 9 n) := if_neg silent
    have there : queuePlace w l = some (k, n) := place
    rw [if_neg silent, there]
    refine (placeText_any (x := { x with call := some d }) (c := d) rfl s l 9 n).trans ?_
    simp only [fits, words]
    rfl

/-- A call that returns to the head of its queue is in place 1 there (R102, R111). -/
theorem queuePlace_head (s : State) (l : LineNo) (k : ClassNo) (alone : ∀ j : ClassNo, l ∉ s.adm.queues[j]) :
    queuePlace (s.setQueue k (l :: s.adm.queues[k])) l = some (k, 1) := by
  refine queuePlace_split (ahead := []) (behind := s.adm.queues[k]) (Vector.getElem_set_self ..) (by simp) fun j ne => ?_
  have other : (s.setQueue k (l :: s.adm.queues[k])).adm.queues[j] = s.adm.queues[j] :=
    Vector.getElem_set_ne k.isLt j.isLt fun e => ne (Fin.ext e.symm)
  exact fun there => alone j (other ▸ there)

/-- Settles O48, by the phase of the call and the reason. -/
theorem openRefuseReturnsOrEndsTheCall : Obligations.OpenRefuseReturnsOrEndsTheCall := by
  refine ⟨fun s f rest reason h none => ?stale, fun s f rest l c h held => ?_⟩
  case stale =>
    refine congrArg Host.Outcome.next (takeSession_stale h (by decide) _ fun c hc number => ?_)
    obtain ⟨notOpening, ending⟩ := none c hc number
    simpa [acceptsOpenAnswer, notOpening, imp_iff_not_or] using ending
  have there : (afterTake s rest).callOn l = some c := h.call_eq
  have released := clearSlot_clearOpen there held
  have full (phase : c.phase = .opening) : Completes (.openRefuse .full) s (refuseFull (afterTake s rest) l c) := by
    refine congrArg Host.Outcome.next ((takeSession_accepted h (by decide) _ (by simp [acceptsOpenAnswer, phase])).trans ?_)
    exact if_pos phase
  have refused (phase : c.phase = .opening) : Completes (.openRefuse .denied) s (refuseDenied (afterTake s rest) l) := by
    refine congrArg Host.Outcome.next ((takeSession_accepted h (by decide) _ (by simp [acceptsOpenAnswer, phase])).trans ?_)
    exact if_pos phase
  have ending (phase : c.phase = .ending) (out : c.openOutstanding = true) (reason : RefuseReason) :
      Completes (.openRefuse reason) s (refuseLate (afterTake s rest) l c reason) := by
    refine congrArg Host.Outcome.next ((takeSession_accepted h (by decide) _ (by simp [acceptsOpenAnswer, phase, out])).trans ?_)
    exact if_neg (by simp [phase])
  refine ⟨fun k phase cls goesOn alone => ?returns, fun phase running closing empty => ?finish,
    fun phase running empty => ?turned, fun phase out unreleased empty => ?lateFull,
    fun phase out unreleased empty => ?lateDenied⟩
  case returns =>
    intro period told fits limit
    have now : c.classNow = k := by rw [Call.classNow, cls]; rfl
    let d := { c with slotHeld := false, openOutstanding := false, openWait := none }
    let low : State := { afterTake s rest with adm := { s.adm with inUse := s.adm.inUse - 1, capacity := limit } }
    have lowered : lowerCapacity (clearSlot (clearOpen (afterTake s rest) l) l) =
        low.setLine l { s.line l with call := some d } := congrArg lowerCapacity released
    have joined : joinHead (low.setLine l { s.line l with call := some d }) l k = _ :=
      startQueueing_setLine (x := { s.line l with call := some d }) (c := d) rfl _ l k (queuePlace_head low l k alone)
    have stays : closingFinish (lowerCapacity (clearSlot (clearOpen (afterTake s rest) l) l)) = false := by
      rw [lowered]
      exact decide_eq_false goesOn
    refine (full phase).trans (congrArg Host.Outcome.next ?_)
    unfold refuseFull
    dsimp only
    rw [if_neg (by simp [stays]), lowered, now, joined, runArbiter_full (Nat.min_le_right _ _)]
    rfl
  case finish =>
    let d := { c with slotHeld := false, openOutstanding := false, openWait := none }
    let low : State := lowerCapacity (slotless (afterTake s rest) l c)
    have there' : low.callOn l = some d := callOn_slotless _ l c
    have adm := endCall_opening_adm (cause := .serviceEnd) there' running phase
    obtain ⟨carries, only⟩ := endCall_ends (cause := .serviceEnd) there' running (by simp [d, phase]) (by decide)
    have outcome : refuseFull (afterTake s rest) l c = noteFull (endCall low l .serviceEnd) l c.number := by
      have closes : closingFinish low = true := decide_eq_true closing
      unfold refuseFull
      dsimp only
      rw [released]
      change noteFull (runArbiter (if closingFinish low = true then endCall low l .serviceEnd else _)).1 l c.number = _
      rw [if_pos closes, runArbiter_empty (by rw [adm]; exact empty)]
    have lines (m : LineNo) : (noteFull (endCall low l .serviceEnd) l c.number).line m = (endCall low l .serviceEnd).line m :=
      raiseFault_line _ _ _ _ _ _ _
    refine ⟨_, (full phase).trans (congrArg Host.Outcome.next outcome), fun c' h => carries c' (by rwa [State.callOn_eq, lines] at h),
      fun m ne _ => ?_⟩
    rw [lines, only.others m ne]
    exact State.line_setLine_ne _ _ ne
  case turned =>
    have unslotted := callOn_slotless (afterTake s rest) l c
    have outcome : refuseDenied (afterTake s rest) l = endCall (countDenial (slotless (afterTake s rest) l c)) l .hostDenied := by
      rw [refuseDenied, releaseSlot_clearOpen there held empty]
    have taken := (refused phase).trans (congrArg Host.Outcome.next outcome)
    have adm := endCall_opening_adm (s := countDenial (slotless (afterTake s rest) l c)) (cause := .hostDenied) unslotted running phase
    obtain ⟨carries, only⟩ := endCall_ends (s := countDenial (slotless (afterTake s rest) l c)) (cause := .hostDenied) unslotted running
      (by simp [phase]) (by decide)
    refine ⟨⟨_, taken, carries, fun m ne _ => ?_⟩, _, taken, by rw [adm]; rfl, by rw [adm]; rfl, by rw [adm]; rfl⟩
    rw [only.others m ne]
    exact State.line_setLine_ne _ _ ne
  case lateFull =>
    intro limit
    let d := { c with slotHeld := false, openOutstanding := false, openWait := none }
    let low : State := { afterTake s rest with adm := { s.adm with inUse := s.adm.inUse - 1, capacity := limit } }
    have lowered : lowerCapacity (clearSlot (clearOpen (afterTake s rest) l) l) =
        low.setLine l { s.line l with call := some d } := congrArg lowerCapacity released
    refine (ending phase out .full).trans (congrArg Host.Outcome.next ?_)
    simp only [refuseLate]
    rw [lowered, runArbiter_empty (s := low.setLine l _) empty]
    refine settle_unreleased (c := d) ?_ unreleased
    rw [State.callOn_eq, noteFull, raiseFault_line]
    exact State.callOn_setLine_self low l _
  case lateDenied =>
    refine (ending phase out .denied).trans (congrArg Host.Outcome.next ?_)
    simp only [refuseLate]
    rw [releaseSlot_clearOpen there held empty]
    exact settle_unreleased (callOn_slotless _ l c) unreleased

end Sys2Proof.Machine
end

section
/-! SUPPORT. The removal of a call record, and the line that it leaves. -/

namespace Sys2Proof.Machine

variable {s : State} {l : LineNo} {c : Call} {x : Line}

/-! ### A line that leaves DROP (R50) -/

/-- The line once it goes OFF (R32, R54). -/
def offLine (x : Line) : Line :=
  { x with st := .off, ringCount := 0, ringGap := none, answerWait := none, dropGuard := none, disablePending := false }

/-- The line once it goes IDLE from DROP (R50). -/
def idleLine (x : Line) : Line := { x with st := .idle, ringCount := 0, dropGuard := none }

theorem leaveDrop_off (s : State) (l : LineNo) (closed : x.disablePending = true ∨ s.fitted ≤ l.val) :
    leaveDrop (s.setLine l x) l = s.setLine l (offLine x) := by
  have goes : (x.disablePending || !decide (l.val < s.fitted)) = true := by simpa using closed
  rw [leaveDrop, isFitted, State.line_setLine_self]
  refine (if_pos goes).trans ?_
  rw [goOff, State.modLine_setLine]
  rfl

theorem leaveDrop_idle (s : State) (l : LineNo) (flag : x.disablePending = false) (fitted : l.val < s.fitted) :
    leaveDrop (s.setLine l x) l = s.setLine l (idleLine x) := by
  have stays : ¬ (x.disablePending || !decide (l.val < s.fitted)) = true := by simp [flag, fitted]
  rw [leaveDrop, isFitted, State.line_setLine_self]
  refine (if_neg stays).trans ?_
  rw [State.modLine_setLine]
  rfl

/-! ### The removal of a call record (R29) -/

/-- The state in which line `l` no longer waits to forward. -/
def unforwarded (s : State) (l : LineNo) : State := { s with forwardWait := s.forwardWait.filter (· ≠ l) }

theorem haltIfDone_running (going : ∀ m, s.sfu.service ≠ .closing m) : haltIfDone s = s := by
  unfold haltIfDone
  split
  · next m closing => exact absurd closing (going m)
  · rfl

/-- A line in DROP whose call is gone stays while its guard runs (R29, R50). -/
theorem removeCall_inDrop (h : x.call = some c) (s : State) (l : LineNo) (going : ∀ m, s.sfu.service ≠ .closing m)
    (drop : x.st = .drop) :
    removeCall (s.setLine l x) l =
      if x.dropGuard = none then leaveDrop ((unforwarded s l).setLine l { x with call := none }) l
      else (unforwarded s l).setLine l { x with call := none } := by
  have there : (s.setLine l x).callOn l = some c := (State.callOn_setLine_self s l x).trans h
  unfold removeCall
  rw [there]
  dsimp only
  rw [State.modLine_setLine, haltIfDone_running (s := { s.setLine l { x with call := none } with forwardWait := _ }) going]
  simp only [State.line, State.setLine, Vector.getElem_set_self, drop, Fin.getElem_fin]
  rfl

/-- A line in UP whose call is gone signs on again, or drops (R29, R173). -/
theorem removeCall_inUp (h : x.call = some c) (s : State) (l : LineNo) (going : ∀ m, s.sfu.service ≠ .closing m) (up : x.st = .up) :
    removeCall (s.setLine l x) l =
      let t := (unforwarded s l).setLine l { x with call := none }
      if mayResign t l = true then resign t l c else dropBare t l := by
  have there : (s.setLine l x).callOn l = some c := (State.callOn_setLine_self s l x).trans h
  unfold removeCall
  rw [there]
  dsimp only
  rw [State.modLine_setLine, haltIfDone_running (s := { s.setLine l { x with call := none } with forwardWait := _ }) going]
  simp only [State.line, State.setLine, Vector.getElem_set_self, up, Fin.getElem_fin]
  rfl

theorem settle_unattached (hc : s.callOn l = some c) (phase : c.phase = .ending) (released : c.released = true)
    (attach : c.attach = none) : settle s l = removeCall s l := by
  simp [settle, hc, phase, released, attach]

/-- Settles O25, by the record on the line and the line's state. -/
theorem drainLimitAndDropGuardClearTheLine : Obligations.DrainLimitAndDropGuardClearTheLine := by
  intro s l x dropped
  have expires (c : Call) (hc : s.callOn l = some c) (phase : c.phase = .ending) (due : c.drain = some 0)
      (ended : c.endCause.isSome = true) :
      Completes (.drainLimitExpiry l) s (settle (s.setLine l { dropped with call := some (releasedAt c) }) l) := by
    refine congrArg Host.Outcome.next ?_
    rw [hc]
    refine (if_pos ⟨phase, (isDue_iff _).2 due⟩).trans ?_
    exact (congrArg (dropLine · l) (State.setLine_line s l).symm).trans (dropLine_setLine hc ended s l)
  have guarded (drop : x.st = .drop) (due : x.dropGuard = some 0) : Completes (.dropGuardPassed l) s
      (let t := s.setLine l { x with dropGuard := none }; if x.call = none then leaveDrop t l else t) := by
    refine congrArg Host.Outcome.next ((if_pos ⟨drop, (isDue_iff _).2 due⟩).trans ?_)
    dsimp only
    rw [State.modLine_eq, State.callOn_setLine_self]
  refine ⟨fun c hc phase due ended => ⟨fun attach closed unsent batch room => ?sent, fun none going => ?gone⟩,
    fun c hc no => ?still, fun drop due none flag fitted => ?idle, fun drop due none closed => ?off,
    fun drop due call => ?waits, fun no => ?quiet⟩
  case sent =>
    refine (expires c hc phase due ended).trans (congrArg Host.Outcome.next ?_)
    exact settle_closed (c := releasedAt c) rfl s l phase rfl attach closed unsent batch room
  case gone =>
    refine (expires c hc phase due ended).trans (congrArg Host.Outcome.next ?_)
    rw [settle_unattached (c := releasedAt c) (State.callOn_setLine_self s l _) phase rfl none,
      removeCall_inDrop (c := releasedAt c) rfl s l going rfl]
    rfl
  case still =>
    refine congrArg Host.Outcome.next ?_
    rw [hc]
    exact if_neg fun h => no.elim (· h.1) (· ((isDue_iff _).1 h.2))
  case idle =>
    refine (guarded drop due).trans (congrArg Host.Outcome.next ?_)
    dsimp only
    rw [if_pos none]
    exact leaveDrop_idle s l flag fitted
  case off =>
    refine (guarded drop due).trans (congrArg Host.Outcome.next ?_)
    dsimp only
    rw [if_pos none]
    exact leaveDrop_off s l closed
  case waits =>
    refine (guarded drop due).trans (congrArg Host.Outcome.next ?_)
    exact if_neg call
  case quiet =>
    exact congrArg Host.Outcome.next (if_neg fun h => no.elim (· h.1) (· ((isDue_iff _).1 h.2)))

end Sys2Proof.Machine
end

section
/-! SUPPORT. The billing record of a call whose CLOSED has been transmitted. -/

namespace Sys2Proof.Machine

variable {s : State} {l : LineNo} {c : Call} {x : Line} {at' : FrameNo × EntryNo} {e : Entry}

/-! ### The billing record (R174, R175) -/

/-- The state in which the record has been numbered, stored, added to the audit totals and sent, and the account's pin has passed
to it (R175). -/
def recorded (s : State) (at' : FrameNo × EntryNo) (r : BillRecord) : State :=
  recordPins (sendsOrdered { s with bst := { s.bst with
    store := s.bst.store ++ [r], nextRecord := advanceNumber s.bst.nextRecord
    auditCount := s.bst.auditCount + 1, auditCharge := s.bst.auditCharge + BitVec.ofNat 32 r.charge
    placed := bump s.bst.placed } } { tag := r.line.val, call := r.call, msg := .billRecord r }) at'

theorem placeRecord_setLine (h : x.call = some c) (attach : c.attach = some at') (few : s.bst.store.length < 31)
    (room : s.hli.ord.length < 47) :
    placeRecord (s.setLine l x) l = removeCall ((recorded s at' (makeRecord s l c at')).setLine l x) l := by
  have there : (s.setLine l x).callOn l = some c := (State.callOn_setLine_self s l x).trans h
  unfold placeRecord
  rw [there]
  dsimp only
  rw [attach]
  dsimp only
  rw [enqueueOrdered_room _ (by exact room)]
  refine congrArg (fun s => removeCall (recordPins s at') l) (if_neg ?_)
  simp only [List.length_append, List.length_singleton, Config.storeDepth, State.setLine]
  omega

theorem pins_modEntry (s : State) (at' : FrameNo × EntryNo) (f : Entry → Entry) (g : FrameNo) :
    ((s.modEntry at' f).frame g).pins = (s.frame g).pins := by
  by_cases same : at'.1 = g
  · subst same
    rw [State.modEntry, State.frame_modFrame_self]
  · rw [State.modEntry, State.frame_modFrame_ne _ _ (Ne.symm same)]

/-! ### Re-sign-on (R52, R173) -/

theorem resign_setLine (s : State) (l : LineNo) (x : Line) (ended : Call)
    (fits : (slotText s 0).length + (slotText s 1).length ≤ 256) :
    ∃ n, (∀ m d, m ≠ l → s.callOn m = some d → d.number ≠ n) ∧
      resign (s.setLine l x) l ended = ({ s with nextCall := advanceNumber n } : State).setLine l
        { x with
          ctr := { x.ctr with callsCreated := bump x.ctr.callsCreated }
          call := some { named s (Call.fresh n .name ended.speed (resignCopy x.settings ended.copy)) with
            txBuf := slotText s 0 ++ slotText s 1 } } := by
  obtain ⟨n, fresh, created⟩ := createCall_setLine s l x .name ended.speed (resignCopy x.settings ended.copy)
  refine ⟨n, fresh, ?_⟩
  let d := named s (Call.fresh n .name ended.speed (resignCopy x.settings ended.copy))
  let u : State := { s with nextCall := advanceNumber n }
  let y : Line := { x with ctr := { x.ctr with callsCreated := bump x.ctr.callsCreated }, call := some d }
  have entered : enterName (createdOn s l x (Call.fresh n .name ended.speed (resignCopy x.settings ended.copy))) l =
      u.setLine l y := by
    rw [enterName, createdOn]
    exact State.modCall_setLine_some
      (x := { y with call := some (Call.fresh n .name ended.speed (resignCopy x.settings ended.copy)) }) rfl u l _
  have banner : placeText (u.setLine l y) l 0 = u.setLine l { y with call := some { d with txBuf := slotText s 0 } } :=
    placeText_setLine (c := d) rfl u l 0 (by simp [d, named, Call.fresh]; exact Nat.le_of_add_right_le fits)
  have prompt : placeText (u.setLine l { y with call := some { d with txBuf := slotText s 0 } }) l 1 =
      u.setLine l { y with call := some { d with txBuf := slotText s 0 ++ slotText s 1 } } :=
    placeText_setLine (c := { d with txBuf := slotText s 0 }) rfl u l 1 fits
  rw [resign, startDialogue, State.line_setLine_self, created, entered, banner, prompt]

/-! ### A CLOSED transmitted (R172) -/

theorem closedTransmitted_eq (hc : s.callOn l = some c) (number : Nat) :
    closedTransmitted s l number =
      if c.number = number ∧ c.phase = .ending ∧ c.closedSent = true then closeOut (releaseSlot s l) l else s := by
  simp only [closedTransmitted, hc]

theorem releaseSlot_held (hc : s.callOn l = some c) (held : c.slotHeld = true) (empty : ∀ k : ClassNo, s.adm.queues[k] = []) :
    releaseSlot s l = ({ s with adm := { s.adm with inUse := s.adm.inUse - 1 } } : State).setLine l
      { s.line l with call := some { c with slotHeld := false } } := by
  have cleared : clearSlot s l = ({ s with adm := { s.adm with inUse := s.adm.inUse - 1 } } : State).setLine l
      { s.line l with call := some { c with slotHeld := false } } := by
    rw [clearSlot, hc]
    dsimp only
    rw [if_pos held]
    exact State.modCall_eq (s := { s with adm := { s.adm with inUse := s.adm.inUse - 1 } }) hc _
  rw [releaseSlot, runArbiter_empty (by rw [cleared]; exact empty), cleared]

/-- Settles O9: what any completion does to a CLOSED that no call waits for, and what it does by the state of the line. -/
theorem closedTransmittedReleasesTheSlotAndBills : Obligations.ClosedTransmittedReleasesTheSlotAndBills := by
  refine ⟨fun s f live => ⟨fun none => ?idle, fun sent dead => ?other, fun l c cause charge sent hc no => ?late⟩,
    fun s l c cause charge fr sl e sent hc phase waits held attach entry empty few opened room => ?_⟩
  case idle =>
    refine congrArg Host.Outcome.next ?_
    rw [none]
  case other =>
    refine congrArg Host.Outcome.next ?_
    rw [sent]
    dsimp only
    split
    · next cause charge is =>
      exact if_neg fun alive => dead.elim (by simp [alive]) (· cause charge is)
    · rfl
  case late =>
    refine congrArg Host.Outcome.next ?_
    rw [sent]
    dsimp only
    rw [Fin.ofNat_val_eq_self]
    cases live with
    | false => rfl
    | true =>
      refine (if_pos rfl).trans ((closedTransmitted_eq (s := { s with hli := { s.hli with tx := none } }) hc _).trans (if_neg ?_))
      exact fun h => no.elim (· h.2.1) fun off => by simp [off] at h
  intro r x billed becomes closed
  let d : Call := { c with slotHeld := false }
  let v : State := { s with hli := { s.hli with tx := none }, adm := { s.adm with inUse := s.adm.inUse - 1 } }
  let w := recorded v (fr, sl) r
  have run : Completes .frameTransmitted s (removeCall (w.setLine l { x with call := some d }) l) := by
    refine congrArg Host.Outcome.next ?_
    rw [sent]
    dsimp only
    rw [Fin.ofNat_val_eq_self, if_pos rfl, closedTransmitted_eq (s := { s with hli := { s.hli with tx := none } }) hc,
      if_pos ⟨rfl, phase, waits⟩, releaseSlot_held (s := { s with hli := { s.hli with tx := none } }) hc held empty, closeOut]
    refine (if_pos (show s.bst.store.length < 32 by omega)).trans ?_
    have made : makeRecord v l d (fr, sl) = r := by
      have there : v.entryAt (fr, sl) = some e := entry
      rw [makeRecord, there]
      rfl
    have placed := placeRecord_setLine (s := v) (l := l) (x := { x with call := some d }) (c := d) rfl attach few room
    rw [made] at placed
    exact placed
  let b := unforwarded w l
  have settled (y : Line) (n : Nat) (run : Completes .frameTransmitted s (({ b with nextCall := n } : State).setLine l y)) :
      billed (({ b with nextCall := n } : State).setLine l y) := by
    refine ⟨run, fun m ne => State.line_setLine_ne _ _ ne, rfl, rfl, rfl, ?_, fun a ne => ?_, fun g => ?_, rfl, rfl, rfl, rfl⟩
    · refine (State.entryAt_modEntry_self _ _ _).trans ?_
      exact congrArg (Option.map _) entry
    · exact State.entryAt_modEntry_ne _ _ ne
    · exact pins_modEntry _ _ _ g
  have goes (y : Line) (run : Completes .frameTransmitted s (b.setLine l y)) (call : y.call = none) : becomes y := by
    have eq : y = { y with call := none } := by rw [← call]
    exact ⟨_, settled y s.nextCall run, (State.line_setLine_self b l y).trans eq, rfl⟩
  have going : ∀ m, w.sfu.service ≠ .closing m := fun m h => nomatch opened.symm.trans h
  have inDrop (drop : x.st = .drop) := removeCall_inDrop (x := { x with call := some d }) (c := d) rfl w l going drop
  have inUp (up : x.st = .up) := removeCall_inUp (x := { x with call := some d }) (c := d) rfl w l going up
  let bare : Line := { x with call := none }
  have resigns : mayResign (b.setLine l bare) l = true ↔ ¬ closed := by
    rw [mayResign_iff, State.line_setLine_self, not_or, Nat.not_le, Bool.not_eq_true]
    exact ⟨fun ⟨flag, fitted, _⟩ => ⟨flag, fitted⟩, fun ⟨flag, fitted⟩ => ⟨flag, fitted, opened⟩⟩
  refine ⟨fun drop guard => ?stays, fun drop past open' => ?leaves, fun drop past shut => ?off, fun up shut => ?drops,
    fun up open' fits => ?signs⟩
  case stays =>
    rw [inDrop drop, if_neg (fun h => by simp [show x.dropGuard = none from h] at guard)] at run
    exact goes bare run rfl
  case leaves =>
    obtain ⟨flag, fitted⟩ := not_or.1 open'
    rw [inDrop drop, if_pos past] at run
    have left := leaveDrop_idle (x := bare) b l (by simpa using flag) (Nat.lt_of_not_le fitted)
    obtain ⟨t, h, on, next⟩ := goes _ (run.trans (congrArg Host.Outcome.next left)) rfl
    exact ⟨t, h, on.trans (congrArg (fun g => ({ bare with st := .idle, ringCount := 0, dropGuard := g } : Line)) past.symm), next⟩
  case off =>
    rw [inDrop drop, if_pos past] at run
    have left := leaveDrop_off (x := bare) b l shut
    obtain ⟨t, h, on, next⟩ := goes _ (run.trans (congrArg Host.Outcome.next left)) rfl
    exact ⟨t, h, on.trans (congrArg (fun g => ({ bare with
      st := .off, ringCount := 0, ringGap := none, answerWait := none, dropGuard := g, disablePending := false } : Line)) past.symm),
      next⟩
  case drops =>
    rw [inUp up] at run
    have left : mayResign (b.setLine l bare) l ≠ true := fun h => resigns.1 h shut
    exact goes (droppedLine bare) (run.trans (congrArg Host.Outcome.next ((if_neg left).trans (dropBare_setLine b l bare)))) rfl
  case signs =>
    rw [inUp up] at run
    obtain ⟨n, fresh, signed⟩ := resign_setLine b l bare d fits
    refine ⟨_, _, settled _ _ (run.trans (congrArg Host.Outcome.next ((if_pos (resigns.2 open')).trans signed))),
      State.line_setLine_self _ l _, fun m o ne on => fresh m o ne on, rfl, rfl, rfl, rfl, rfl, rfl, rfl, rfl, rfl, rfl, rfl, rfl, rfl,
      rfl⟩

end Sys2Proof.Machine
end

section
/-! SUPPORT. The searches of the account cache, and what a lookup that has been placed does. -/

namespace Sys2Proof.Machine

variable {s t : State} {l : LineNo} {c : Call} {x : Line} {k : Lookup} {f : FrameNo} {b : Nat}

/-! ### Searches (R76, R80, R81, R82, R93) -/

theorem find?_finRange {n : Nat} {p : Fin n → Bool} {i : Fin n} :
    (List.finRange n).find? p = some i ↔ p i = true ∧ ∀ j, j < i → p j = false := by
  constructor
  · intro h
    refine ⟨List.find?_some h, fun j less => ?_⟩
    obtain ⟨-, place, bound, here, before⟩ := List.find?_eq_some_iff_getElem.mp h
    have same : i.val = place := by rw [← here]; simp
    simpa using before j.val (same ▸ less)
  · rintro ⟨here, first⟩
    obtain ⟨j, found⟩ : ∃ j, (List.finRange n).find? p = some j :=
      Option.isSome_iff_exists.1 (List.find?_isSome.2 ⟨i, List.mem_finRange i, here⟩)
    rw [found, Option.some_inj]
    rcases lt_trichotomy j i with less | same | more
    · exact absurd (List.find?_some found) (by simp [first j less])
    · exact same
    · obtain ⟨-, place, bound, at', before⟩ := List.find?_eq_some_iff_getElem.mp found
      have place_eq : j.val = place := by rw [← at']; simp
      have := before i.val (place_eq ▸ more)
      simp [here] at this

/-- The one place that a search over all places can find. -/
theorem find?_only {n : Nat} {p : Fin n → Bool} {i : Fin n} (here : p i = true) (only : ∀ j, j ≠ i → p j = false) :
    (List.finRange n).find? p = some i :=
  find?_finRange.2 ⟨here, fun j less => only j (Fin.ne_of_lt less)⟩

theorem find?_nowhere {n : Nat} {p : Fin n → Bool} (no : ∀ j, p j = false) : (List.finRange n).find? p = none :=
  List.find?_eq_none.2 fun j _ => by simp [no j]

theorem fetchOf_none (no : ∀ (j : SlotNo) y, s.acc.slots[j] = some y → y.bucket ≠ b) : fetchOf s b = none := by
  refine find?_nowhere fun j => decide_eq_false fun h => ?_
  cases slot : s.acc.slots[j] with
  | none => simp [slot] at h
  | some y => exact no j y slot (by simpa [slot] using h)

theorem freeSlot_some {i : SlotNo} (free : s.acc.slots[i] = none) (first : ∀ j : SlotNo, j < i → s.acc.slots[j] ≠ none) :
    freeSlot s = some i := by
  refine find?_finRange.2 ⟨by rw [free]; rfl, fun j less => ?_⟩
  rw [← Bool.not_eq_true, Option.isNone_iff_eq_none]
  exact first j less

theorem findBucket_none (no : ∀ g, (s.frame g).bucket ≠ some b) : findBucket s b = none :=
  find?_nowhere fun g => decide_eq_false (no g)

theorem findBucket_some (held : HeldBy s b f) : findBucket s b = some f :=
  find?_only (decide_eq_true held.holds) fun g ne => decide_eq_false fun h => ne (held.alone g h)

theorem searchFrame_none {x : Frame} {name : List Byte}
    (no : ∀ (i : EntryNo) e, x.entries[i] = some e → e.withdrawn = true ∨ e.userName ≠ name) : searchFrame x name = none := by
  refine find?_nowhere fun i => ?_
  split
  · next e there => rcases no i e there with gone | other <;> simp [*]
  · rfl

theorem searchFrame_some {x : Frame} {name : List Byte} {i : EntryNo} {e : Entry} (there : x.entries[i] = some e)
    (searchable : e.withdrawn = false) (named : e.userName = name)
    (only : ∀ (j : EntryNo) d, j ≠ i → x.entries[j] = some d → d.withdrawn = false → d.userName ≠ name) :
    searchFrame x name = some i := by
  refine find?_only ?_ fun j ne => ?_
  · rw [there]
    simp [searchable, named]
  · split
    · next d other => cases gone : d.withdrawn <;> simp [only j d ne other, gone]
    · rfl

/-! ### A lookup is placed (R80, R82) -/

theorem tryPlace_found {i : EntryNo} (fetch : fetchOf s k.bucket = none) (there : findBucket s k.bucket = some f)
    (valid : (s.frame f).st = .valid) (found : searchFrame (s.frame f) k.name = some i) (blocks : Bool) :
    tryPlace s k blocks = (resolveLookup (touchFrame s f) k (.found (f, i)), false) := by
  have found' : searchFrame ((touchFrame s f).frame f) k.name = some i := found
  simp [tryPlace, placeCases, fetch, there, valid, found']

theorem tryPlace_unknown (fetch : fetchOf s k.bucket = none) (there : findBucket s k.bucket = some f)
    (valid : (s.frame f).st = .valid) (found : searchFrame (s.frame f) k.name = none) (fresh : (s.frame f).fresh = true)
    (blocks : Bool) : tryPlace s k blocks = (resolveLookup (touchFrame s f) k .unknown, false) := by
  have found' : searchFrame ((touchFrame s f).frame f) k.name = none := found
  have fresh' : ((touchFrame s f).frame f).fresh = true := fresh
  simp [tryPlace, placeCases, fetch, there, valid, found', fresh']

theorem tryPlace_fetched {i : SlotNo} (fetch : fetchOf s k.bucket = none) (nowhere : findBucket s k.bucket = none)
    (takes : chooseFrame s = some f) (free : freeSlot s = some i) :
    tryPlace s k false = (issueFetch s i f .load k, false) := by
  simp [tryPlace, placeCases, fetch, nowhere, takes, free]

/-- A load fetch takes its slot and its frame, and is sent (R82). -/
theorem issueFetch_load (s : State) (i : SlotNo) (f : FrameNo) (k : Lookup) (room : s.hli.prio.length < 16)
    (quiet : s.hli.prioWait = []) :
    issueFetch s i f .load k = { s with
      acc := { s.acc with
        slots := s.acc.slots.set i (some
          { bucket := k.bucket, frame := f, kind := .load, waiters := [k], timer := startTimer s.acc.wait })
        frames := s.acc.frames.set f { Frame.empty with st := .fetching .load, bucket := some k.bucket }
        fetches := oneMore s.acc.fetches }
      hli := { s.hli with prio := s.hli.prio ++ [{ tag := 255, call := 0, msg := .bucketFetch i k.bucket }] } } :=
  enqueuePriority_room _ room quiet

theorem resolveLookup_waiting (hc : s.callOn k.line = some c) (number : c.number = k.call) (phase : c.phase = .lookup)
    (o : LookupOutcome) : resolveLookup s k o = actOnOutcome s k.line o := by
  simp [resolveLookup, hc, number, phase]

/-! ### The lookup of a call in PASSWORD (R65, R67) -/

/-- The call in LOOKUP. -/
def lookingUp (c : Call) : Call := { c with phase := .lookup, fieldTimer := none }

/-- The state in which call `c` on line `l` has gone to LOOKUP, its lookup counted. -/
def askedState (s : State) (l : LineNo) (c : Call) : State :=
  ({ s with acc := { s.acc with lookups := oneMore s.acc.lookups } } : State).setLine l
    { s.line l with rxLow := false, call := some (lookingUp c) }

/-- The lookup that call `c` on line `l` makes. -/
def lookupFor (s : State) (l : LineNo) (c : Call) : Lookup :=
  { line := l, call := c.number, name := padName c.nameBuf, bucket := typedBucket s c }

theorem parityCounted_of_cr {format : DataFormat} {bits : Byte} {parity : Bool} (cr : delivered format bits parity = 0x0D) :
    parityCounted s l format bits parity = s := by
  refine if_neg fun bad => ?_
  rw [delivered, if_pos bad] at cr
  exact absurd cr (by decide)

theorem password_asks {bits : Byte} {parity : Bool} (h : Hears s l c) (phase : c.phase = .password)
    (service : s.sfu.service = .opened) (cr : delivered c.copy.format bits parity = 0x0D) :
    Completes (.receivedCharacter l bits parity true) s (
      let r := tryPlace (askedState s l c) (lookupFor s l c) (!s.acc.backlog.isEmpty)
      if r.2 then { r.1 with acc := { r.1.acc with backlog := r.1.acc.backlog ++ [lookupFor s l c] } } else r.1) := by
  have run := receivedCharacter_password h phase bits parity
  simp only [cr, parityCounted_of_cr cr] at run
  refine run.trans (congrArg Host.Outcome.next ((byKind_cr rfl).trans ?_))
  have asked : (heard s l { c with fieldTimer := startTimer s.soe.fieldTimeout }).modCall l
      (fun c => { c with phase := .lookup, fieldTimer := none }) =
        s.setLine l { s.line l with rxLow := false, call := some (lookingUp c) } :=
    State.modCall_setLine_some (c := { c with fieldTimer := startTimer s.soe.fieldTimeout }) rfl s l _
  unfold endPassword
  rw [asked]
  exact if_pos (decide_eq_true service)

/-- Settles O30: the lookup finds no fetch and no frame, and its own fetch goes out. -/
theorem lookupOfAnUncachedBucketIsFetched : Obligations.LookupOfAnUncachedBucketIsFetched := by
  intro s l c bits parity i f h phase service cr noFetch noFrame backlog free first takes room quiet b
  have run := password_asks h phase service cr
  have chosen : chooseFrame (askedState s l c) = some f := (chooseFrame_eq_some_iff s f).2 takes
  have placed : tryPlace (askedState s l c) (lookupFor s l c) false = _ :=
    tryPlace_fetched (fetchOf_none noFetch) (findBucket_none noFrame) chosen (freeSlot_some free first)
  simp only [backlog, List.isEmpty_nil, Bool.not_true, placed, Bool.false_eq_true, if_false] at run
  rw [issueFetch_load (askedState s l c) i f _ room quiet] at run
  refine ⟨_, run, State.line_setLine_self _ l _, fun m ne => State.line_setLine_ne _ _ ne, rfl, rfl, Vector.getElem_set_self ..,
    fun j ne => ?_, ?_, fun g ne => ?_, backlog, rfl, rfl, rfl, rfl, rfl, rfl, rfl⟩
  · exact Vector.getElem_set_ne i.isLt j.isLt fun e => ne (Fin.ext e.symm)
  · exact Vector.getElem_set_self ..
  · exact Vector.getElem_set_ne f.isLt g.isLt fun e => ne (Fin.ext e.symm)

/-! ### DIRECTORY SET and BUCKET INVALIDATE (R92, R95) -/

/-- A request in range, by the outcome of carrying it out. -/
theorem takeReplied_outcome {code : Nat} {q : InFrame} {rest : List InFrame} (h : Requested s code q rest) (r : isReplied code = true)
    {bad : Option Nat} {carry : State → State × Answer} {a : Answer} {u : State} (hb : bad = none)
    (ha : carry (afterReply s q rest .format) = (u, a)) :
    takeReplied s code (fun _ s => checked bad s carry) = setPriority u s.hli.prio.length (replyTo q a) := by
  rw [takeReplied_good h r carry hb, ha]

theorem directorySetBad_eq (size : Nat) (wait : Interval) : directorySetBad size wait =
    if size = 0 ∨ 16384 < size then some 0 else if 63 < wait.count then some 1 else none := by
  have timer : intervalOk wait = decide (¬ 63 < wait.count) := by
    rw [Bool.eq_iff_iff, intervalOk_iff, decide_eq_true_iff, Nat.not_lt]
  unfold directorySetBad
  rw [timer]
  by_cases a : size = 0 ∨ 16384 < size
  · have out : ¬ (1 ≤ size ∧ size ≤ 16384) := by omega
    simp only [firstBad, ← Bool.decide_and, decide_eq_true_iff, if_neg out, if_pos a]
  · have inside : 1 ≤ size ∧ size ≤ 16384 := by omega
    by_cases w : 63 < wait.count
    · simp [firstBad, a, w, inside]
    · simp [firstBad, a, w, inside]

theorem cacheIdle_iff (s : State) : cacheIdle s = true ↔
    (∀ g, (s.frame g).pins = 0) ∧ (∀ i : SlotNo, s.acc.slots[i] = none) ∧ s.acc.backlog = [] := by
  unfold cacheIdle
  simp only [Bool.and_eq_true, List.all_eq_true, decide_eq_true_iff, Option.isNone_iff_eq_none, List.isEmpty_iff, and_assoc]
  exact and_congr ⟨fun h g => h g (List.mem_finRange g), fun h g _ => h g⟩
    (and_congr ⟨fun h i => h i (List.mem_finRange i), fun h i _ => h i⟩ Iff.rfl)

theorem invalidateBucket_nowhere (no : ∀ g, (s.frame g).bucket ≠ some b) :
    invalidateBucket s b = (s, .done (.invalidated .notCached)) := by
  simp only [invalidateBucket, findBucket_none no]

theorem invalidateBucket_fetching {kind : FetchKind} (held : HeldBy s b f) (st : (s.frame f).st = .fetching kind) :
    invalidateBucket s b = (s, .done (.invalidated .fetching)) := by
  simp only [invalidateBucket, findBucket_some held, st]

theorem invalidateBucket_refreshDue (held : HeldBy s b f) (st : (s.frame f).st = .refreshDue) :
    invalidateBucket s b = (s, .done (.invalidated .refreshDue)) := by
  simp only [invalidateBucket, findBucket_some held, st]

theorem invalidateBucket_free (held : HeldBy s b f) (st : (s.frame f).st = .valid) (free : (s.frame f).pins = 0) :
    invalidateBucket s b = (emptyFrame s f, .done (.invalidated .freed)) := by
  simp only [invalidateBucket, findBucket_some held, st]
  exact if_pos free

theorem invalidateBucket_pinned (held : HeldBy s b f) (st : (s.frame f).st = .valid) (pinned : 1 ≤ (s.frame f).pins) :
    invalidateBucket s b = (s.modFrame f fun y => { y with st := .refreshDue }, .done (.invalidated .refreshDue)) := by
  simp only [invalidateBucket, findBucket_some held, st]
  exact if_neg (Nat.ne_of_gt pinned)

/-- Settles O41, request by request. -/
theorem directorySetAndInvalidate : Obligations.DirectorySetAndInvalidate := by
  refine ⟨fun s f rest size wait h => ?directory, fun s f rest b h => ?invalidate⟩
  case directory =>
    intro cmd answered unused
    let u := afterReply s f rest .format
    have bad := directorySetBad_eq size wait
    have refused {i : Nat} (bad : directorySetBad size wait = some i) : OnlyAnswers cmd s f rest (.refused .badValue (.index i)) :=
      congrArg Host.Outcome.next (takeReplied_bad h (by decide) (fun _ => directorySetBad size wait) _ bad)
    have good (a : 1 ≤ size) (b : size ≤ 16384) (w : wait.count ≤ 63) : directorySetBad size wait = none := by
      rw [bad, if_neg (by omega), if_neg (by omega)]
    refine ⟨fun out => refused (by rw [bad, if_pos out]), fun a b w => refused (by rw [bad, if_neg (by omega), if_pos w]),
      fun a b w same => ?same, fun a b w other used => ?used, fun a b w other idle => ?resized⟩
    case same =>
      have run := takeReplied_outcome h (by decide) (good a b w) (carry := fun s => setDirectory s size wait) (if_pos same)
      refine congrArg Host.Outcome.next (run.trans ?_)
      exact congrArg (fun t : State => { t with acc := { s.acc with wait := wait } })
        (setPriority_afterReply s f rest .format (.done .none))
    case used =>
      have busy : ¬ cacheIdle u = true := fun h => used ((cacheIdle_iff u).1 h)
      exact congrArg Host.Outcome.next
        (takeReplied_answers h (by decide) (good a b w) ((if_neg other).trans (if_neg busy)))
    case resized =>
      have run := takeReplied_outcome h (by decide) (good a b w) (carry := fun s => setDirectory s size wait)
        ((if_neg other).trans (if_pos ((cacheIdle_iff u).2 idle)))
      refine congrArg Host.Outcome.next (run.trans ?_)
      exact congrArg (fun t : State => { t with
        acc := { s.acc with size := size, wait := wait, frames := Vector.replicate 96 Frame.empty } })
        (setPriority_afterReply s f rest .format (.done .none))
  case invalidate =>
    intro cmd
    let u := afterReply s f rest .format
    have good (small : b ≤ 16383) : firstBad [(0, decide (b ≤ 16383))] = none := by simp [firstBad, small]
    have heldBy {g : FrameNo} (held : HeldBy s b g) : HeldBy u b g := ⟨held.holds, held.alone⟩
    have answers (small : b ≤ 16383) {a : Answer} (ha : invalidateBucket u b = (u, a)) : OnlyAnswers cmd s f rest a :=
      congrArg Host.Outcome.next (takeReplied_answers h (by decide) (good small) ha)
    have changes (small : b ≤ 16383) (g : FrameNo) (y : Frame → Frame) {a : Answer}
        (ha : invalidateBucket u b = (u.modFrame g y, a)) : Completes cmd s ((afterReply s f rest a).modFrame g y) := by
      have run := takeReplied_outcome h (by decide) (good small) (carry := fun s => invalidateBucket s b) ha
      refine congrArg Host.Outcome.next (run.trans ?_)
      exact congrArg (State.modFrame · g y) (setPriority_afterReply s f rest .format a)
    refine ⟨fun large => ?large, fun small nowhere => answers small (invalidateBucket_nowhere nowhere),
      fun g small held => ⟨fun kind st => answers small (invalidateBucket_fetching (heldBy held) st),
        fun st => answers small (invalidateBucket_refreshDue (heldBy held) st),
        fun st free => changes small g _ (invalidateBucket_free (heldBy held) st free),
        fun st pinned => changes small g _ (invalidateBucket_pinned (heldBy held) st pinned)⟩⟩
    exact congrArg Host.Outcome.next (takeReplied_bad h (by decide) (fun _ => firstBad [(0, decide (b ≤ 16383))]) _
      (by simp [firstBad, Nat.not_le.2 large]))

end Sys2Proof.Machine
end

section
/-! SUPPORT. The outcome of a lookup that finds its bucket: the sign-on passed or rejected. -/

namespace Sys2Proof.Machine

variable {s t : State} {l : LineNo} {c : Call} {x : Line} {f : FrameNo} {i : EntryNo} {e : Entry} {at' : FrameNo × EntryNo}

/-! ### The outcome of a lookup (R69 to R73) -/

theorem actOnOutcome_unknown (hc : s.callOn l = some c) : actOnOutcome s l .unknown = invalidLookup s l 0 .unknown := by
  simp [actOnOutcome, hc]

theorem actOnOutcome_wrong (hc : s.callOn l = some c) (entry : s.entryAt at' = some e) (wrong : passwordPasses e c.pwBuf = false) :
    actOnOutcome s l (.found at') = invalidLookup s l e.account .password := by
  simp [actOnOutcome, hc, entry, wrong]

theorem actOnOutcome_refused {reason : SignOnReason} (hc : s.callOn l = some c) (entry : s.entryAt at' = some e)
    (right : passwordPasses e c.pwBuf = true) (fails : signOnCheck s c e = some reason) :
    actOnOutcome s l (.found at') = refuseSignOn (clearPassword s l) l e.account reason := by
  simp [actOnOutcome, hc, entry, right, fails]

theorem actOnOutcome_passed (hc : s.callOn l = some c) (entry : s.entryAt at' = some e)
    (right : passwordPasses e c.pwBuf = true) (passes : signOnCheck s c e = none) :
    actOnOutcome s l (.found at') = attachCall (clearPassword s l) l at' e.cls := by
  simp [actOnOutcome, hc, entry, right, passes]

/-! ### A lookup that finds its bucket (R80, R81) -/

/-- The state in which the lookup of call `c` on line `l` has searched frame `f`. -/
def searched (s : State) (l : LineNo) (c : Call) (f : FrameNo) : State := touchFrame (askedState s l c) f

theorem searched_callOn (s : State) (l : LineNo) (c : Call) (f : FrameNo) : (searched s l c f).callOn l = some (lookingUp c) :=
  State.callOn_setLine_self _ l _

theorem searched_check (s : State) (l : LineNo) (c : Call) (f : FrameNo) (e : Entry) :
    signOnCheck (searched s l c f) (lookingUp c) e = signOnCheck s c e := rfl

theorem password_found {bits : Byte} {parity : Bool} (h : Finds s l c f i e) (cr : delivered c.copy.format bits parity = 0x0D) :
    Completes (.receivedCharacter l bits parity true) s (actOnOutcome (searched s l c f) l (.found (f, i))) := by
  have run := password_asks h.toHears h.phase h.service cr
  have found : searchFrame (s.frame f) (padName c.nameBuf) = some i :=
    searchFrame_some h.entry h.searchable h.name fun j d ne there live => h.only j d ne there live
  have there : findBucket s (typedBucket s c) = some f := findBucket_some ⟨h.bucket, h.alone⟩
  have placed := tryPlace_found (s := askedState s l c) (k := lookupFor s l c) (fetchOf_none h.no_fetch) there h.valid found
    (!s.acc.backlog.isEmpty)
  rw [placed] at run
  refine run.trans (congrArg Host.Outcome.next ?_)
  exact resolveLookup_waiting (searched_callOn s l c f) rfl rfl _

theorem password_unknown {bits : Byte} {parity : Bool} (h : LooksUp s l c f) (cr : delivered c.copy.format bits parity = 0x0D)
    (fresh : (s.frame f).fresh = true)
    (no : ∀ i e, s.entryAt (f, i) = some e → e.withdrawn = true ∨ e.userName ≠ padName c.nameBuf) :
    Completes (.receivedCharacter l bits parity true) s (actOnOutcome (searched s l c f) l .unknown) := by
  have run := password_asks h.toHears h.phase h.service cr
  have there : findBucket s (typedBucket s c) = some f := findBucket_some ⟨h.bucket, h.alone⟩
  have placed := tryPlace_unknown (s := askedState s l c) (k := lookupFor s l c) (fetchOf_none h.no_fetch) there h.valid
    (searchFrame_none no) fresh (!s.acc.backlog.isEmpty)
  rw [placed] at run
  refine run.trans (congrArg Host.Outcome.next ?_)
  exact resolveLookup_waiting (searched_callOn s l c f) rfl rfl _

/-! ### A sign-on that passes (R73, R103) -/

/-- The call that is attached to an entry (R73). -/
def attachedCall (s : State) (c : Call) (at' : FrameNo × EntryNo) (k : ClassNo) : Call :=
  { c with attach := some at', cls := some k, signOn := some s.ctu.now }

theorem attachCall_setLine (h : x.call = some c) (s : State) (l : LineNo) (at' : FrameNo × EntryNo) (k : ClassNo) :
    attachCall (s.setLine l x) l at' k =
      offer ((attachPins s at').setLine l { x with call := some (attachedCall s c at' k) }) l k := by
  have pinned : attachPins (s.setLine l { x with call := some { c with attach := some at' } }) at' =
      (attachPins s at').setLine l { x with call := some { c with attach := some at' } } := rfl
  unfold attachCall
  dsimp only
  rw [State.modCall_setLine_some h, pinned, State.modCall_setLine_some rfl]
  rfl

theorem frame_attachPins_self (entry : s.entryAt (f, i) = some e) : (attachPins s (f, i)).frame f =
    { s.frame f with
      pins := (s.frame f).pins + 1, entries := (s.frame f).entries.set i (some { e with attached := e.attached + 1 }) } := by
  have there : (s.frame f).entries[i] = some e := entry
  simp only [attachPins, State.frame_modFrame_self, State.modEntry, there, Option.map_some]

theorem frame_attachPins_ne {g : FrameNo} (ne : g ≠ f) : (attachPins s (f, i)).frame g = s.frame g := by
  simp only [attachPins, State.modEntry, State.frame_modFrame_ne _ _ ne]

theorem entryAt_attachPins (entry : s.entryAt (f, i) = some e) :
    (attachPins s (f, i)).entryAt (f, i) = some { e with attached := e.attached + 1 } := by
  rw [State.entryAt, frame_attachPins_self entry]
  exact Vector.getElem_set_self ..

/-- A call that joins the tail of its queue is behind those that stand there (R102). -/
theorem queuePlace_tail (s : State) (l : LineNo) (k : ClassNo) (alone : ∀ j : ClassNo, l ∉ s.adm.queues[j]) :
    queuePlace (s.setQueue k (s.adm.queues[k] ++ [l])) l = some (k, (s.adm.queues[k]).length + 1) := by
  refine queuePlace_split (behind := []) (Vector.getElem_set_self ..) (alone k) fun j ne => ?_
  have other : (s.setQueue k (s.adm.queues[k] ++ [l])).adm.queues[j] = s.adm.queues[j] :=
    Vector.getElem_set_ne k.isLt j.isLt fun e => ne (Fin.ext e.symm)
  exact fun there => alone j (other ▸ there)

/-- A call that is offered while a slot is free is granted it (R103, R108). -/
theorem offer_granted {k : ClassNo} (hc : s.callOn l = some c) (free : slotFree s k = true) (alone : ∀ j : ClassNo, l ∉ s.adm.queues[j]) :
    offer s l k = { s with
      hli := (offer s l k).hli, lines := (offer s l k).lines
      adm := { s.adm with
        inUse := s.adm.inUse + 1, grants := oneMore s.adm.grants
        upper := if s.adm.classes[k].group = .high then k.castSucc else 4
        low := if s.adm.classes[k].group = .high then s.adm.low else k } } ∧
    (offer s l k).line l = { s.line l with call := some (opened s c) } ∧ OtherLinesKept s (offer s l k) l ∧
    (s.hli.ord.length < 47 → (offer s l k).hli = { s.hli with ord := s.hli.ord ++ [openRequest s l c] }) := by
  have granted : offer s l k = setPointers (grant s l) k := if_pos free
  have kept : (admGranted s l).queues = s.adm.queues := by
    refine Vector.ext fun j less => ?_
    have out : l ∉ s.adm.queues[j] := alone ⟨j, less⟩
    simp only [admGranted, Vector.getElem_ofFn]
    exact List.filter_eq_self.2 fun m mem => decide_eq_true fun same => out (same ▸ mem)
  have stands (m : LineNo) : (setPointers (grant s l) k).line m = (grant s l).line m := by
    simp only [State.line, setPointers_lines]
  rw [granted]
  refine ⟨?blocks, ?line, fun m ne => ?others, fun room => ?hli⟩
  case blocks =>
    conv_lhs => rw [selectOne_eq]
    simp only [admGranted] at kept ⊢
    rw [kept, setPointers_eq]
    rfl
  case line => rw [stands, grant_call hc, State.line_setLine_self]
  case others =>
    rw [stands, grant_call hc, State.line_setLine_ne _ _ ne, enqueueOrdered_eq]
    rfl
  case hli =>
    rw [setPointers_eq, grant_call hc, enqueueOrdered_room (s := { s with adm := admGranted s l }) _ room]
    rfl

/-- A call that is offered while no slot is free joins the tail of its queue (R103). -/
theorem offer_queued {k : ClassNo} (h : x.call = some c) (s : State) (l : LineNo) (full : slotFree s k = false)
    (alone : ∀ j : ClassNo, l ∉ s.adm.queues[j]) :
    let period := s.adm.classes[k].announce
    let told := if period.count = 0 then [] else placed (numbered s 9 ((s.adm.queues[k]).length + 1))
    let fits := told = [] ∨ c.txBuf.length + told.length ≤ 256
    offer (s.setLine l x) l k =
      ({ s with
        soe := { s.soe with textDrops := if fits then s.soe.textDrops else oneMore s.soe.textDrops }
        adm := { s.adm with queues := s.adm.queues.set k (s.adm.queues[k] ++ [l]) } } : State).setLine l { x with call := some { c with
          phase := .queued, queueWait := startTimer s.adm.classes[k].queueWait, announce := startTimer period
          txBuf := if fits then c.txBuf ++ told else c.txBuf } } := by
  have waits : offer (s.setLine l x) l k = joinTail (s.setLine l x) l k := if_neg (by simp [show slotFree (s.setLine l x) k = false from full])
  rw [waits]
  exact startQueueing_setLine h (s.setQueue k (s.adm.queues[k] ++ [l])) l k (queuePlace_tail s l k alone)

/-- Settles O33: the lookup finds its entry, the call is attached, and a free slot decides between the grant and the queue. -/
theorem passedSignOnIsAttachedAndOffered : Obligations.PassedSignOnIsAttachedAndOffered := by
  intro s l c bits parity f i e cr h right passes alone attached
  have run := password_found h cr
  rw [actOnOutcome_passed (searched_callOn s l c f) h.entry right ((searched_check s l c f e).trans passes)] at run
  let b : State := { s with acc := { s.acc with
    lookups := oneMore s.acc.lookups, order := (s.acc.order.filter fun g => decide (g ≠ f)) ++ [f] } }
  let x : Line := { s.line l with rxLow := false, call := some { c with phase := .lookup, fieldTimer := none, pwBuf := [] } }
  have cleared : clearPassword (searched s l c f) l = b.setLine l x :=
    State.modCall_setLine_some (x := { s.line l with rxLow := false, call := some (lookingUp c) }) (c := lookingUp c) rfl b l _
  have attaching := attachCall_setLine (x := x) (c := { c with phase := .lookup, fieldTimer := none, pwBuf := [] }) rfl b l (f, i) e.cls
  let p := attachPins b (f, i)
  let d : Call := { attached with phase := .lookup }
  let w := p.setLine l { x with call := some d }
  have offered : Completes (.receivedCharacter l bits parity true) s (offer w l e.cls) := by
    rw [cleared, attaching] at run
    exact run
  have there : w.callOn l = some d := State.callOn_setLine_self p l _
  have entry : w.entryAt (f, i) = some { e with attached := e.attached + 1 } := entryAt_attachPins (s := b) h.entry
  have frames : w.frame f = { s.frame f with
      pins := (s.frame f).pins + 1, entries := (s.frame f).entries.set i (some { e with attached := e.attached + 1 }) } :=
    frame_attachPins_self (s := b) h.entry
  have others (g : FrameNo) (ne : g ≠ f) : w.frame g = s.frame g := frame_attachPins_ne (s := b) ne
  cases free : slotFree s e.cls with
  | true =>
    obtain ⟨blocks, on, kept, sent⟩ := offer_granted (s := w) (k := e.cls) there free alone
    refine ⟨_, offered, fun m ne => ?_, ?_, ?_, ?_, ?_, ?_, fun g ne => ?_, ?_, ?_, ?_, ?_, ?_,
      fun _ room => ⟨?line, ?adm, fun v speed => ?hli⟩, nofun⟩
    · rw [kept m ne]
      exact State.line_setLine_ne p _ ne
    · rw [blocks]; rfl
    · rw [blocks]; rfl
    · rw [blocks]; rfl
    · rw [blocks]; rfl
    · rw [← frames, blocks]; rfl
    · rw [← others g ne, blocks]; rfl
    · rw [blocks]; rfl
    · rw [blocks]; rfl
    · rw [blocks]; rfl
    · rw [blocks]; rfl
    · rw [blocks]; rfl
    case line => rw [on, State.line_setLine_self]; rfl
    case adm => rw [blocks]; rfl
    case hli =>
      rw [sent room, openRequest]
      simp only [d, attached, Option.bind_some, entry, Option.map_some, Option.getD_some, Call.speedNow, speed]
      rfl
  | false =>
    have queued := offer_queued (k := e.cls) (x := { x with call := some d }) (c := d) rfl p l free alone
    have run' := offered.trans (congrArg Host.Outcome.next queued)
    refine ⟨_, run', fun m ne => State.line_setLine_ne _ _ ne, rfl, rfl, rfl, rfl, frames, others, rfl, rfl, rfl, rfl, rfl, nofun,
      fun _ => ⟨State.line_setLine_self _ l _, rfl, rfl, rfl⟩⟩

end Sys2Proof.Machine
end

section
/-! SUPPORT. The rejection of a sign-on, and the end of a call that holds nothing. -/

namespace Sys2Proof.Machine

variable {s t : State} {l : LineNo} {c d : Call} {x : Line} {cause : EndCause} {was : Phase}

/-! ### The line strand of a call that was not connected (R165 to R167) -/

/-- With no GOODBYE to come, a drain ends once everything has been sent (R167). -/
theorem drainCheck_silent (h : x.call = some c) (s : State) (l : LineNo) (phase : c.phase = .ending) (drain : c.drain.isSome = true)
    (silent : c.goodbyePending = false) :
    drainCheck (s.setLine l x) l =
      if c.txBuf = [] ∧ c.emission = [] ∧ x.txChar = none then drainOver (s.setLine l x) l else s.setLine l x := by
  have there : (s.setLine l x).callOn l = some c := (State.callOn_setLine_self s l x).trans h
  have quiet : placeGoodbye (s.setLine l x) l = s.setLine l x := by simp [placeGoodbye, there, silent]
  simp only [drainCheck, there, quiet, State.line_setLine_self, silent]
  rw [if_pos ⟨phase, drain⟩]
  simp

theorem lineStrand_unlimited (h : x.call = some c) (s : State) (l : LineNo) (up : x.st = .up) (was_ne : was ≠ .connected)
    (ended : c.endCause.isSome = true) (no : c.endCause ≠ some .hostClose) (none : s.soe.drainLimit.count = 0) :
    lineStrand (s.setLine l x) l was cause false =
      settle (s.setLine l { droppedLine x with call := some (releasedAt { c with txBuf := [] }) }) l := by
  simp only [lineStrand, State.line_setLine_self, up, Bool.false_eq_true, if_false, decide_eq_false was_ne]
  refine (if_pos none).trans ?_
  rw [State.modCall_setLine_some h,
    drainOver_setLine (c := { c with residue := c.residue, txBuf := [] }) rfl ended, if_neg fun h => no h.1]
  rfl

theorem lineStrand_limited (s : State) (l : LineNo) (up : (s.line l).st = .up) (was_ne : was ≠ .connected)
    (limit : s.soe.drainLimit.count ≠ 0) :
    lineStrand s l was cause false = drainCheck (startDrain (closingTexts s l cause) l) l := by
  simp only [lineStrand, up, Bool.false_eq_true, if_false, decide_eq_false was_ne, false_and]
  rw [if_neg limit]

theorem placedFor_setLine (s : State) (l : LineNo) (x : Line) (d : Call) (buf : List Byte) (drops : Nat) :
    placedFor (s.setLine l x) l d buf drops =
      ({ s with soe := { s.soe with textDrops := drops } } : State).setLine l { x with call := some { d with txBuf := buf } } := by
  rw [placedFor, State.line_setLine_self, State.setLine_setLine]
  rfl

/-- The closing texts change the transmit buffer alone, and the count of dropped texts (R59, R166). -/
theorem closingTexts_placed (hc : s.callOn l = some c) (cause : EndCause) :
    ∃ buf drops, closingTexts s l cause = placedFor s l c buf drops := by
  unfold closingTexts
  cases reasonText cause with
  | none => exact placeText_placed hc 14 none
  | some slot =>
    obtain ⟨buf, drops, reason⟩ := placeText_placed hc slot none
    dsimp only
    rw [reason]
    exact placeText_placedFor buf drops 14 none

/-! ### The end of a call in LOOKUP that holds nothing -/

/-- The call at its ending event from LOOKUP (R24, R66). -/
def endedLookup (s : State) (c : Call) (cause : EndCause) : Call :=
  { c with
    endCause := some cause, pend := ⟨none, none, none⟩, idle := none, phase := .ending, fieldTimer := none, pwBuf := []
    credit := 0, genAtEnd := s.ctu.generation, closedDue := decide (cause = .hostTimeout), closedSent := false
    released := false, goodbyePending := false }

/-- The state in which the lookup of line `l` waits no more (R84). -/
def unasked (s : State) (l : LineNo) : State := { s with acc := (withdrawLookup s l).acc }

theorem endCall_lookup (hc : s.callOn l = some c) (running : c.endCause = none) (phase : c.phase = .lookup) (cause : EndCause) :
    endCall s l cause =
      lineStrand ((unasked s l).setLine l { s.line l with call := some (endedLookup s c cause) }) l .lookup cause false := by
  have notDue : stepDue s l = false := by simp [stepDue, hc, phase]
  rw [endCall_eq hc running notDue, phase]
  refine congrArg (fun t => lineStrand t l .lookup cause false) ?_
  have marked : markEnded s l cause = s.setLine l { s.line l with call := some (endedLookup s c cause) } := by
    rw [markEnded, State.modCall_eq hc]
    simp only [phase, endedLookup]
    rfl
  rw [marked]
  rfl

/-- The end of a call in LOOKUP that is not attached sends nothing to the host (R29, R171). -/
theorem endCall_lookup_hli (hc : s.callOn l = some c) (running : c.endCause = none) (phase : c.phase = .lookup)
    (up : (s.line l).st = .up) (attach : c.attach = none) (going : ∀ m, s.sfu.service ≠ .closing m) (no : cause ≠ .hostClose) :
    (endCall s l cause).hli = s.hli := by
  let d := endedLookup s c cause
  let x : Line := { s.line l with call := some d }
  have drops (u : State) (d : Call) (hli : u.hli = s.hli) (sfu : u.sfu = s.sfu) (phase : d.phase = .ending) (attach : d.attach = none)
      (y : Line) : (settle (u.setLine l { droppedLine y with call := some (releasedAt d) }) l).hli = s.hli := by
    rw [settle_unattached (c := releasedAt d) (State.callOn_setLine_self u l _) phase rfl attach,
      removeCall_inDrop (c := releasedAt d) rfl u l (fun m h => going m (sfu ▸ h)) rfl]
    exact (congrArg State.hli (if_neg (Option.some_ne_none _))).trans hli
  rw [endCall_lookup hc running phase]
  by_cases none : s.soe.drainLimit.count = 0
  · rw [lineStrand_unlimited (x := x) (c := d) rfl (unasked s l) l up (by decide) rfl (fun h => no (Option.some.inj h)) none]
    exact drops (unasked s l) { d with txBuf := [] } rfl rfl rfl attach x
  · rw [lineStrand_limited ((unasked s l).setLine l x) l (by rw [State.line_setLine_self]; exact up) (by decide) none]
    obtain ⟨buf, count, placed⟩ := closingTexts_placed (State.callOn_setLine_self (unasked s l) l x) cause
    let e : Call := { d with txBuf := buf, drain := some (intervalSecs s.soe.drainLimit) }
    let u : State := { unasked s l with soe := { s.soe with textDrops := count } }
    have started : startDrain (placedFor ((unasked s l).setLine l x) l d buf count) l = u.setLine l { x with call := some e } := by
      rw [placedFor_setLine]
      exact State.modCall_setLine_some (x := { x with call := some { d with txBuf := buf } }) (c := { d with txBuf := buf }) rfl u l _
    rw [placed, started, drainCheck_silent (c := e) rfl u l rfl rfl rfl]
    split
    · rw [drainOver_setLine (c := e) rfl rfl, if_neg fun h => no (Option.some.inj h.1)]
      exact drops u e rfl rfl rfl attach _
    · rfl

/-- The caller of such a call gets GOODBYE, while the drain runs (R166, R167). -/
theorem endCall_lookup_texts (hc : s.callOn l = some c) (running : c.endCause = none) (phase : c.phase = .lookup)
    (up : (s.line l).st = .up) (silent : reasonText cause = none) (limit : 1 ≤ s.soe.drainLimit.count)
    (some' : c.txBuf ++ slotText s 14 ≠ []) (fits : (c.txBuf ++ slotText s 14).length ≤ 256) :
    (endCall s l cause).callOn l = some { endedLookup s c cause with
      txBuf := c.txBuf ++ slotText s 14, drain := some (intervalSecs s.soe.drainLimit) } := by
  let d := endedLookup s c cause
  let x : Line := { s.line l with call := some d }
  let e : Call := { d with txBuf := c.txBuf ++ slotText s 14 }
  have texts : closingTexts ((unasked s l).setLine l x) l cause = (unasked s l).setLine l { x with call := some e } := by
    rw [closingTexts, silent]
    exact placeText_setLine (c := d) rfl (unasked s l) l 14 (by rw [List.length_append] at fits; exact fits)
  have started : startDrain ((unasked s l).setLine l { x with call := some e }) l =
      (unasked s l).setLine l { x with call := some { e with drain := some (intervalSecs s.soe.drainLimit) } } :=
    State.modCall_setLine_some (x := { x with call := some e }) (c := e) rfl (unasked s l) l _
  rw [endCall_lookup hc running phase, lineStrand_limited ((unasked s l).setLine l x) l (by rw [State.line_setLine_self]; exact up) (by decide)
    (show (unasked s l).soe.drainLimit.count ≠ 0 by exact Nat.ne_of_gt limit), texts, started,
    drainCheck_silent (c := { e with drain := some (intervalSecs s.soe.drainLimit) }) rfl (unasked s l) l rfl rfl rfl,
    if_neg fun h => some' h.1]
  exact State.callOn_setLine_self _ l _

/-! ### A rejection (R70 to R72) -/

/-- The SIGN-ON FAILED of call `c` on line `l` (R71). -/
def failedFrame (l : LineNo) (c : Call) (account : Nat) (reason : SignOnReason) (cause : Option EndCause) : OutFrame :=
  { tag := l.val, call := c.number, msg := .signOnFailed (padName c.nameBuf) account reason c.attempts cause }

theorem signOnFailed_eq (hc : s.callOn l = some c) (room : s.hli.ord.length < 47) (account : Nat) (reason : SignOnReason)
    (cause : Option EndCause) : signOnFailed s l account reason cause = sendsOrdered s (failedFrame l c account reason cause) := by
  rw [signOnFailed, hc]
  dsimp only
  rw [callFrame_eq hc, enqueueOrdered_room _ room]
  rfl

/-- A rejection that ends the call: the text, SIGN-ON FAILED, the end (R70, R72). -/
def endRejected (s : State) (l : LineNo) (slot : Fin 24) (account : Nat) (reason : SignOnReason) (cause : EndCause) : State :=
  endCall (signOnFailed (placeText s l slot) l account reason (some cause)) l cause

section
variable {b : State} {slot : Fin 24} {account : Nat} {reason : SignOnReason}

theorem endRejected_carries (h : x.call = some d) (running : d.endCause = none) (phase : d.phase = .lookup)
    (room : b.hli.ord.length < 47) (no : cause ≠ .hostClose) :
    CarriesCause (endRejected (b.setLine l x) l slot account reason cause) l d cause ∧
      OtherLinesKept b (endRejected (b.setLine l x) l slot account reason cause) l := by
  obtain ⟨buf, drops, text⟩ := placeText_placed (show (b.setLine l x).callOn l = some d from (State.callOn_setLine_self b l x).trans h) slot none
  have there : (placedFor (b.setLine l x) l d buf drops).callOn l = some { d with txBuf := buf } := by
    rw [State.callOn_eq, line_placedFor]
  have failed := signOnFailed_eq there room account reason (some cause)
  rw [endRejected, text, failed]
  obtain ⟨carries, only⟩ := endCall_ends (s := sendsOrdered (placedFor (b.setLine l x) l d buf drops) (failedFrame l { d with txBuf := buf } account reason (some cause)))
    (cause := cause) there running (by simp [phase]) no
  refine ⟨carries, fun m ne => (only.others m ne).trans ?_⟩
  rw [placedFor_setLine]
  exact State.line_setLine_ne _ _ ne

theorem CarriesCause.of_number (h : CarriesCause t l d cause) (same : d.number = c.number) : CarriesCause t l c cause :=
  fun e on => same ▸ h e on

theorem endRejected_ends {cmd : Instr} (run : Completes cmd s (endRejected (b.setLine l x) l slot account reason cause))
    (h : x.call = some d) (running : d.endCause = none) (phase : d.phase = .lookup) (room : b.hli.ord.length < 47)
    (no : cause ≠ .hostClose) (same : d.number = c.number) (lines : ∀ m, b.line m = s.line m) : EndsCall cmd s l c cause := by
  obtain ⟨carries, kept⟩ := endRejected_carries (slot := slot) (account := account) (reason := reason) h running phase room no
  exact ⟨_, run, carries.of_number same, fun m ne _ => (kept m ne).trans (lines m)⟩

theorem endRejected_told (h : x.call = some d) (running : d.endCause = none) (phase : d.phase = .lookup) (up : x.st = .up)
    (attach : d.attach = none) (going : ∀ m, b.sfu.service ≠ .closing m) (room : b.hli.ord.length < 47) (no : cause ≠ .hostClose) :
    (endRejected (b.setLine l x) l slot account reason cause).hli =
      { b.hli with ord := b.hli.ord ++ [failedFrame l d account reason (some cause)] } := by
  obtain ⟨buf, drops, text⟩ := placeText_placed (show (b.setLine l x).callOn l = some d from (State.callOn_setLine_self b l x).trans h) slot none
  have there : (placedFor (b.setLine l x) l d buf drops).callOn l = some { d with txBuf := buf } := by
    rw [State.callOn_eq, line_placedFor]
  have failed := signOnFailed_eq there room account reason (some cause)
  have stands : ((placedFor (b.setLine l x) l d buf drops).line l).st = .up := by
    rw [line_placedFor, State.line_setLine_self]
    exact up
  rw [endRejected, text, failed]
  exact endCall_lookup_hli (s := sendsOrdered (placedFor (b.setLine l x) l d buf drops) (failedFrame l { d with txBuf := buf } account reason (some cause))) there running phase
    stands attach going no

theorem endRejected_text (h : x.call = some d) (running : d.endCause = none) (phase : d.phase = .lookup) (up : x.st = .up)
    (room : b.hli.ord.length < 47) (silent : reasonText cause = none) (limit : 1 ≤ b.soe.drainLimit.count)
    (some' : d.txBuf ++ slotText b slot ++ slotText b 14 ≠ []) (fits : (d.txBuf ++ slotText b slot ++ slotText b 14).length ≤ 256) :
    ∃ e, (endRejected (b.setLine l x) l slot account reason cause).callOn l = some e ∧
      e.txBuf = d.txBuf ++ slotText b slot ++ slotText b 14 ∧ e.attempts = d.attempts ∧ e.pwBuf = [] ∧
      e.drain = some (intervalSecs b.soe.drainLimit) := by
  let e : Call := { d with txBuf := d.txBuf ++ slotText b slot }
  let y : Line := { x with call := some e }
  have text : placeText (b.setLine l x) l slot = b.setLine l y :=
    placeText_setLine h b l slot (by simp only [List.length_append] at fits ⊢; omega)
  have there : (b.setLine l y).callOn l = some e := State.callOn_setLine_self b l y
  have failed := signOnFailed_eq there room account reason (some cause)
  have stands : ((b.setLine l y).line l).st = .up := by
    rw [State.line_setLine_self]
    exact up
  rw [endRejected, text, failed]
  refine ⟨_, endCall_lookup_texts (s := sendsOrdered (b.setLine l y) (failedFrame l e account reason (some cause))) there running phase
    stands silent limit some' fits, rfl, rfl, rfl, rfl⟩

end

/-- The return to NAME, with its texts (R60). -/
theorem retryDialogue_setLine (h : x.call = some c) (s : State) (l : LineNo)
    (fits : c.txBuf.length + (slotText s 3).length + (slotText s 1).length ≤ 256) :
    retryDialogue (s.setLine l x) l =
      s.setLine l { x with call := some { named s c with txBuf := c.txBuf ++ slotText s 3 ++ slotText s 1 } } := by
  have entered : enterName (s.setLine l x) l = s.setLine l { x with call := some (named s c) } :=
    State.modCall_setLine_some h s l _
  have first : c.txBuf.length + (slotText s 3).length ≤ 256 := by omega
  have invalid : placeText (s.setLine l { x with call := some (named s c) }) l 3 =
      s.setLine l { x with call := some { named s c with txBuf := c.txBuf ++ slotText s 3 } } :=
    placeText_setLine (c := named s c) rfl s l 3 first
  rw [retryDialogue, entered, invalid]
  exact placeText_setLine (c := { named s c with txBuf := c.txBuf ++ slotText s 3 }) rfl s l 1
    (by simpa only [List.length_append] using fits)

/-- The cache as it stands once a lookup has searched frame `f` (R80, R79). -/
def searchedBase (s : State) (f : FrameNo) : State :=
  { s with acc := { s.acc with
    lookups := oneMore s.acc.lookups, order := (s.acc.order.filter fun g => decide (g ≠ f)) ++ [f] } }

/-- The call with one more attempt counted (R70). -/
def attempted (d : Call) : Call := { d with pwBuf := [], attempts := d.attempts + 1 }

theorem invalidLookup_setLine (h : x.call = some d) (b : State) (l : LineNo) (room : b.hli.ord.length < 47) (account : Nat)
    (reason : SignOnReason) :
    invalidLookup (b.setLine l x) l account reason =
      if d.attempts + 1 < b.soe.attemptLimit then
        retryDialogue ((sendsOrdered b (failedFrame l (attempted d) account reason none)).setLine l { x with call := some (attempted d) }) l
      else endRejected (b.setLine l { x with call := some (attempted d) }) l 3 account reason .attempts := by
  let e := attempted d
  let y : Line := { x with call := some e }
  have there : (b.setLine l y).callOn l = some e := State.callOn_setLine_self b l y
  have counted : (clearPassword (b.setLine l x) l).modCall l (fun c => { c with attempts := c.attempts + 1 }) = b.setLine l y := by
    rw [clearPassword, State.modCall_setLine_some h]
    exact State.modCall_setLine_some (x := { x with call := some { d with pwBuf := [] } }) (c := { d with pwBuf := [] }) rfl b l _
  unfold invalidLookup
  dsimp only
  rw [counted, there]
  dsimp only
  rw [signOnFailed_eq there room]
  rfl

/-- Settles O34: the unknown name and the wrong password by the count of attempts, and the failed check. -/
theorem rejectedSignOnIsToldToTheHost : Obligations.RejectedSignOnIsToldToTheHost := by
  intro s l c bits parity f cr looks running room told ends invalid
  let b := searchedBase s f
  let x (d : Call) : Line := { s.line l with rxLow := false, call := some d }
  have up : (s.line l).st = .up := looks.up
  have going : ∀ m, b.sfu.service ≠ .closing m := fun m h => nomatch looks.service.symm.trans h
  have ended (slot : Fin 24) (account : Nat) (reason : SignOnReason) (attempts : Nat) (cause : EndCause)
      (silent : reasonText cause = none) (no : cause ≠ .hostClose)
      (run : Completes (.receivedCharacter l bits parity true) s
        (endRejected (b.setLine l (x { lookingUp c with pwBuf := [], attempts := attempts })) l slot account reason cause)) :
      ends slot account reason attempts cause := by
    let d : Call := { lookingUp c with pwBuf := [], attempts := attempts }
    have call : (x d).call = some d := rfl
    have same : d.number = c.number := rfl
    have phase : d.phase = .lookup := rfl
    refine ⟨endRejected_ends run call running phase room no same fun _ => rfl, fun attach => ⟨_, run, ?_, fun limit some' fits => ?_⟩⟩
    · exact endRejected_told (b := b) call running phase up attach going room no
    · exact endRejected_text (b := b) call running phase up room silent limit some' fits
  have rejected (account : Nat) (reason : SignOnReason)
      (run : Completes (.receivedCharacter l bits parity true) s (invalidLookup (searched s l c f) l account reason)) :
      invalid account reason := by
    let d := attempted (lookingUp c)
    have decided : Completes (.receivedCharacter l bits parity true) s _ :=
      run.trans (congrArg Host.Outcome.next (invalidLookup_setLine (x := x (lookingUp c)) rfl b l room account reason))
    refine ⟨fun few fits => ?again, fun many => ?last⟩
    case last =>
      exact ended 3 account reason (c.attempts + 1) .attempts rfl nofun
        (decided.trans (congrArg Host.Outcome.next (if_neg (Nat.not_lt.2 many))))
    case again =>
      let v := sendsOrdered b (failedFrame l d account reason none)
      have retried := retryDialogue_setLine (x := x d) (c := d) rfl v l fits
      exact ⟨_, decided.trans (congrArg Host.Outcome.next ((if_pos few).trans retried)), State.line_setLine_self v l _, fun m ne => State.line_setLine_ne v _ ne,
        rfl, rfl, rfl, rfl, rfl, rfl, rfl, rfl⟩
  refine ⟨fun i e finds wrong => rejected _ _ ?wrong, fun fresh no => rejected _ _ ?unknown, fun i e reason finds right fails => ?failed⟩
  case wrong =>
    have run := password_found finds cr
    rwa [actOnOutcome_wrong (searched_callOn s l c f) finds.entry wrong] at run
  case unknown =>
    have run := password_unknown looks cr fresh no
    rwa [actOnOutcome_unknown (searched_callOn s l c f)] at run
  case failed =>
    have run := password_found finds cr
    rw [actOnOutcome_refused (searched_callOn s l c f) finds.entry right ((searched_check s l c f e).trans fails)] at run
    have cleared : clearPassword (searched s l c f) l = b.setLine l (x { lookingUp c with pwBuf := [] }) :=
      State.modCall_setLine_some (x := x (lookingUp c)) (c := lookingUp c) rfl b l _
    rw [cleared] at run
    have refused := ended (refusalText reason) e.account reason c.attempts .refused rfl nofun run
    cases reason <;> exact refused

end Sys2Proof.Machine
end

section
/-! SUPPORT. The merge of incoming entries into a frame. -/

namespace Sys2Proof.Machine

variable {s t : State} {l : LineNo} {c : Call}

/-! ### New accounts go into the EMPTY slots (R87, R88) -/

/-- The EMPTY slots of a frame's entries. -/
def empties (v : Vector (Option Entry) 4) : Nat := (List.finRange 4).countP fun i => v[i].isNone

theorem empties_set {v : Vector (Option Entry) 4} {i : EntryNo} (free : v[i] = none) (e : Entry) :
    empties v = empties (v.set i (some e)) + 1 := by
  have update := countP_update (p := fun j : EntryNo => (v.set i (some e))[j].isNone) (q := fun j : EntryNo => v[j].isNone) (a := i)
    (fun j ne => by
      have other : (v.set i (some e))[j] = v[j] := Vector.getElem_set_ne i.isLt j.isLt fun h => ne (Fin.ext h.symm)
      simp only [other]) (List.nodup_finRange 4) (List.mem_finRange i)
  have filled : (v.set i (some e))[i] = some e := Vector.getElem_set_self ..
  simp only [free, filled, Option.isNone_none, Option.isNone_some, Bool.toNat_true, Bool.toNat_false, Nat.add_zero] at update
  exact update

/-- What putting entries into the EMPTY slots makes: what was there stays, as many of the entries as there are EMPTY slots find a
place, the others are the surplus. -/
structure PlacedNew (xs : List Entry) (v : Vector (Option Entry) 4) (r : Vector (Option Entry) 4 × List Entry) : Prop where
  keeps : ∀ (i : EntryNo) e, v[i] = some e → r.1[i] = some e
  surplus : r.2 = xs.drop (empties v)
  puts : ∀ e ∈ xs.take (empties v), ∃ i : EntryNo, r.1[i] = some e
  only : ∀ (i : EntryNo) e, r.1[i] = some e → v[i] = some e ∨ e ∈ xs.take (empties v)
  full : r.2 ≠ [] → ∀ i : EntryNo, (r.1[i]).isSome = true

theorem placeNew_placed (xs : List Entry) (v : Vector (Option Entry) 4) : PlacedNew xs v (placeNew xs v) := by
  induction xs generalizing v with
  | nil => exact ⟨fun _ _ h => h, by simp [placeNew], by simp, fun _ _ h => .inl h, fun h => absurd rfl h⟩
  | cons e rest ih =>
    unfold placeNew
    cases free : (List.finRange 4).find? fun i => v[i].isNone with
    | some i =>
      have hole : v[i] = none := by simpa using List.find?_some free
      obtain ⟨keeps, surplus, puts, only, full⟩ := ih (v.set i (some e))
      have filled : (v.set i (some e))[i] = some e := Vector.getElem_set_self ..
      have other (j : EntryNo) (ne : j ≠ i) : (v.set i (some e))[j] = v[j] :=
        Vector.getElem_set_ne i.isLt j.isLt fun h => ne (Fin.ext h.symm)
      have count := empties_set hole e
      refine ⟨fun j d there => keeps j d ?_, by rw [count]; exact surplus, fun d mem => ?_, fun j d there => ?_, full⟩
      · rw [other j fun same => by simp [same, hole] at there]
        exact there
      · rw [count] at mem
        rcases List.mem_cons.1 mem with rfl | later
        · exact ⟨i, keeps i d filled⟩
        · exact puts d later
      · rw [count, List.take_succ_cons, List.mem_cons]
        by_cases same : j = i
        · subst same
          exact .inr (.inl (Option.some.inj (there.symm.trans (keeps j e filled))))
        · rw [← other j same]
          exact (only j d there).imp_right .inr
    | none =>
      have occupied (i : EntryNo) : v[i].isSome = true := by
        have := List.find?_eq_none.1 free i (List.mem_finRange i)
        simpa [Option.isSome_iff_ne_none] using this
      have count : empties v = 0 := List.countP_eq_zero.2 (List.find?_eq_none.1 free)
      obtain ⟨keeps, surplus, puts, only, full⟩ := ih v
      rw [count] at surplus only
      refine ⟨keeps, by rw [count]; exact congrArg (e :: ·) surplus, by rw [count]; simp, by rw [count]; exact only, fun _ i => ?_⟩
      obtain ⟨d, there⟩ := Option.isSome_iff_exists.1 (occupied i)
      exact Option.isSome_iff_exists.2 ⟨d, keeps i d there⟩

/-! ### The incoming entries (R85) -/

/-- The incoming entries that are not EMPTY. -/
def arrived (inc : EntryNo → Option Entry) : List Entry := (List.finRange 4).filterMap inc

/-- No two of the incoming entries carry the same account or the same name (R85). -/
def Distinct (inc : EntryNo → Option Entry) : Prop :=
  ∀ i j d e, i ≠ j → inc i = some d → inc j = some e → d.account ≠ e.account ∧ d.userName ≠ e.userName

section
variable {inc : EntryNo → Option Entry} {old : Vector (Option Entry) 4} {i j : EntryNo} {d e n : Entry} {key : List Byte}

theorem mem_arrived : e ∈ arrived inc ↔ ∃ j, inc j = some e := by
  simp [arrived]

theorem presentEntries_ofFn (inc : EntryNo → Option Entry) : presentEntries (Vector.ofFn inc) = arrived inc := by
  rw [presentEntries, Vector.toList_ofFn, arrived, List.ofFn_eq_map, List.filterMap_map]
  rfl

theorem arrived_pairwise {R : Entry → Entry → Prop} (h : ∀ i j d e, i ≠ j → inc i = some d → inc j = some e → R d e) :
    (arrived inc).Pairwise R := by
  refine List.pairwise_filterMap.2 ((List.nodup_finRange 4).imp fun {i j} ne d hd e he => ?_)
  exact h i j d e ne hd he

theorem hasDuplicates_arrived (h : Distinct inc) : hasDuplicates (arrived inc) = false := by
  have accounts : ((arrived inc).map Entry.account).Nodup :=
    List.pairwise_map.2 (arrived_pairwise fun i j d e ne hd he => (h i j d e ne hd he).1)
  have names : ((arrived inc).map Entry.userName).Nodup :=
    List.pairwise_map.2 (arrived_pairwise fun i j d e ne hd he => (h i j d e ne hd he).2)
  simp [hasDuplicates, accounts, names]

theorem Distinct.account (h : Distinct inc) (hd : inc i = some d) (he : inc j = some e) (same : d.account = e.account) : d = e := by
  by_cases place : i = j
  · subst place
    exact Option.some.inj (hd.symm.trans he)
  · exact absurd same (h i j d e place hd he).1

theorem Distinct.userName (h : Distinct inc) (hd : inc i = some d) (he : inc j = some e) (same : d.userName = e.userName) : d = e := by
  by_cases place : i = j
  · subst place
    exact Option.some.inj (hd.symm.trans he)
  · exact absurd same (h i j d e place hd he).2

/-! ### The entries that were there (R87) -/

theorem mergeEntry_matched (h : Distinct inc) (hn : inc j = some n) (same : n.account = e.account) :
    mergeEntry (arrived inc) e = some (mergeStatic e n) := by
  unfold mergeEntry
  cases found : (arrived inc).find? fun n => decide (n.account = e.account) with
  | none => exact absurd same (by simpa using List.find?_eq_none.1 found n (mem_arrived.2 ⟨j, hn⟩))
  | some m =>
    obtain ⟨k, hm⟩ := mem_arrived.1 (List.mem_of_find?_eq_some found)
    have account : m.account = e.account := by simpa using List.find?_some found
    rw [h.account hm hn (account.trans same.symm)]

theorem mergeEntry_absent (no : ∀ j n, inc j = some n → n.account ≠ e.account) :
    mergeEntry (arrived inc) e = if e.live then some { e with withdrawn := true } else none := by
  unfold mergeEntry
  rw [List.find?_eq_none.2 fun m mem => by
    obtain ⟨k, hm⟩ := mem_arrived.1 mem
    simpa using no k m hm]

/-- The accounts that the frame does not hold yet (R87, step 3). -/
def newcomers (old : Vector (Option Entry) 4) (inc : EntryNo → Option Entry) : List Entry :=
  (arrived inc).filter fun n => (presentEntries old).all fun e => decide (e.account ≠ n.account)

/-- The frame's entries once those that were there have been merged (R87, steps 1 and 2). -/
def mergedOld (old : Vector (Option Entry) 4) (inc : EntryNo → Option Entry) : Vector (Option Entry) 4 :=
  Vector.ofFn fun i => old[i].bind (mergeEntry (arrived inc))

theorem mergeEntries_eq (old : Vector (Option Entry) 4) (inc : EntryNo → Option Entry) :
    mergeEntries old (arrived inc) = placeNew (newcomers old inc) (mergedOld old inc) := rfl

theorem mem_presentEntries : e ∈ presentEntries old ↔ ∃ i : EntryNo, old[i] = some e := by
  rw [presentEntries, List.mem_filterMap]
  constructor
  · rintro ⟨x, mem, same⟩
    obtain ⟨i, less, rfl⟩ := List.getElem_of_mem mem
    have bound : i < 4 := by simpa using less
    exact ⟨⟨i, bound⟩, by simpa using same⟩
  · rintro ⟨i, there⟩
    exact ⟨old[i], by simp, there⟩

theorem mem_newcomers : n ∈ newcomers old inc ↔
    (∃ j, inc j = some n) ∧ ∀ (i : EntryNo) e, old[i] = some e → e.account ≠ n.account := by
  rw [newcomers, List.mem_filter, mem_arrived]
  refine and_congr_right fun _ => ?_
  simp only [List.all_eq_true, decide_eq_true_iff]
  exact ⟨fun h i e there => h e (mem_presentEntries.2 ⟨i, there⟩), fun h e mem =>
    (mem_presentEntries.1 mem).elim fun i there => h i e there⟩

theorem newcomers_nodup (h : Distinct inc) : (newcomers old inc).Nodup :=
  (arrived_pairwise fun i j d e ne hd he same => (h i j d e ne hd he).1 (congrArg Entry.account same)).filter _

/-! ### The merged frame (R87, R88) -/

theorem merged_matched (h : Distinct inc) (there : old[i] = some e) (hn : inc j = some n) (same : n.account = e.account) :
    (mergeEntries old (arrived inc)).1[i] = some (mergeStatic e n) := by
  refine (placeNew_placed (newcomers old inc) (mergedOld old inc)).keeps i _ ?_
  simp only [mergedOld, Fin.getElem_fin, Vector.getElem_ofFn]
  rw [show old[i.val] = some e from there]
  exact mergeEntry_matched h hn same

theorem merged_absent (there : old[i] = some e) (no : ∀ j n, inc j = some n → n.account ≠ e.account) (live : e.live = true) :
    (mergeEntries old (arrived inc)).1[i] = some { e with withdrawn := true } := by
  refine (placeNew_placed (newcomers old inc) (mergedOld old inc)).keeps i _ ?_
  simp only [mergedOld, Fin.getElem_fin, Vector.getElem_ofFn]
  rw [show old[i.val] = some e from there]
  exact (mergeEntry_absent no).trans (if_pos live)

/-- What can stand in a slot of the merged frame. -/
theorem merged_only (h : Distinct inc) (stands : (mergeEntries old (arrived inc)).1[i] = some d) :
    (∃ e j n, old[i] = some e ∧ inc j = some n ∧ n.account = e.account ∧ d = mergeStatic e n) ∨
      (∃ e, old[i] = some e ∧ d = { e with withdrawn := true }) ∨
      d ∈ (newcomers old inc).take (empties (mergedOld old inc)) := by
  rcases (placeNew_placed (newcomers old inc) (mergedOld old inc)).only i d stands with kept | new
  · simp only [mergedOld, Fin.getElem_fin, Vector.getElem_ofFn] at kept
    obtain ⟨e, there, merged⟩ := Option.bind_eq_some_iff.1 kept
    by_cases match' : ∃ j n, inc j = some n ∧ n.account = e.account
    · obtain ⟨j, n, hn, same⟩ := match'
      rw [mergeEntry_matched h hn same] at merged
      exact .inl ⟨e, j, n, there, hn, same, (Option.some.inj merged).symm⟩
    · have no : ∀ j n, inc j = some n → n.account ≠ e.account := fun j n hn same => match' ⟨j, n, hn, same⟩
      rw [mergeEntry_absent no] at merged
      split at merged
      · exact .inr (.inl ⟨e, there, (Option.some.inj merged).symm⟩)
      · cases merged
  · exact .inr (.inr new)

theorem merged_search_none (h : Distinct inc) (no : ∀ j n, inc j = some n → n.userName ≠ key) {x : Frame}
    (entries : x.entries = (mergeEntries old (arrived inc)).1) : searchFrame x key = none := by
  refine searchFrame_none fun i d there => ?_
  rw [entries] at there
  rcases merged_only h there with ⟨e, j, n, -, hn, -, rfl⟩ | ⟨e, -, rfl⟩ | new
  · exact .inr (no j n hn)
  · exact .inl rfl
  · obtain ⟨⟨j, hn⟩, -⟩ := mem_newcomers.1 (List.mem_of_mem_take new)
    exact .inr (no j d hn)

theorem merged_search_some (h : Distinct inc) (there : old[i] = some e) (hn : inc j = some n) (same : n.account = e.account)
    (first : ∀ (k : EntryNo) e', k < i → old[k] = some e' → e'.account ≠ e.account) {x : Frame}
    (entries : x.entries = (mergeEntries old (arrived inc)).1) : searchFrame x n.userName = some i := by
  refine find?_finRange.2 ⟨?_, fun k less => ?_⟩
  · rw [entries, merged_matched h there hn same]
    simp [mergeStatic]
  · rw [entries]
    split
    · next d stands =>
      rcases merged_only h stands with ⟨e', j', n', there', hn', same', rfl⟩ | ⟨e', -, rfl⟩ | new
      · have other : n'.userName ≠ n.userName := fun name => first k e' less there'
          (same'.symm.trans ((congrArg Entry.account (h.userName hn' hn name)).trans same))
        simp [mergeStatic, other]
      · rfl
      · obtain ⟨⟨j', hn'⟩, unknown⟩ := mem_newcomers.1 (List.mem_of_mem_take new)
        have other : d.userName ≠ n.userName := fun name =>
          unknown i e there (same.symm.trans (congrArg Entry.account (h.userName hn' hn name)).symm)
        simp [other]
    · rfl

/-- The surplus is empty exactly where every new account finds a place (R88). -/
theorem merged_surplus (h : Distinct inc) : (mergeEntries old (arrived inc)).2 = [] ↔
    ∀ n, (∃ j, inc j = some n) → (∀ (i : EntryNo) e, old[i] = some e → e.account ≠ n.account) →
      ∃ i : EntryNo, (mergeEntries old (arrived inc)).1[i] = some n := by
  have placed := placeNew_placed (newcomers old inc) (mergedOld old inc)
  rw [mergeEntries_eq, placed.surplus]
  constructor
  · intro none n there unknown
    have all : (newcomers old inc).take (empties (mergedOld old inc)) = newcomers old inc := by
      rw [List.take_of_length_le (List.drop_eq_nil_iff.1 none)]
    have mem : n ∈ newcomers old inc := mem_newcomers.2 ⟨there, unknown⟩
    rw [← all] at mem
    exact placed.puts n mem
  · intro all
    by_contra some'
    obtain ⟨n, mem⟩ := List.exists_mem_of_ne_nil _ some'
    obtain ⟨there, unknown⟩ := mem_newcomers.1 (List.mem_of_mem_drop mem)
    obtain ⟨i, stands⟩ := all n there unknown
    rcases merged_only h stands with ⟨e, j, m, at', -, -, rfl⟩ | ⟨e, at', rfl⟩ | taken
    · exact unknown i e at' rfl
    · exact unknown i e at' rfl
    · exact List.disjoint_take_drop (newcomers_nodup h) le_rfl taken mem

end

end Sys2Proof.Machine
end

section
/-! SUPPORT. What the end of a call leaves of the cache and of the Billing Store. -/

namespace Sys2Proof.Machine

variable {s t : State} {l m : LineNo} {c : Call} {x : Line}

/-! ### The cache and the store, but for billing records (R29, R165 to R171) -/

/-- The cache and the Billing Store. -/
def books (s : State) : Acc × Bst := (s.acc, s.bst)

@[simp] theorem placeChars_books (s : State) (l : LineNo) (chars : List Byte) : books (placeChars s l chars) = books s := by
  unfold placeChars
  split
  · rfl
  · split <;> rfl

@[simp] theorem placeText_books (s : State) (l : LineNo) (slot : Fin 24) (n : Option Nat) : books (placeText s l slot n) = books s := by
  unfold placeText
  split
  · rfl
  · exact placeChars_books s l _

@[simp] theorem resign_books (s : State) (l : LineNo) (c : Call) : books (resign s l c) = books s := by
  simp only [resign, startDialogue, placeText_books]
  rfl

@[simp] theorem enqueuePriority_books (s : State) (f : OutFrame) : books (enqueuePriority s f) = books s := by
  unfold enqueuePriority
  split <;> rfl

@[simp] theorem enqueueOrdered_books (s : State) (f : OutFrame) : books (enqueueOrdered s f) = books s := by
  rw [enqueueOrdered_eq]
  rfl

@[simp] theorem haltIfDone_books (s : State) : books (haltIfDone s) = books s := by
  unfold haltIfDone
  split
  · split
    · rfl
    · exact enqueuePriority_books _ _
  · rfl

@[simp] theorem leaveDrop_books (s : State) (l : LineNo) : books (leaveDrop s l) = books s := by
  unfold leaveDrop
  split <;> rfl

@[simp] theorem removeCall_books (s : State) (l : LineNo) : books (removeCall s l) = books s := by
  unfold removeCall
  split
  · rfl
  · dsimp only
    split
    · split
      · exact (leaveDrop_books _ l).trans (haltIfDone_books _)
      · exact haltIfDone_books _
    · split
      · exact (resign_books _ l _).trans (haltIfDone_books _)
      · exact (haltIfDone_books _)
    · exact haltIfDone_books _

@[simp] theorem closingTexts_books (s : State) (l : LineNo) (cause : EndCause) : books (closingTexts s l cause) = books s := by
  unfold closingTexts
  split
  · exact (placeText_books _ l 14 none).trans (placeText_books s l _ none)
  · exact placeText_books s l 14 none

/-! ### The end of a call that is not attached -/

/-- The call on line `l`, if there is one, is not attached. -/
def Unattached (s : State) (l : LineNo) : Prop := ∀ c, s.callOn l = some c → c.attach = none

theorem Unattached.modCall (h : Unattached s l) {f : Call → Call} (hf : ∀ c, (f c).attach = c.attach) : Unattached (s.modCall l f) l := by
  intro c hc
  rw [State.callOn_modCall_self, Option.map_eq_some_iff] at hc
  obtain ⟨d, hd, rfl⟩ := hc
  rw [hf d]
  exact h d hd

theorem Unattached.of_callOn (h : Unattached s l) (same : t.callOn l = s.callOn l) : Unattached t l := fun c hc => h c (same ▸ hc)

theorem Unattached.placeText (h : Unattached s l) (slot : Fin 24) (n : Option Nat) : Unattached (placeText s l slot n) l := by
  cases hc : s.callOn l with
  | none =>
    refine h.of_callOn ?_
    unfold Machine.placeText placeChars
    rw [hc]
    split
    · exact hc
    · exact hc
  | some c =>
    obtain ⟨buf, drops, text⟩ := placeText_placed hc slot n
    intro d hd
    rw [text, State.callOn_eq, line_placedFor] at hd
    obtain rfl := Option.some.inj hd
    exact h c hc

theorem settle_books (h : Unattached s l) : books (settle s l) = books s := by
  unfold settle
  split
  · rfl
  · next c hc =>
    split
    · rw [if_pos (h c hc)]
      exact removeCall_books s l
    · rfl

theorem dropLine_books (h : Unattached s l) : books (dropLine s l) = books s := by
  have bare : Unattached (dropBare s l) l := h.of_callOn (line_dropBare s l).2
  simp only [dropLine]
  split
  · next c hc =>
    split
    · refine (settle_books ?_).trans rfl
      exact (bare.modCall (fun _ => by rfl)).modCall fun _ => by rfl
    · rfl
  · rfl

theorem drainOver_books (h : Unattached s l) : books (drainOver s l) = books s := by
  unfold drainOver
  split
  · rfl
  · split
    · exact (settle_books (h.modCall fun _ => by rfl)).trans rfl
    · exact dropLine_books h

theorem drainCheck_books (h : Unattached s l) : books (drainCheck s l) = books s := by
  have placed : books (placeGoodbye s l) = books s ∧ Unattached (placeGoodbye s l) l := by
    unfold placeGoodbye
    split
    · exact ⟨rfl, h⟩
    · split
      · exact ⟨placeText_books _ l 14 none, (h.modCall fun _ => by rfl).placeText 14 none⟩
      · exact ⟨rfl, h⟩
  unfold drainCheck
  split
  · rfl
  · split
    · dsimp only
      split
      · exact placed.1
      · split
        · exact (drainOver_books placed.2).trans placed.1
        · exact placed.1
    · rfl

theorem Unattached.closingTexts (h : Unattached s l) (cause : EndCause) : Unattached (closingTexts s l cause) l := by
  unfold Machine.closingTexts
  split
  · exact (h.placeText _ none).placeText 14 none
  · exact h.placeText 14 none

theorem lineStrand_books (h : Unattached s l) (was : Phase) (cause : EndCause) (lost : Bool) :
    books (lineStrand s l was cause lost) = books s := by
  simp only [lineStrand]
  split
  · split
    · exact dropLine_books (h.modCall fun _ => by rfl)
    · split
      · exact drainOver_books (h.modCall fun _ => by rfl)
      · split
        · exact drainCheck_books ((h.modCall fun _ => by rfl).modCall fun _ => by rfl)
        · split
          · refine (drainCheck_books (((h.modCall fun _ => by rfl).closingTexts cause).modCall fun _ => by rfl)).trans ?_
            exact closingTexts_books _ l cause
          · exact (drainCheck_books ((h.closingTexts cause).modCall fun _ => by rfl)).trans (closingTexts_books s l cause)
  · exact settle_books ((h.modCall fun _ => by rfl).modCall fun _ => by rfl)
  · exact dropLine_books (h.modCall fun _ => by rfl)

/-- The end of an unattached call in LOOKUP leaves the cache, but for its lookup, and the store (R84, R171). -/
theorem endCall_lookup_books (hc : s.callOn l = some c) (running : c.endCause = none) (phase : c.phase = .lookup)
    (attach : c.attach = none) (cause : EndCause) : books (endCall s l cause) = ((withdrawLookup s l).acc, s.bst) := by
  rw [endCall_lookup hc running phase]
  refine (lineStrand_books ?_ _ _ _).trans rfl
  intro d hd
  rw [State.callOn_setLine_self] at hd
  obtain rfl := Option.some.inj hd
  exact attach

/-! ### The fetches and the backlog -/

/-- The fetch slots, the backlog, and the count of fetches that timed out. -/
def lookupsOf (s : State) : Vector (Option FetchSlot) 4 × List Lookup × Nat := (s.acc.slots, s.acc.backlog, s.acc.timeouts)

theorem lookupsOf_backlog (h : lookupsOf t = lookupsOf s) : t.acc.backlog = s.acc.backlog := congrArg (fun x => x.2.1) h

theorem lookupsOf_timeouts (h : lookupsOf t = lookupsOf s) : t.acc.timeouts = s.acc.timeouts := congrArg (fun x => x.2.2) h

theorem lookupsOf_of_books (h : books t = books s) : lookupsOf t = lookupsOf s := by
  have acc : t.acc = s.acc := congrArg Prod.fst h
  simp only [lookupsOf, acc]

@[simp] theorem raiseFault_lookups (s : State) (k : FaultKind) (m : Option LineNo) (n : Option Nat) (d : Nat) (x : Bool) :
    lookupsOf (raiseFault s k m n d x) = lookupsOf s := by
  unfold raiseFault
  dsimp only
  split
  · rfl
  · split
    · rfl
    · exact lookupsOf_of_books (enqueuePriority_books _ _)

@[simp] theorem closeOut_lookups (s : State) (l : LineNo) : lookupsOf (closeOut s l) = lookupsOf s := by
  unfold closeOut
  split
  · unfold placeRecord
    split
    · rfl
    · split
      · rfl
      · refine (lookupsOf_of_books (removeCall_books _ l)).trans ?_
        have sent (u : State) (f : OutFrame) : lookupsOf (enqueueOrdered u f) = lookupsOf u :=
          lookupsOf_of_books (enqueueOrdered_books u f)
        change lookupsOf (if _ then _ else _) = _
        split
        · exact (raiseFault_lookups _ _ _ _ _ _).trans ((sent _ _).trans rfl)
        · exact (sent _ _).trans rfl
  · unfold holdCall
    dsimp only
    split <;> rfl

@[simp] theorem settle_lookups (s : State) (l : LineNo) : lookupsOf (settle s l) = lookupsOf s := by
  unfold settle
  split
  · rfl
  · split
    · split
      · exact lookupsOf_of_books (removeCall_books s l)
      · split
        · split
          · exact lookupsOf_of_books (enqueueOrdered_books _ _)
          · rfl
        · split
          · exact closeOut_lookups s l
          · rfl
    · rfl

@[simp] theorem dropLine_lookups (s : State) (l : LineNo) : lookupsOf (dropLine s l) = lookupsOf s := by
  simp only [dropLine]
  split
  · split
    · exact settle_lookups _ l
    · rfl
  · rfl

@[simp] theorem drainOver_lookups (s : State) (l : LineNo) : lookupsOf (drainOver s l) = lookupsOf s := by
  unfold drainOver
  split
  · rfl
  · split
    · exact settle_lookups _ l
    · exact dropLine_lookups s l

@[simp] theorem drainCheck_lookups (s : State) (l : LineNo) : lookupsOf (drainCheck s l) = lookupsOf s := by
  have placed : lookupsOf (placeGoodbye s l) = lookupsOf s := by
    unfold placeGoodbye
    split
    · rfl
    · split
      · exact lookupsOf_of_books (placeText_books _ l 14 none)
      · rfl
  unfold drainCheck
  split
  · rfl
  · split
    · dsimp only
      split
      · exact placed
      · split
        · exact (drainOver_lookups _ l).trans placed
        · exact placed
    · rfl

@[simp] theorem lineStrand_lookups (s : State) (l : LineNo) (was : Phase) (cause : EndCause) (lost : Bool) :
    lookupsOf (lineStrand s l was cause lost) = lookupsOf s := by
  simp only [lineStrand]
  split
  · split
    · exact dropLine_lookups _ l
    · split
      · exact drainOver_lookups _ l
      · split
        · exact drainCheck_lookups _ l
        · split
          · exact (drainCheck_lookups _ l).trans (lookupsOf_of_books (closingTexts_books _ l cause))
          · exact (drainCheck_lookups _ l).trans (lookupsOf_of_books (closingTexts_books s l cause))
  · exact settle_lookups _ l
  · exact dropLine_lookups _ l

/-- The end of a call in LOOKUP withdraws its lookup alone (R84). -/
theorem endCall_lookup_lookups (hc : s.callOn l = some c) (running : c.endCause = none) (phase : c.phase = .lookup)
    (cause : EndCause) : lookupsOf (endCall s l cause) = lookupsOf (withdrawLookup s l) := by
  rw [endCall_lookup hc running phase, lineStrand_lookups]
  rfl

end Sys2Proof.Machine
end

section
/-! SUPPORT. The resolution of lookups. -/

namespace Sys2Proof.Machine

variable {s t u : State} {l m : LineNo} {c d : Call} {k : Lookup} {cause : EndCause}

theorem callOn_placeText (hc : s.callOn l = some c) (slot : Fin 24) (n : Option Nat) :
    ∃ buf, (placeText s l slot n).callOn l = some { c with txBuf := buf } := by
  obtain ⟨buf, drops, text⟩ := placeText_placed hc slot n
  exact ⟨buf, by rw [text, State.callOn_eq, line_placedFor]⟩

/-! ### What is done to a call before it ends or goes on (R69 to R71) -/

/-- Nothing that says where the call on line `l` stands changes, nor does the cache or the Billing Store. -/
structure Prepares (s t : State) (l : LineNo) : Prop where
  call : ∀ c, s.callOn l = some c → ∃ d, t.callOn l = some d ∧ d.number = c.number ∧ d.phase = c.phase ∧
    d.endCause = c.endCause ∧ d.attach = c.attach
  books : books t = books s

theorem Prepares.refl (s : State) (l : LineNo) : Prepares s s l := ⟨fun c hc => ⟨c, hc, rfl, rfl, rfl, rfl⟩, rfl⟩

theorem Prepares.trans (a : Prepares s t l) (b : Prepares t u l) : Prepares s u l := by
  refine ⟨fun c hc => ?_, b.books.trans a.books⟩
  obtain ⟨d, hd, number, phase, endCause, attach⟩ := a.call c hc
  obtain ⟨e, he, number', phase', endCause', attach'⟩ := b.call d hd
  exact ⟨e, he, number'.trans number, phase'.trans phase, endCause'.trans endCause, attach'.trans attach⟩

theorem modCall_prepares (s : State) (l : LineNo) (f : Call → Call)
    (hf : ∀ c, (f c).number = c.number ∧ (f c).phase = c.phase ∧ (f c).endCause = c.endCause ∧ (f c).attach = c.attach) :
    Prepares s (s.modCall l f) l := by
  refine ⟨fun c hc => ?_, rfl⟩
  obtain ⟨number, phase, endCause, attach⟩ := hf c
  exact ⟨f c, by rw [State.callOn_modCall_self, hc]; rfl, number, phase, endCause, attach⟩

theorem clearPassword_prepares (s : State) (l : LineNo) : Prepares s (clearPassword s l) l :=
  modCall_prepares s l _ fun _ => by exact ⟨rfl, rfl, rfl, rfl⟩

theorem placeText_prepares (s : State) (l : LineNo) (slot : Fin 24) (n : Option Nat) : Prepares s (placeText s l slot n) l := by
  refine ⟨fun c hc => ?_, placeText_books s l slot n⟩
  obtain ⟨buf, on⟩ := callOn_placeText hc slot n
  exact ⟨{ c with txBuf := buf }, on, rfl, rfl, rfl, rfl⟩

theorem enqueueOrdered_prepares (s : State) (f : OutFrame) (l : LineNo) : Prepares s (enqueueOrdered s f) l :=
  ⟨fun c hc => ⟨c, by rw [State.callOn_eq, enqueueOrdered_line]; exact hc, rfl, rfl, rfl, rfl⟩, enqueueOrdered_books s f⟩

theorem signOnFailed_prepares (s : State) (l : LineNo) (account : Nat) (reason : SignOnReason) (cause : Option EndCause) :
    Prepares s (signOnFailed s l account reason cause) l := by
  unfold signOnFailed
  split
  · exact .refl s l
  · exact enqueueOrdered_prepares s _ l

/-! ### A call that waits no more for its lookup -/

/-- The call on line `l`, if its record is still there, has number `n` and has left LOOKUP. -/
def Resolved (s : State) (l : LineNo) (n : Nat) : Prop := ∀ c, s.callOn l = some c → c.number = n ∧ c.phase ≠ .lookup

theorem Resolved.of_callOn {n : Nat} (h : Resolved s l n) (same : t.callOn l = s.callOn l) : Resolved t l n :=
  fun c hc => h c (same ▸ hc)

theorem CarriesCause.resolved (h : CarriesCause t l c cause) : Resolved t l c.number := by
  intro d hd
  obtain ⟨number, -, ended, -, -⟩ := h d hd
  refine ⟨number, fun lookup => ?_⟩
  rcases ended with ending | held
  · exact absurd (ending.symm.trans lookup) (by decide)
  · exact absurd (held.symm.trans lookup) (by decide)

theorem Resolved.prepares {n : Nat} (h : Prepares s t l) (hc : s.callOn l = some c) (number : c.number = n) (phase : c.phase ≠ .lookup) :
    Resolved t l n := by
  obtain ⟨d, hd, number', phase', -, -⟩ := h.call c hc
  intro e he
  obtain rfl := Option.some.inj (hd.symm.trans he)
  exact ⟨number'.trans number, phase' ▸ phase⟩

/-- A call in LOOKUP that is made ready and then ends. -/
theorem endCall_prepared (h : Prepares s u l) (hc : s.callOn l = some c) (running : c.endCause = none) (phase : c.phase = .lookup)
    (no : cause ≠ .hostClose) : CarriesCause (endCall u l cause) l c cause ∧ lookupsOf (endCall u l cause) = lookupsOf (withdrawLookup s l) := by
  obtain ⟨d, hd, number, phase', running', -⟩ := h.call c hc
  have acc : u.acc = s.acc := congrArg Prod.fst h.books
  refine ⟨(endCall_ends hd (running'.trans running) (by rw [phase', phase]; decide) no).1.of_number number, ?_⟩
  rw [endCall_lookup_lookups hd (running'.trans running) (phase'.trans phase) cause]
  simp only [lookupsOf, withdrawLookup, acc]

theorem endCall_prepared_books (h : Prepares s u l) (hc : s.callOn l = some c) (running : c.endCause = none) (phase : c.phase = .lookup)
    (attach : c.attach = none) : books (endCall u l cause) = ((withdrawLookup s l).acc, s.bst) := by
  obtain ⟨d, hd, -, phase', running', attach'⟩ := h.call c hc
  have acc : u.acc = s.acc := congrArg Prod.fst h.books
  have bst : u.bst = s.bst := congrArg Prod.snd h.books
  rw [endCall_lookup_books hd (running'.trans running) (phase'.trans phase) (attach'.trans attach) cause]
  simp only [withdrawLookup, acc, bst]

/-! ### A call that is attached and offered (R73) -/

theorem offer_books (s : State) (l : LineNo) (k : ClassNo) : books (offer s l k) = books s := by
  unfold offer
  split
  · rw [selectOne_eq]
    rfl
  · change books (if _ then _ else placeText _ l 9 _) = _
    split
    · rfl
    · exact placeText_books _ l 9 _

theorem offer_callOn {k : ClassNo} (hc : s.callOn l = some c) : ∃ d, (offer s l k).callOn l = some d ∧ d.number = c.number ∧
    d.attach = c.attach ∧ d.cls = c.cls ∧ d.phase = if slotFree s k then .opening else .queued := by
  unfold offer
  cases slotFree s k with
  | true =>
    refine ⟨opened s c, ?_, rfl, rfl, rfl, rfl⟩
    rw [if_pos rfl, State.callOn_eq, show (setPointers (grant s l) k).line l = (grant s l).line l by simp only [State.line, setPointers_lines]]
    exact grant_callOn hc
  | false =>
    rw [if_neg Bool.false_ne_true, joinTail, startQueueing]
    have started {u : State} (hu : u.callOn l = some c) (a b : Option Nat) :
        (u.modCall l fun c => { c with phase := .queued, queueWait := a, announce := b }).callOn l =
          some { c with phase := .queued, queueWait := a, announce := b } := by
      rw [State.callOn_modCall_self, hu]
      rfl
    split
    · exact ⟨_, started hc _ _, rfl, rfl, rfl, rfl⟩
    · obtain ⟨buf, on⟩ := callOn_placeText (started (u := s.setQueue k (s.adm.queues[k] ++ [l])) hc _ _) 9 _
      exact ⟨_, on, rfl, rfl, rfl, rfl⟩

theorem attachCall_callOn {at' : FrameNo × EntryNo} {k : ClassNo} (hc : s.callOn l = some c) :
    ∃ d, (attachCall s l at' k).callOn l = some d ∧ d.number = c.number ∧ d.attach = some at' ∧ d.cls = some k ∧
      d.phase = if slotFree (attachPins s at') k then .opening else .queued := by
  rw [← State.setLine_line s l, attachCall_setLine (x := s.line l) (c := c) hc]
  exact offer_callOn (c := attachedCall s c at' k) (State.callOn_setLine_self _ l _)

theorem attachCall_books {at' : FrameNo × EntryNo} {k : ClassNo} : books (attachCall s l at' k) = books (attachPins s at') :=
  offer_books _ l k

/-! ### What a lookup that is resolved does (R69 to R73, R84) -/

/-- A lookup resolved: its call, where it has no end cause yet, has left LOOKUP; other lines stand; of the cache's fetches and
backlog at most the lookups of such a call have been withdrawn. -/
structure Resolves (s t : State) (l : LineNo) (c : Call) : Prop where
  resolved : c.endCause = none → Resolved t l c.number
  others : OtherLinesKept s t l
  lookups : lookupsOf t = lookupsOf s ∨ (c.endCause = none ∧ lookupsOf t = lookupsOf (withdrawLookup s l))

theorem endCall_ended (hc : s.callOn l = some c) (phase : c.phase ≠ .connected) (ended : c.endCause ≠ none) (cause : EndCause) :
    endCall s l cause = s := by
  have quiet : completeStep (endFuel 48) s l = s := completeStep_not_due (by simp [stepDue, hc, phase])
  change endCallWith (endFuel 48) s l cause false = s
  simp only [endCallWith, quiet, hc, Option.isSome_iff_ne_none.2 ended, if_true]

theorem endCall_resolves (h : Prepares s u l) (others : OtherLinesKept s u l) (hc : s.callOn l = some c)
    (phase : c.phase = .lookup) (no : cause ≠ .hostClose) : Resolves s (endCall u l cause) l c := by
  obtain ⟨d, hd, -, phase', endCause, -⟩ := h.call c hc
  have waiting : d.phase ≠ .connected := by rw [phase', phase]; decide
  by_cases running : c.endCause = none
  · obtain ⟨carries, lookups⟩ := endCall_prepared h hc running phase no
    refine ⟨fun _ => carries.resolved, fun m ne => ?_, .inr ⟨running, lookups⟩⟩
    exact ((endCall_ends hd (endCause.trans running) waiting no).2.others m ne).trans (others m ne)
  · rw [endCall_ended hd waiting (endCause ▸ running)]
    exact ⟨fun none => absurd none running, others, .inl (lookupsOf_of_books h.books)⟩

theorem signOnFailed_others (s : State) (l m : LineNo) (account : Nat) (reason : SignOnReason) (cause : Option EndCause) :
    (signOnFailed s l account reason cause).line m = s.line m := by
  unfold signOnFailed
  split
  · rfl
  · exact enqueueOrdered_line ..

theorem retryDialogue_books (s : State) (l : LineNo) : books (retryDialogue s l) = books s :=
  (placeText_books _ l 1 none).trans (placeText_books _ l 3 none)

theorem retryDialogue_resolves (hc : s.callOn l = some c) : Resolves s (retryDialogue s l) l c := by
  have entered : (enterName s l).callOn l = some (named s c) := by
    rw [enterName, State.callOn_modCall_self, hc]
    rfl
  have texts : Prepares (enterName s l) (retryDialogue s l) l := (placeText_prepares _ l 3 none).trans (placeText_prepares _ l 1 none)
  refine ⟨fun _ => Resolved.prepares texts entered rfl (by simp [named]), fun m ne => ?_, .inl (lookupsOf_of_books (retryDialogue_books s l))⟩
  exact ((placeText_local ..).others m ne).trans (((placeText_local ..).others m ne).trans ((enterName_local ..).others m ne))

theorem invalidLookup_resolves (hc : s.callOn l = some c) (phase : c.phase = .lookup) (account : Nat)
    (reason : SignOnReason) : Resolves s (invalidLookup s l account reason) l c := by
  let u := (clearPassword s l).modCall l fun c => { c with attempts := c.attempts + 1 }
  have counted : Prepares s u l := (clearPassword_prepares s l).trans (modCall_prepares _ l _ fun _ => by exact ⟨rfl, rfl, rfl, rfl⟩)
  have others : OtherLinesKept s u l := fun m ne => by
    simp only [u, clearPassword, State.line_modCall_ne _ _ ne]
  obtain ⟨d, hd, number, -, running, -⟩ := counted.call c hc
  change Resolves s (match u.callOn l with | none => u | some c => _) l c
  rw [hd]
  dsimp only
  split
  · have failed := signOnFailed_prepares u l account reason none
    obtain ⟨e, he, number', -, running', -⟩ := failed.call d hd
    have retried := retryDialogue_resolves he
    refine ⟨fun none => ?_, fun m ne => ?_, .inl ?_⟩
    · exact (number'.trans number) ▸ retried.resolved ((running'.trans running).trans none)
    · exact (retried.others m ne).trans ((signOnFailed_others ..).trans (others m ne))
    · exact lookupsOf_of_books ((retryDialogue_books ..).trans (failed.books.trans counted.books))
  · exact endCall_resolves (counted.trans ((placeText_prepares u l 3 none).trans (signOnFailed_prepares _ l account reason _)))
      (fun m ne => (signOnFailed_others ..).trans (((placeText_local ..).others m ne).trans (others m ne))) hc phase nofun

theorem refuseSignOn_resolves (hc : s.callOn l = some c) (phase : c.phase = .lookup) (account : Nat)
    (reason : SignOnReason) : Resolves s (refuseSignOn (clearPassword s l) l account reason) l c :=
  endCall_resolves (((clearPassword_prepares s l).trans (placeText_prepares _ l _ none)).trans (signOnFailed_prepares _ l account reason _))
    (fun m ne => (signOnFailed_others ..).trans (((placeText_local ..).others m ne).trans (State.line_modCall_ne _ _ ne))) hc phase nofun

theorem attachPins_lookups (s : State) (at' : FrameNo × EntryNo) : lookupsOf (attachPins s at') = lookupsOf s := rfl

theorem attachCall_resolves (hc : s.callOn l = some c) (at' : FrameNo × EntryNo) (k : ClassNo) :
    Resolves s (attachCall s l at' k) l c := by
  obtain ⟨d, hd, number, -, -, phase⟩ := attachCall_callOn (at' := at') (k := k) hc
  refine ⟨fun _ e he => ?_, (attachCall_local s l at' k).others, .inl ?_⟩
  · obtain rfl := Option.some.inj (hd.symm.trans he)
    refine ⟨number, ?_⟩
    rw [phase]
    split <;> decide
  · have acc : (attachCall s l at' k).acc = (attachPins s at').acc := congrArg Prod.fst attachCall_books
    simp only [lookupsOf, acc]
    rfl

/-- The outcome of a lookup whose call waits for it (R69 to R73). -/
theorem actOnOutcome_resolves (hc : s.callOn l = some c) (phase : c.phase = .lookup) (o : LookupOutcome) :
    Resolves s (actOnOutcome s l o) l c := by
  cases o with
  | unavailable =>
    simp only [actOnOutcome, hc]
    exact endCall_resolves ((clearPassword_prepares s l).trans (placeText_prepares _ l 15 none))
      (fun m ne => ((placeText_local ..).others m ne).trans (State.line_modCall_ne _ _ ne)) hc phase nofun
  | unknown =>
    rw [actOnOutcome_unknown hc]
    exact invalidLookup_resolves hc phase 0 .unknown
  | found at' =>
    cases entry : s.entryAt at' with
    | none =>
      simp only [actOnOutcome, hc, entry]
      exact invalidLookup_resolves hc phase 0 .unknown
    | some e =>
      cases passes : passwordPasses e c.pwBuf with
      | false =>
        rw [actOnOutcome_wrong hc entry passes]
        exact invalidLookup_resolves hc phase e.account .password
      | true =>
        cases fails : signOnCheck s c e with
        | some reason =>
          rw [actOnOutcome_refused hc entry passes fails]
          exact refuseSignOn_resolves hc phase e.account reason
        | none =>
          rw [actOnOutcome_passed hc entry passes fails]
          have cleared : (clearPassword s l).callOn l = some { c with pwBuf := [] } := by
            rw [clearPassword, State.callOn_modCall_self, hc]
            rfl
          obtain ⟨resolved, others, lookups⟩ := attachCall_resolves cleared at' e.cls
          exact ⟨resolved, fun m ne => (others m ne).trans (State.line_modCall_ne _ _ ne), lookups⟩

/-- A lookup whose call has gone, or waits no more, is not resolved (R84). -/
theorem resolveLookup_gone (gone : ∀ c, s.callOn k.line = some c → c.number = k.call → c.phase ≠ .lookup) (o : LookupOutcome) :
    resolveLookup s k o = s := by
  unfold resolveLookup
  split
  · next c hc => exact if_neg fun h => gone c hc h.1 h.2
  · rfl

/-- A lookup is resolved, or its call waits for it no more. -/
theorem resolveLookup_cases (s : State) (k : Lookup) (o : LookupOutcome) : resolveLookup s k o = s ∨
    ∃ c, s.callOn k.line = some c ∧ c.number = k.call ∧ c.phase = .lookup ∧ Resolves s (resolveLookup s k o) k.line c := by
  by_cases h : ∃ c, s.callOn k.line = some c ∧ c.number = k.call ∧ c.phase = .lookup
  · obtain ⟨c, hc, number, phase⟩ := h
    refine .inr ⟨c, hc, number, phase, ?_⟩
    rw [resolveLookup_waiting hc number phase]
    exact actOnOutcome_resolves hc phase o
  · exact .inl (resolveLookup_gone (fun c hc number phase => h ⟨c, hc, number, phase⟩) o)

end Sys2Proof.Machine
end

section
/-! SUPPORT. The service of the waiters of a fetch and of the backlog. -/

namespace Sys2Proof.Machine

variable {s t u v : State} {l m : LineNo} {c d : Call} {k q : Lookup} {i : SlotNo} {f : FrameNo}

/-! ### Lookups and their calls -/

/-- The lookup is of the call, which waits for it (R80, R84). -/
def Asking (k : Lookup) (c : Call) : Prop := c.number = k.call ∧ c.phase = .lookup ∧ c.endCause = none

/-- The call that waits for a lookup stands as it was, or waits no more. -/
def Going (s : State) (k : Lookup) (c : Call) : Prop := s.callOn k.line = some c ∨ Resolved s k.line c.number

/-- No call on line `l` waits for a lookup. -/
def NotAsking (s : State) (l : LineNo) : Prop := ∀ c, s.callOn l = some c → c.phase ≠ .lookup

/-- The lookup is among the waiters of a fetch. -/
def InFetch (s : State) (k : Lookup) : Prop := ∃ (i : SlotNo) (y : FetchSlot), s.acc.slots[i] = some y ∧ k ∈ y.waiters

theorem Resolved.notAsking {n : Nat} (h : Resolved s l n) : NotAsking s l := fun c hc => (h c hc).2

/-- Lookups have been resolved between `s` and `t`: a line with none stands; a call that waits stands or has been resolved; and a
lookup leaves the backlog, or its fetch, only with its call resolved. -/
structure Resolving (s t : State) : Prop where
  timeouts : t.acc.timeouts = s.acc.timeouts
  settled : ∀ l, NotAsking s l → t.callOn l = s.callOn l
  going : ∀ k c, Asking k c → Going s k c → Going t k c
  backlog : t.acc.backlog.Sublist s.acc.backlog
  waiting : ∀ k c, Asking k c → Going s k c → k ∈ s.acc.backlog → k ∈ t.acc.backlog ∨ Resolved t k.line c.number
  fetched : ∀ k c, Asking k c → Going s k c → InFetch s k → InFetch t k ∨ Resolved t k.line c.number

theorem Resolving.resolved {n : Nat} (r : Resolving s t) (h : Resolved s l n) : Resolved t l n :=
  h.of_callOn (r.settled l h.notAsking)

/-- What leaves the lines alone, and keeps the backlog and every waiter of a fetch. -/
theorem Resolving.of_kept (lines : ∀ l, t.callOn l = s.callOn l) (backlog : t.acc.backlog = s.acc.backlog)
    (timeouts : t.acc.timeouts = s.acc.timeouts) (fetched : ∀ k, InFetch s k → InFetch t k) : Resolving s t where
  timeouts := timeouts
  settled l _ := lines l
  going k _ _ g := g.imp (lines k.line).trans fun h => h.of_callOn (lines k.line)
  backlog := by rw [backlog]
  waiting _ _ _ _ h := .inl (backlog ▸ h)
  fetched k _ _ _ h := .inl (fetched k h)

theorem Resolving.refl (s : State) : Resolving s s := .of_kept (fun _ => rfl) rfl rfl fun _ h => h

theorem Resolving.trans (a : Resolving s t) (b : Resolving t u) : Resolving s u where
  timeouts := b.timeouts.trans a.timeouts
  settled l h := (b.settled l fun c hc => h c ((a.settled l h).symm.trans hc)).trans (a.settled l h)
  going k c asks g := b.going k c asks (a.going k c asks g)
  backlog := b.backlog.trans a.backlog
  waiting k c asks g h := (a.waiting k c asks g h).elim (b.waiting k c asks (a.going k c asks g)) fun h => .inr (b.resolved h)
  fetched k c asks g h := (a.fetched k c asks g h).elim (b.fetched k c asks (a.going k c asks g)) fun h => .inr (b.resolved h)

/-! ### One lookup is resolved (R80, R84) -/

theorem mem_withdrawn_backlog (mem : k ∈ s.acc.backlog) (ne : k.line ≠ l) : k ∈ (withdrawLookup s l).acc.backlog :=
  List.mem_filter.2 ⟨mem, decide_eq_true ne⟩

theorem inFetch_withdrawn (h : InFetch s k) (ne : k.line ≠ l) : InFetch (withdrawLookup s l) k := by
  obtain ⟨i, y, slot, mem⟩ := h
  have slot' : s.acc.slots[i.val] = some y := slot
  refine ⟨i, { y with waiters := y.waiters.filter fun w => decide (w.line ≠ l) }, ?_, List.mem_filter.2 ⟨mem, decide_eq_true ne⟩⟩
  simp only [withdrawLookup, Fin.getElem_fin, Vector.getElem_ofFn, slot', Option.map_some]

theorem InFetch.of_lookups (h : InFetch s k) (same : lookupsOf t = lookupsOf s) : InFetch t k := by
  have slots : t.acc.slots = s.acc.slots := congrArg Prod.fst same
  obtain ⟨i, y, slot, mem⟩ := h
  exact ⟨i, y, by rw [slots]; exact slot, mem⟩

theorem resolveLookup_resolving (s : State) (k : Lookup) (o : LookupOutcome) : Resolving s (resolveLookup s k o) := by
  rcases resolveLookup_cases s k o with same | ⟨c, hc, number, phase, resolved, others, lookups⟩
  · rw [same]
    exact .refl s
  · have elsewhere (l : LineNo) (ne : l ≠ k.line) : (resolveLookup s k o).callOn l = s.callOn l := by
      rw [State.callOn_eq, others l ne, ← State.callOn_eq]
    have here (d : Call) (q : Lookup) (asks : Asking q d) (g : Going s q d) (same : q.line = k.line) :
        Resolved (resolveLookup s k o) q.line d.number := by
      rcases g with on | gone
      · rw [same] at on ⊢
        obtain rfl := Option.some.inj (hc.symm.trans on)
        exact resolved asks.2.2
      · exact absurd phase (gone c (same ▸ hc)).2
    have kept (q : Lookup) (d : Call) (asks : Asking q d) (g : Going s q d) : Resolved (resolveLookup s k o) q.line d.number ∨
        lookupsOf (resolveLookup s k o) = lookupsOf s ∨
        q.line ≠ k.line ∧ lookupsOf (resolveLookup s k o) = lookupsOf (withdrawLookup s k.line) := by
      by_cases same : q.line = k.line
      · exact .inl (here d q asks g same)
      · exact .inr (lookups.imp_right fun h => ⟨same, h.2⟩)
    refine ⟨?timeouts, fun l quiet => elsewhere l fun same => quiet c (same ▸ hc) phase, fun q d asks g => ?going, ?backlog,
      fun q d asks g mem => ?waiting, fun q d asks g fetch => ?fetched⟩
    case timeouts => exact lookups.elim lookupsOf_timeouts fun h => (lookupsOf_timeouts h.2).trans rfl
    case going =>
      by_cases same : q.line = k.line
      · exact .inr (here d q asks g same)
      · exact g.imp (elsewhere _ same).trans fun h => h.of_callOn (elsewhere _ same)
    case backlog =>
      rcases lookups with same | ⟨-, same⟩
      · rw [show (resolveLookup s k o).acc.backlog = s.acc.backlog from lookupsOf_backlog same]
      · rw [show (resolveLookup s k o).acc.backlog = _ from lookupsOf_backlog same]
        exact List.filter_sublist
    case waiting =>
      rcases kept q d asks g with done | same | ⟨ne, same⟩
      · exact .inr done
      · rw [show (resolveLookup s k o).acc.backlog = s.acc.backlog from lookupsOf_backlog same]
        exact .inl mem
      · rw [show (resolveLookup s k o).acc.backlog = _ from lookupsOf_backlog same]
        exact .inl (mem_withdrawn_backlog mem ne)
    case fetched =>
      rcases kept q d asks g with done | same | ⟨ne, same⟩
      · exact .inr done
      · exact .inl (fetch.of_lookups same)
      · exact .inl ((inFetch_withdrawn fetch ne).of_lookups same)

theorem resolveLookup_resolved (asks : Asking k c) (g : Going s k c) (o : LookupOutcome) :
    Resolved (resolveLookup s k o) k.line c.number := by
  rcases g with on | gone
  · rw [resolveLookup_waiting on asks.1 asks.2.1]
    exact (actOnOutcome_resolves on asks.2.1 o).resolved asks.2.2
  · exact (resolveLookup_resolving s k o).resolved gone

/-! ### The waiters of a fetch (R89, R90) -/

/-- A way to resolve lookups one by one. -/
structure Answering (op : State → Lookup → State) : Prop where
  resolving : ∀ s k, Resolving s (op s k)
  resolved : ∀ s k c, Asking k c → Going s k c → Resolved (op s k) k.line c.number

theorem Answering.fold {op : State → Lookup → State} (h : Answering op) (ks : List Lookup) (s : State) :
    Resolving s (ks.foldl op s) ∧
      ∀ k ∈ ks, ∀ c, Asking k c → Going s k c → Resolved (ks.foldl op s) k.line c.number := by
  induction ks generalizing s with
  | nil => exact ⟨.refl s, fun _ mem => nomatch mem⟩
  | cons q rest ih =>
    obtain ⟨resolving, resolved⟩ := ih (op s q)
    have first := h.resolving s q
    refine ⟨first.trans resolving, fun k mem c asks g => ?_⟩
    rcases List.mem_cons.1 mem with rfl | later
    · exact resolving.resolved (h.resolved s k c asks g)
    · exact resolved k later c asks (first.going k c asks g)

theorem touchFrame_resolving (s : State) (f : FrameNo) : Resolving s (touchFrame s f) :=
  .of_kept (fun _ => rfl) rfl rfl fun _ h => h

theorem resolveWaiter_answering (f : FrameNo) (surplus : List Entry) : Answering (resolveWaiter f surplus) := by
  refine ⟨fun s k => ?_, fun s k c asks g => ?_⟩
  · unfold resolveWaiter
    split
    · exact resolveLookup_resolving s k _
    · dsimp only
      split
      · exact (touchFrame_resolving s f).trans (resolveLookup_resolving _ k _)
      · exact (touchFrame_resolving s f).trans (resolveLookup_resolving _ k _)
  · unfold resolveWaiter
    split
    · exact resolveLookup_resolved asks g _
    · dsimp only
      split
      · exact resolveLookup_resolved asks ((touchFrame_resolving s f).going k c asks g) _
      · exact resolveLookup_resolved asks ((touchFrame_resolving s f).going k c asks g) _

theorem unavailable_answering : Answering fun s k => resolveLookup s k .unavailable :=
  ⟨fun s k => resolveLookup_resolving s k _, fun _ _ _ asks g => resolveLookup_resolved asks g _⟩

/-! ### One lookup of the backlog is placed (R80, R83) -/

/-- What has become of a lookup that was in the backlog. -/
def Tracked (t : State) (k : Lookup) (n : Nat) : Prop := k ∈ t.acc.backlog ∨ InFetch t k ∨ Resolved t k.line n

/-- A head lookup cannot be served: no slot is free, or no frame can be taken (R83). -/
def Blocked (s : State) : Prop := (∀ i : SlotNo, (s.acc.slots[i]).isSome = true) ∨ NoneToTake s

/-- What placing lookup `k` does, and whether it is still to be served. -/
structure Places (s : State) (k : Lookup) (t : State) (later : Bool) : Prop where
  resolving : Resolving s t
  placed : later = false → ∀ c, Asking k c → Going s k c → InFetch t k ∨ Resolved t k.line c.number
  blocked : later = true → Blocked t ∧ t.acc.backlog = s.acc.backlog

theorem freeSlot_none (h : freeSlot s = none) (i : SlotNo) : (s.acc.slots[i]).isSome = true := by
  have := List.find?_eq_none.1 h i (List.mem_finRange i)
  simpa [Option.isSome_iff_ne_none] using this

theorem fetchOf_some {b : Nat} (h : fetchOf s b = some i) : ∃ x, s.acc.slots[i] = some x ∧ x.bucket = b := by
  have := List.find?_some h
  simpa using this

theorem inFetch_setSlot {x : Option FetchSlot} (keeps : ∀ y, s.acc.slots[i] = some y → ∃ z, x = some z ∧ ∀ q ∈ y.waiters, q ∈ z.waiters)
    (h : InFetch s k) : InFetch (s.setSlot i x) k := by
  obtain ⟨j, y, slot, mem⟩ := h
  by_cases same : j = i
  · subst same
    obtain ⟨z, rfl, waiters⟩ := keeps y slot
    exact ⟨j, z, Vector.getElem_set_self .., waiters k mem⟩
  · exact ⟨j, y, (Vector.getElem_set_ne i.isLt j.isLt fun e => same (Fin.ext e.symm)).trans slot, mem⟩

theorem join_places {x : FetchSlot} (slot : s.acc.slots[i] = some x) :
    Places s k (s.setSlot i (some { x with waiters := x.waiters ++ [k] })) false := by
  refine ⟨.of_kept (fun _ => rfl) rfl rfl fun q => inFetch_setSlot fun y there => ?_, fun _ c _ _ => .inl ?_, nofun⟩
  · obtain rfl := Option.some.inj (slot.symm.trans there)
    exact ⟨_, rfl, fun _ mem => List.mem_append_left _ mem⟩
  · exact ⟨i, _, Vector.getElem_set_self .., List.mem_append_right _ (List.mem_singleton_self k)⟩

theorem issueFetch_places (free : s.acc.slots[i] = none) (f : FrameNo) (kind : FetchKind) : Places s k (issueFetch s i f kind k) false := by
  have lookups : lookupsOf (issueFetch s i f kind k) = lookupsOf (s.setSlot i (some
      { bucket := k.bucket, frame := f, kind := kind, waiters := [k], timer := startTimer s.acc.wait })) := by
    unfold issueFetch
    refine (lookupsOf_of_books (enqueuePriority_books _ _)).trans ?_
    cases kind <;> rfl
  have lines (l : LineNo) : (issueFetch s i f kind k).callOn l = s.callOn l := by
    unfold issueFetch
    rw [State.callOn_eq, enqueuePriority_line]
    cases kind <;> rfl
  refine ⟨.of_kept lines ((lookupsOf_backlog lookups).trans rfl) ((lookupsOf_timeouts lookups).trans rfl) fun q h => ?_, fun _ c _ _ => .inl ?_, nofun⟩
  · exact (inFetch_setSlot (fun y there => nomatch free.symm.trans there) h).of_lookups lookups
  · exact InFetch.of_lookups ⟨i, _, Vector.getElem_set_self .., List.mem_singleton_self k⟩ lookups

theorem resolveLookup_places (s : State) (k : Lookup) (o : LookupOutcome) : Places s k (resolveLookup s k o) false :=
  ⟨resolveLookup_resolving s k o, fun _ _ asks g => .inr (resolveLookup_resolved asks g o), nofun⟩

theorem Places.touched {later : Bool} (h : Places (touchFrame s f) k t later) : Places s k t later :=
  ⟨(touchFrame_resolving s f).trans h.resolving, fun now c asks g => h.placed now c asks ((touchFrame_resolving s f).going k c asks g),
    h.blocked⟩

theorem tryPlace_settled (h : placeCases s k = .settled t) (p : Places s k t false) :
    Places s k (tryPlace s k false).1 (tryPlace s k false).2 := by
  have placed : tryPlace s k false = (t, false) := by simp only [tryPlace, h]
  rw [placed]
  exact p

theorem tryPlace_needs {frame : Option FrameNo} {kind : FetchKind} (h : placeCases s k = .needs t frame kind)
    (takes : frame = none → NoneToTake t) : Places t k (tryPlace s k false).1 (tryPlace s k false).2 := by
  cases free : freeSlot t with
  | none =>
    have placed : tryPlace s k false = (t, true) := by cases frame <;> simp only [tryPlace, h, free]
    rw [placed]
    exact ⟨.refl t, nofun, fun _ => ⟨.inl (freeSlot_none free), rfl⟩⟩
  | some i =>
    cases frame with
    | none =>
      have placed : tryPlace s k false = (t, true) := by simp only [tryPlace, h]
      rw [placed]
      exact ⟨.refl t, nofun, fun _ => ⟨.inr (takes rfl), rfl⟩⟩
    | some f =>
      have placed : tryPlace s k false = (issueFetch t i f kind k, false) := by
        simp only [tryPlace, h, free, Bool.false_eq_true, if_false]
      rw [placed]
      exact issueFetch_places (by simpa using List.find?_some free) f kind

theorem tryPlace_places (s : State) (k : Lookup) : Places s k (tryPlace s k false).1 (tryPlace s k false).2 := by
  cases fetch : fetchOf s k.bucket with
  | some i =>
    obtain ⟨x, slot, -⟩ := fetchOf_some fetch
    exact tryPlace_settled (by simp only [placeCases, fetch, slot, Option.map_some]) (join_places slot)
  | none =>
    cases held : findBucket s k.bucket with
    | none =>
      have needs : placeCases s k = .needs s (chooseFrame s) .load := by simp only [placeCases, fetch, held]
      exact tryPlace_needs needs (chooseFrame_eq_none_iff s).1
    | some f =>
      by_cases due : (s.frame f).st = .refreshDue
      · have needs : placeCases s k = .needs s (some f) .merge := by simp only [placeCases, fetch, held, due]
        exact tryPlace_needs needs nofun
      · have searched (p : Placement) (h : (match searchFrame ((touchFrame s f).frame f) k.name with
            | some i => Placement.settled (resolveLookup (touchFrame s f) k (.found (f, i)))
            | none => if ((touchFrame s f).frame f).fresh then .settled (resolveLookup (touchFrame s f) k .unknown)
                else .needs (touchFrame s f) (some f) (if ((touchFrame s f).frame f).pins = 0 then .load else .merge)) = p) :
            placeCases s k = p := by
          rw [← h]
          unfold placeCases
          rw [fetch]
          dsimp only
          rw [held]
          dsimp only
          split
          · next st => exact absurd st due
          · rfl
        cases found : searchFrame ((touchFrame s f).frame f) k.name with
        | some i => exact tryPlace_settled (searched _ (by rw [found])) (resolveLookup_places _ k _).touched
        | none =>
          by_cases fresh : ((touchFrame s f).frame f).fresh = true
          · exact tryPlace_settled (searched _ (by rw [found]; exact if_pos fresh)) (resolveLookup_places _ k _).touched
          · exact (tryPlace_needs (t := touchFrame s f) (frame := some f) (searched _ (by rw [found]; exact if_neg fresh)) nofun).touched

/-! ### The backlog (R83) -/

/-- What serving the backlog of `s` leaves. -/
structure Serves (s t : State) : Prop where
  timeouts : t.acc.timeouts = s.acc.timeouts
  settled : ∀ l, NotAsking s l → t.callOn l = s.callOn l
  backlog : t.acc.backlog.Sublist s.acc.backlog
  tracked : ∀ k c, Asking k c → Going s k c → Tracked s k c.number → Tracked t k c.number

theorem Serves.resolved {n : Nat} (r : Serves s t) (h : Resolved s l n) : Resolved t l n := h.of_callOn (r.settled l h.notAsking)

theorem Resolving.tracked (r : Resolving s t) (asks : Asking k c) (g : Going s k c) (h : Tracked s k c.number) : Tracked t k c.number := by
  rcases h with waits | fetch | done
  · exact (r.waiting k c asks g waits).imp_right .inr
  · exact .inr (r.fetched k c asks g fetch)
  · exact .inr (.inr (r.resolved done))

/-- The backlog without its head lookup. -/
def dequeued (s : State) (rest : List Lookup) : State := { s with acc := { s.acc with backlog := rest } }

theorem Places.tracked {rest : List Lookup} {later : Bool} (head : s.acc.backlog = k :: rest) (p : Places (dequeued s rest) k t later)
    (asks : Asking q c) (g : Going s q c) (h : Tracked s q c.number) : Tracked t q c.number ∨ q = k ∧ later = true := by
  have others (h : Tracked (dequeued s rest) q c.number) : Tracked t q c.number := p.resolving.tracked asks g h
  rcases h with waits | fetch | done
  · rcases List.mem_cons.1 (head ▸ waits) with rfl | rest'
    · cases later with
      | false => exact .inl (.inr (p.placed rfl c asks g))
      | true => exact .inr ⟨rfl, rfl⟩
    · exact .inl (others (.inl rest'))
  · exact .inl (others (.inr (.inl fetch)))
  · exact .inl (others (.inr (.inr done)))

theorem serveBacklogLoop_serves (n : Nat) (s : State) (enough : s.acc.backlog.length ≤ n) :
    Serves s (serveBacklogLoop n s) ∧ ((serveBacklogLoop n s).acc.backlog = [] ∨ Blocked (serveBacklogLoop n s)) := by
  have nothing (n : Nat) (s : State) (h : s.acc.backlog = []) : Serves s s ∧ (s.acc.backlog = [] ∨ Blocked s) :=
    ⟨⟨rfl, fun _ _ => rfl, .refl _, fun _ _ _ _ h => h⟩, .inl h⟩
  induction n generalizing s with
  | zero => exact nothing 0 s (List.eq_nil_of_length_eq_zero (Nat.le_zero.1 enough))
  | succ n ih =>
    rcases head : s.acc.backlog with _ | ⟨k, rest⟩
    · have stops : serveBacklogLoop (n + 1) s = s := by simp only [serveBacklogLoop, head]
      rw [stops]
      exact nothing n s head
    · have p := tryPlace_places (dequeued s rest) k
      have going (q : Lookup) (c : Call) (asks : Asking q c) (g : Going s q c) : Going (tryPlace (dequeued s rest) k false).1 q c :=
        p.resolving.going q c asks g
      have one : serveBacklogLoop (n + 1) s =
          if (tryPlace (dequeued s rest) k false).2 = true then
            dequeued (tryPlace (dequeued s rest) k false).1 (k :: (tryPlace (dequeued s rest) k false).1.acc.backlog)
          else serveBacklogLoop n (tryPlace (dequeued s rest) k false).1 := by
        simp only [serveBacklogLoop, head]
        rfl
      rw [one]
      generalize tryPlace (dequeued s rest) k false = r at p going ⊢
      obtain ⟨u, later⟩ := r
      cases later with
      | true =>
        obtain ⟨blocked, same⟩ := p.blocked rfl
        rw [if_pos rfl]
        refine ⟨⟨p.resolving.timeouts, p.resolving.settled, ?_, fun q c asks g h => ?_⟩, .inr blocked⟩
        · rw [head]
          exact (same ▸ List.Sublist.refl _ : u.acc.backlog.Sublist rest).cons_cons k
        · rcases p.tracked head asks g h with (waits | others) | ⟨rfl, -⟩
          · exact .inl (List.mem_cons_of_mem k waits)
          · exact .inr others
          · exact .inl (List.mem_cons_self ..)
      | false =>
        rw [if_neg Bool.false_ne_true]
        have shorter : u.acc.backlog.length ≤ n := by
          have := p.resolving.backlog.length_le
          rw [head, List.length_cons] at enough
          exact this.trans (Nat.le_of_succ_le_succ enough)
        obtain ⟨serves, ends⟩ := ih u shorter
        refine ⟨⟨serves.timeouts.trans p.resolving.timeouts, fun l quiet => ?_, ?_, fun q c asks g h => ?_⟩, ends⟩
        · have same := p.resolving.settled l quiet
          exact (serves.settled l fun c hc => quiet c (same.symm.trans hc)).trans same
        · rw [head]
          exact (serves.backlog.trans p.resolving.backlog).trans (List.sublist_cons_self k rest)
        · exact serves.tracked q c asks (going q c asks g) ((p.tracked head asks g h).resolve_right nofun)

theorem serveBacklog_serves (s : State) :
    Serves s (serveBacklog s) ∧ ((serveBacklog s).acc.backlog = [] ∨ Blocked (serveBacklog s)) :=
  serveBacklogLoop_serves s.acc.backlog.length s le_rfl

/-! ### A fetch ends (R83, R89, R90) -/

/-- The state in which the waiters of fetch `x` have been resolved and the backlog is to be served. -/
structure Readied (s w : State) (x : FetchSlot) : Prop where
  backlog : w.acc.backlog.Sublist s.acc.backlog
  resolved : ∀ k ∈ x.waiters, ∀ c, Asking k c → s.callOn k.line = some c → Resolved w k.line c.number
  waiting : ∀ k ∈ s.acc.backlog, ∀ c, Asking k c → s.callOn k.line = some c →
    Going w k c ∧ (k ∈ w.acc.backlog ∨ Resolved w k.line c.number)

/-- The waiters of the fetch resolved and the backlog served. -/
structure FetchServed (s t : State) (x : FetchSlot) : Prop where
  backlog : t.acc.backlog.Sublist s.acc.backlog
  ends : t.acc.backlog = [] ∨ Blocked t
  resolved : ∀ k ∈ x.waiters, ∀ c, Asking k c → s.callOn k.line = some c → Resolved t k.line c.number
  waiting : ∀ k ∈ s.acc.backlog, ∀ c, Asking k c → s.callOn k.line = some c → Tracked t k c.number

theorem Readied.served {w : State} {x : FetchSlot} (h : Readied s w x) : FetchServed s (serveBacklog w) x := by
  obtain ⟨serves, ends⟩ := serveBacklog_serves w
  refine ⟨serves.backlog.trans h.backlog, ends, fun k mem c asks on => serves.resolved (h.resolved k mem c asks on),
    fun k mem c asks on => ?_⟩
  obtain ⟨going, waits⟩ := h.waiting k mem c asks on
  exact serves.tracked k c asks going (waits.imp_right .inr)

/-- Nothing but the cache's frames and slots, and what no lookup reads, has changed. -/
structure SameLookups (s u : State) : Prop where
  lines : ∀ l, u.callOn l = s.callOn l
  backlog : u.acc.backlog = s.acc.backlog

theorem SameLookups.refl (s : State) : SameLookups s s := ⟨fun _ => rfl, rfl⟩

theorem SameLookups.trans (a : SameLookups s t) (b : SameLookups t u) : SameLookups s u :=
  ⟨fun l => (b.lines l).trans (a.lines l), b.backlog.trans a.backlog⟩

theorem Answering.readied {op : State → Lookup → State} {w : State} {x : FetchSlot} (h : Answering op) (before : SameLookups s u)
    (after : SameLookups (x.waiters.foldl op u) w) : Readied s w x := by
  obtain ⟨resolving, resolved⟩ := h.fold x.waiters u
  have going {k : Lookup} {c : Call} (on : s.callOn k.line = some c) : Going u k c := .inl ((before.lines k.line).trans on)
  refine ⟨?_, fun k mem c asks on => (resolved k mem c asks (going on)).of_callOn (after.lines k.line), fun k mem c asks on => ⟨?_, ?_⟩⟩
  · rw [after.backlog, ← before.backlog]
    exact resolving.backlog
  · exact (resolving.going k c asks (going on)).imp (after.lines k.line).trans fun h => h.of_callOn (after.lines k.line)
  · rw [after.backlog]
    exact (resolving.waiting k c asks (going on) (before.backlog ▸ mem)).imp_right fun h => h.of_callOn (after.lines k.line)

/-- The frame of fetch `x` as a fetch without data leaves it (R90). -/
def failedFrameOf (s : State) (x : FetchSlot) : State :=
  match x.kind with
  | .load => emptyFrame s x.frame
  | .merge =>
    if (s.frame x.frame).pins = 0 then emptyFrame s x.frame else s.modFrame x.frame fun y => { y with st := .refreshDue }

theorem failFetch_eq (s : State) (i : SlotNo) (x : FetchSlot) :
    failFetch s i x = (x.waiters.foldl (fun s k => resolveLookup s k .unavailable) (failedFrameOf s x)).setSlot i none := rfl

theorem failedFrameOf_same (s : State) (x : FetchSlot) : SameLookups s (failedFrameOf s x) := by
  unfold failedFrameOf
  split
  · exact ⟨fun _ => rfl, rfl⟩
  · split <;> exact ⟨fun _ => rfl, rfl⟩

theorem failFetch_readied {x : FetchSlot} {w : State} (before : SameLookups s u) (after : SameLookups (failFetch u i x) w) :
    Readied s w x := by
  refine unavailable_answering.readied (before.trans (failedFrameOf_same u x)) (.trans ⟨fun _ => ?_, ?_⟩ after)
  · rfl
  · rfl

/-- A call whose lookup's fetch ends without data ends with DIRECTORY UNAVAILABLE (R69, R90). -/
theorem resolveUnavailable_carries (hc : s.callOn k.line = some c) (asks : Asking k c) :
    CarriesCause (resolveLookup s k .unavailable) k.line c .directoryUnavailable := by
  rw [resolveLookup_waiting hc asks.1 asks.2.1]
  simp only [actOnOutcome, hc]
  exact (endCall_prepared (cause := .directoryUnavailable) ((clearPassword_prepares s k.line).trans (placeText_prepares _ k.line 15 none)) hc asks.2.2 asks.2.1 nofun).1

theorem CarriesCause.notAsking {cause : EndCause} (h : CarriesCause s l c cause) : NotAsking s l := h.resolved.notAsking

theorem CarriesCause.of_settled {cause : EndCause} (h : CarriesCause s l c cause) (same : t.callOn l = s.callOn l) :
    CarriesCause t l c cause := fun d hd => h d (same ▸ hd)

theorem unavailable_fold (ks : List Lookup) (s : State) (mem : k ∈ ks) (asks : Asking k c)
    (hc : s.callOn k.line = some c ∨ CarriesCause s k.line c .directoryUnavailable) :
    CarriesCause (ks.foldl (fun s k => resolveLookup s k .unavailable) s) k.line c .directoryUnavailable := by
  have kept (ks : List Lookup) (s : State) (h : CarriesCause s k.line c .directoryUnavailable) :
      CarriesCause (ks.foldl (fun s k => resolveLookup s k .unavailable) s) k.line c .directoryUnavailable :=
    h.of_settled (((unavailable_answering.fold ks s).1).settled _ h.notAsking)
  induction ks generalizing s with
  | nil => nomatch mem
  | cons q rest ih =>
    rcases hc with on | done
    · by_cases own : q = k
      · subst own
        exact kept rest _ (resolveUnavailable_carries on asks)
      · refine ih _ ((List.mem_cons.1 mem).resolve_left (Ne.symm own)) ?_
        rcases resolveLookup_cases s q .unavailable with same | ⟨d, hd, number, phase, -, others, -⟩
        · exact .inl ((congrArg (State.callOn · k.line) same).trans on)
        · by_cases line : q.line = k.line
          · rw [line] at hd
            obtain rfl := Option.some.inj (on.symm.trans hd)
            have carries := resolveUnavailable_carries (k := q) (line ▸ on) ⟨number, phase, asks.2.2⟩
            exact .inr (line ▸ carries)
          · exact .inl (((State.callOn_eq ..).trans (congrArg Line.call (others _ (Ne.symm line)))).trans on)
    · exact kept (q :: rest) s done

theorem failFetch_unavailable {x : FetchSlot} (mem : k ∈ x.waiters) (asks : Asking k c) (hc : s.callOn k.line = some c) :
    CarriesCause (failFetch s i x) k.line c .directoryUnavailable := by
  rw [failFetch_eq]
  exact (unavailable_fold x.waiters (failedFrameOf s x) mem asks (.inl (((failedFrameOf_same s x).lines k.line).trans hc))).of_settled rfl

theorem failFetch_timeouts (s : State) (i : SlotNo) (x : FetchSlot) : (failFetch s i x).acc.timeouts = s.acc.timeouts := by
  rw [failFetch_eq]
  refine ((unavailable_answering.fold x.waiters (failedFrameOf s x)).1.timeouts).trans ?_
  unfold failedFrameOf
  split
  · rfl
  · split <;> rfl

theorem CarriesCause.serveBacklog {cause : EndCause} (h : CarriesCause s l c cause) : CarriesCause (serveBacklog s) l c cause :=
  h.of_settled ((serveBacklog_serves s).1.settled l h.notAsking)

end Sys2Proof.Machine
end

section
/-! SUPPORT. What a BUCKET DATA does, and the merge of its entries. -/

namespace Sys2Proof.Machine

variable {s t u v : State} {l m : LineNo} {c d : Call} {k q : Lookup} {i : SlotNo} {f : InFrame} {rest : List InFrame} {x : FetchSlot}

/-! ### The frame of a BUCKET DATA (R18, R85) -/

/-- Entry `i` of the body (R18). -/
def incomingOf (body : List Byte) (i : EntryNo) : Option Entry := entryOf ((body.drop (4 + 23 * i.val)).take 23)

/-- The slot of the fetch that the body's tag names (R85). -/
def tagOf (body : List Byte) : SlotNo := Fin.ofNat 4 (byteAt body 0)

/-- The bucket that the body names (R85). -/
def bucketOf (body : List Byte) : Nat := 256 * byteAt body 1 + byteAt body 2

theorem bucketData_body_length (h : AtHead s 0x21 f rest) : f.body.length = 4 ∨ f.body.length = 96 := by
  by_contra other
  have malformed : bodyForm 0x21 f.body = .malformed := by
    refine if_neg fun right => other (right.1.imp_right And.left)
  exact h.form (by simp [frameForm, h.code_eq, show catalogueRow 0x21 = some _ from rfl, malformed])

theorem bucketData_runs (h : AtHead s 0x21 f rest) : Completes .bucketData s (applyBucketData (afterTake s rest) f.body) :=
  congrArg Host.Outcome.next (by rw [takeFrame_noReply h (by decide)])

theorem dataTag_eq {body : List Byte} (long : 4 ≤ body.length) : (Fin.ofNat 4 (dataTag body) : SlotNo) = tagOf body :=
  congrArg (Fin.ofNat 4) (numberOf_field_one (by omega))

theorem dataBucket_eq {body : List Byte} (long : 4 ≤ body.length) : dataBucket body = bucketOf body := numberOf_field_two (by omega)

theorem applyBucketData_filled {body : List Byte} (full : body.length = 96) (slot : s.acc.slots[tagOf body] = some x)
    (bucket : x.bucket = bucketOf body) : applyBucketData s body = applyData s (tagOf body) x (Vector.ofFn (incomingOf body)) := by
  have entries : dataEntries body = some (Vector.ofFn (incomingOf body)) := if_pos full
  simp only [applyBucketData, dataTag_eq (show 4 ≤ body.length by omega), slot, bucket, dataBucket_eq (show 4 ≤ body.length by omega),
    if_true, entries]

theorem applyBucketData_unavailable {body : List Byte} (short : body.length = 4) (slot : s.acc.slots[tagOf body] = some x)
    (bucket : x.bucket = bucketOf body) : applyBucketData s body = serveBacklog (failFetch s (tagOf body) x) := by
  have entries : dataEntries body = none := if_neg (by omega)
  simp only [applyBucketData, dataTag_eq (show 4 ≤ body.length by omega), slot, bucket, dataBucket_eq (show 4 ≤ body.length by omega),
    if_true, entries]

theorem applyBucketData_late {body : List Byte} (long : 4 ≤ body.length)
    (late : ∀ x, s.acc.slots[tagOf body] = some x → x.bucket ≠ bucketOf body) : applyBucketData s body = lateFetch s := by
  cases slot : s.acc.slots[tagOf body] with
  | none => simp only [applyBucketData, dataTag_eq long, slot]
  | some x => simp only [applyBucketData, dataTag_eq long, slot, dataBucket_eq long, if_neg (late x slot)]

/-! ### The merge of a filled fetch (R87 to R89) -/

/-- What merging the incoming entries into the frame of fetch `x` makes: the entries, and those that find no place. -/
def mergeOf (s : State) (x : FetchSlot) (inc : EntryNo → Option Entry) : Vector (Option Entry) 4 × List Entry :=
  mergeEntries (s.frame x.frame).entries (arrived inc)

/-- The state in which fetch `x` in slot `i` has been merged, its waiters still to be resolved. -/
def mergedState (s : State) (i : SlotNo) (x : FetchSlot) (inc : EntryNo → Option Entry) : State :=
  let m := mergeOf s x inc
  { s with acc := { s.acc with
      frames := s.acc.frames.set x.frame
        { s.frame x.frame with st := if m.2.isEmpty then .valid else .refreshDue, entries := m.1, fresh := true }
      order := (s.acc.order.filter fun g => decide (g ≠ x.frame)) ++ [x.frame]
      slots := s.acc.slots.set i none
      bucketErrors := if m.2.isEmpty then s.acc.bucketErrors else oneMore s.acc.bucketErrors } }

theorem mergeFill_eq (s : State) (i : SlotNo) (x : FetchSlot) (inc : EntryNo → Option Entry) : mergeFill s i x (Vector.ofFn inc) =
    serveBacklog (x.waiters.foldl (resolveWaiter x.frame (mergeOf s x inc).2) (mergedState s i x inc)) := by
  unfold mergeFill mergedState mergeOf
  rw [presentEntries_ofFn]
  dsimp only
  by_cases none : (mergeEntries (s.frame x.frame).entries (arrived inc)).2.isEmpty = true
  · simp only [none, if_true]
    rfl
  · simp only [none]
    rfl

theorem applyData_merge {inc : EntryNo → Option Entry} (distinct : Distinct inc) (kind : x.kind = .merge) (pinned : 1 ≤ (s.frame x.frame).pins) :
    applyData s i x (Vector.ofFn inc) = mergeFill s i x (Vector.ofFn inc) := by
  unfold applyData
  rw [presentEntries_ofFn, hasDuplicates_arrived distinct, if_neg Bool.false_ne_true, if_pos ⟨kind, pinned⟩]

/-! ### A waiter of a filled fetch (R81, R88, R89) -/

theorem resolveWaiter_surplus {g : FrameNo} {surplus : List Entry} (there : ∃ n ∈ surplus, n.userName = k.name) :
    resolveWaiter g surplus s k = resolveLookup s k .unavailable := by
  refine if_pos ?_
  simpa using there

/-- The outcome of the search of frame `g` for a name (R81, R89). -/
def searchOutcome (s : State) (g : FrameNo) (name : List Byte) : LookupOutcome :=
  ((searchFrame (s.frame g) name).map fun i => LookupOutcome.found (g, i)).getD .unknown

theorem searchOutcome_found {g : FrameNo} {name : List Byte} {i : EntryNo} (h : searchFrame (s.frame g) name = some i) :
    searchOutcome s g name = .found (g, i) := by
  simp [searchOutcome, h]

theorem searchOutcome_unknown {g : FrameNo} {name : List Byte} (h : searchFrame (s.frame g) name = none) :
    searchOutcome s g name = .unknown := by
  simp [searchOutcome, h]

theorem resolveWaiter_searched {g : FrameNo} {surplus : List Entry} (no : ∀ n ∈ surplus, n.userName ≠ k.name) :
    resolveWaiter g surplus s k =
      resolveLookup (touchFrame s g) k (searchOutcome s g k.name) := by
  refine (if_neg ?_).trans ?_
  · simpa using no
  · have same : (touchFrame s g).frame g = s.frame g := rfl
    unfold searchOutcome
    dsimp only
    rw [same]
    cases searchFrame (s.frame g) k.name <;> rfl

theorem touchFrame_touched {g : FrameNo} {order : List FrameNo}
    (touched : s.acc.order = (order.filter fun h => decide (h ≠ g)) ++ [g]) : touchFrame s g = s := by
  have again : (s.acc.order.filter fun h => decide (h ≠ g)) ++ [g] = s.acc.order := by
    rw [touched, List.filter_append, List.filter_filter]
    simp
  unfold touchFrame
  rw [again]

theorem placeText_hli (s : State) (l : LineNo) (slot : Fin 24) (n : Option Nat) : (placeText s l slot n).hli = s.hli := by
  unfold placeText
  split
  · rfl
  · unfold placeChars
    split
    · rfl
    · split <;> rfl

theorem retryDialogue_hli (s : State) (l : LineNo) : (retryDialogue s l).hli = s.hli :=
  (placeText_hli _ l 1 none).trans (placeText_hli _ l 3 none)

/-- An unknown name with an attempt left brings the call back to NAME (R70). -/
theorem unknown_again (hc : s.callOn k.line = some c) (asks : Asking k c) (few : c.attempts + 1 < s.soe.attemptLimit) :
    (resolveLookup s k .unknown).acc = s.acc ∧
      (s.hli.ord.length < 47 → (resolveLookup s k .unknown).hli.ord =
        s.hli.ord ++ [failedFrame k.line (attempted c) 0 .unknown none]) ∧
      ∃ d, (resolveLookup s k .unknown).callOn k.line = some d ∧ d.phase = .name ∧ d.attempts = c.attempts + 1 := by
  let l := k.line
  let u := (clearPassword s l).modCall l fun c => { c with attempts := c.attempts + 1 }
  have counted : u.callOn l = some (attempted c) := by
    simp only [u, clearPassword, State.callOn_modCall_self]
    rw [show s.callOn l = some c from hc]
    rfl
  have failed : (signOnFailed u l 0 .unknown none).callOn l = some (attempted c) := by
    rw [State.callOn_eq, signOnFailed_others, ← State.callOn_eq, counted]
  have entered : (enterName (signOnFailed u l 0 .unknown none) l).callOn l = some (named (signOnFailed u l 0 .unknown none) (attempted c)) := by
    rw [enterName, State.callOn_modCall_self, failed]
    rfl
  obtain ⟨one, first⟩ := callOn_placeText entered 3 none
  obtain ⟨two, second⟩ := callOn_placeText first 1 none
  have retried : resolveLookup s k .unknown = retryDialogue (signOnFailed u l 0 .unknown none) l := by
    rw [resolveLookup_waiting hc asks.1 asks.2.1, actOnOutcome_unknown hc]
    change (match u.callOn l with | none => u | some c => _) = _
    rw [counted]
    exact if_pos few
  rw [retried]
  refine ⟨congrArg Prod.fst ((retryDialogue_books ..).trans ((signOnFailed_prepares u l 0 .unknown none).books.trans rfl)), fun room => ?_,
    _, second, rfl, rfl⟩
  rw [retryDialogue_hli, signOnFailed_eq counted room]
  rfl

/-- A passed sign-on attaches the call and offers it (R73). -/
theorem found_attached {at' : FrameNo × EntryNo} {e : Entry} (hc : s.callOn k.line = some c) (asks : Asking k c)
    (entry : s.entryAt at' = some e) (right : passwordPasses e c.pwBuf = true) (passes : signOnCheck s c e = none) :
    (resolveLookup s k (.found at')).acc = (attachPins s at').acc ∧
      ∃ d, (resolveLookup s k (.found at')).callOn k.line = some d ∧ d.attach = some at' ∧ d.cls = some e.cls ∧
        d.phase = if slotFree s e.cls = true then .opening else .queued := by
  rw [resolveLookup_waiting hc asks.1 asks.2.1, actOnOutcome_passed hc entry right passes]
  have cleared : (clearPassword s k.line).callOn k.line = some { c with pwBuf := [] } := by
    rw [clearPassword, State.callOn_modCall_self, hc]
    rfl
  obtain ⟨d, on, -, attach, cls, phase⟩ := attachCall_callOn (at' := at') (k := e.cls) cleared
  exact ⟨congrArg Prod.fst attachCall_books, d, on, attach, cls, phase⟩

/-! ### The surplus of a merge (R88) -/

section
variable {old : Vector (Option Entry) 4} {inc : EntryNo → Option Entry} {e n : Entry} {j : EntryNo}

theorem newcomers_eq (old : Vector (Option Entry) 4) (inc : EntryNo → Option Entry) : newcomers old inc =
    ((List.finRange 4).filterMap inc).filter fun n => !(List.finRange 4).any fun i => (old[i]).any fun e => decide (e.account = n.account) := by
  refine List.filter_congr fun n _ => ?_
  rw [Bool.eq_iff_iff, Bool.not_eq_true', ← Bool.not_eq_true]
  simp only [List.all_eq_true, List.any_eq_true, decide_eq_true_iff, Option.any_eq_true, mem_presentEntries, not_exists, not_and,
    List.mem_finRange, true_and]
  exact ⟨fun h i e there same => h e ⟨i, there⟩ same, fun h e there same => there.elim fun i there => h i e there same⟩

/-- The entry stays in the frame: it has live state, or comes again (R87). -/
def staysWith (inc : EntryNo → Option Entry) (e : Entry) : Bool :=
  decide (1 ≤ e.attached) || decide (1 ≤ e.stored) ||
    (List.finRange 4).any fun j => (inc j).any fun n => decide (n.account = e.account)

theorem mergeEntry_isNone (h : Distinct inc) (e : Entry) : (mergeEntry (arrived inc) e).isNone = !staysWith inc e := by
  by_cases again : ∃ j n, inc j = some n ∧ n.account = e.account
  · obtain ⟨j, n, hn, same⟩ := again
    have stays : ((List.finRange 4).any fun j => (inc j).any fun n => decide (n.account = e.account)) = true :=
      List.any_eq_true.2 ⟨j, List.mem_finRange j, by simp [hn, same]⟩
    rw [mergeEntry_matched h hn same, staysWith, stays]
    simp
  · have no : ∀ j n, inc j = some n → n.account ≠ e.account := fun j n hn same => again ⟨j, n, hn, same⟩
    have leaves : ((List.finRange 4).any fun j => (inc j).any fun n => decide (n.account = e.account)) = false := by
      rw [← Bool.not_eq_true, List.any_eq_true]
      rintro ⟨j, -, there⟩
      obtain ⟨n, hn, same⟩ := (Option.any_eq_true _ _).1 there
      exact no j n hn (of_decide_eq_true same)
    rw [mergeEntry_absent no, staysWith, leaves]
    simp only [Entry.live, Bool.or_false, Nat.lt_iff_add_one_le, Nat.zero_add]
    cases decide (1 ≤ e.attached) || decide (1 ≤ e.stored) <;> rfl

theorem empties_mergedOld (h : Distinct inc) (old : Vector (Option Entry) 4) :
    empties (mergedOld old inc) = (List.finRange 4).countP fun i => !(old[i]).any (staysWith inc) := by
  refine List.countP_congr fun i _ => ?_
  have merged : (mergedOld old inc)[i] = (old[i]).bind (mergeEntry (arrived inc)) := by
    simp only [mergedOld, Fin.getElem_fin, Vector.getElem_ofFn]
  rw [merged]
  cases old[i] with
  | none => simp
  | some e =>
    rw [Option.bind_some, mergeEntry_isNone h]
    simp

theorem mergeEntries_surplus (h : Distinct inc) (old : Vector (Option Entry) 4) : (mergeEntries old (arrived inc)).2 =
    (newcomers old inc).drop ((List.finRange 4).countP fun i => !(old[i]).any (staysWith inc)) := by
  rw [mergeEntries_eq, (placeNew_placed ..).surplus, empties_mergedOld h]

theorem surplus_newcomer (h : Distinct inc) (mem : n ∈ (mergeEntries old (arrived inc)).2) : n ∈ newcomers old inc := by
  rw [mergeEntries_surplus h] at mem
  exact List.mem_of_mem_drop mem

theorem mergeStatic_eq (same : n.account = e.account) : mergeStatic e n = { n with
    allowance := e.allowance, attached := e.attached, stored := e.stored, charged := e.charged
    exhausted := e.exhausted, warnedAtLevel := e.warnedAtLevel, withdrawn := false } := by
  simp only [mergeStatic, same]

end

/-! ### A merge into a pinned frame -/

/-- The situation of a BUCKET DATA that matches a MERGE into a pinned frame, with nothing in the backlog (R87). -/
structure Merges (s : State) (f : InFrame) (rest : List InFrame) (x : FetchSlot) : Prop where
  head : AtHead s 0x21 f rest
  slot : s.acc.slots[tagOf f.body] = some x
  bucket : x.bucket = bucketOf f.body
  kind : x.kind = .merge
  pinned : 1 ≤ (s.frame x.frame).pins
  backlog : s.acc.backlog = []
  full : f.body.length = 96
  distinct : Distinct (incomingOf f.body)

section
variable {old : EntryNo → Option Entry} {n e : Entry} {j : EntryNo}

/-- The state once the fetch is merged, its waiters still to be resolved. -/
def mergedAt (s : State) (f : InFrame) (rest : List InFrame) (x : FetchSlot) : State :=
  mergedState (afterTake s rest) (tagOf f.body) x (incomingOf f.body)

theorem Merges.runs (h : Merges s f rest x) : Completes .bucketData s (serveBacklog
    (x.waiters.foldl (resolveWaiter x.frame (mergeOf s x (incomingOf f.body)).2) (mergedAt s f rest x))) := by
  have run := bucketData_runs h.head
  rw [applyBucketData_filled (s := afterTake s rest) h.full h.slot h.bucket,
    applyData_merge (s := afterTake s rest) h.distinct h.kind h.pinned, mergeFill_eq] at run
  exact run

theorem Merges.runs_alone (h : Merges s f rest x) (none : x.waiters = []) : Completes .bucketData s (mergedAt s f rest x) := by
  have run := h.runs
  rw [none] at run
  have quiet : serveBacklog (mergedAt s f rest x) = mergedAt s f rest x := serveBacklog_empty h.backlog
  exact run.trans (congrArg Host.Outcome.next quiet)

theorem Merges.runs_waiter (h : Merges s f rest x) (one : x.waiters = [k]) : Completes .bucketData s
    (resolveWaiter x.frame (mergeOf s x (incomingOf f.body)).2 (mergedAt s f rest x) k) := by
  have run := h.runs
  rw [one] at run
  refine run.trans (congrArg Host.Outcome.next (serveBacklog_empty ?_))
  have kept := ((resolveWaiter_answering x.frame (mergeOf s x (incomingOf f.body)).2).resolving (mergedAt s f rest x) k).backlog
  rw [show (mergedAt s f rest x).acc.backlog = [] from h.backlog] at kept
  exact List.sublist_nil.1 kept

theorem mergedAt_touched (s : State) (f : InFrame) (rest : List InFrame) (x : FetchSlot) :
    touchFrame (mergedAt s f rest x) x.frame = mergedAt s f rest x := touchFrame_touched (order := s.acc.order) rfl

theorem frame_mergedAt (s : State) (f : InFrame) (rest : List InFrame) (x : FetchSlot) : (mergedAt s f rest x).frame x.frame =
    { s.frame x.frame with
      st := if (mergeOf s x (incomingOf f.body)).2.isEmpty then .valid else .refreshDue
      entries := (mergeOf s x (incomingOf f.body)).1, fresh := true } := Vector.getElem_set_self ..

theorem frame_mergedAt_ne {g : FrameNo} (ne : g ≠ x.frame) : (mergedAt s f rest x).frame g = s.frame g :=
  Vector.getElem_set_ne x.frame.isLt g.isLt fun e => ne (Fin.ext e.symm)

theorem entryAt_mergedAt (s : State) (f : InFrame) (rest : List InFrame) (x : FetchSlot) (i : EntryNo) :
    (mergedAt s f rest x).entryAt (x.frame, i) = (mergeOf s x (incomingOf f.body)).1[i] := by
  rw [State.entryAt, frame_mergedAt]

end

end Sys2Proof.Machine
end

section
/-! SUPPORT. The merge refresh, settled. -/

namespace Sys2Proof.Machine

variable {s t u v : State} {l m : LineNo} {c d : Call} {k q : Lookup} {i j : EntryNo} {f : InFrame} {rest : List InFrame} {x : FetchSlot}
  {e n : Entry}

/-! ### The waiter of a merge (R88, R89) -/

theorem Merges.surplus_ends (h : Merges s f rest x) (one : x.waiters = [k]) (hc : s.callOn k.line = some c) (asks : Asking k c)
    (there : ∃ n ∈ (mergeOf s x (incomingOf f.body)).2, n.userName = k.name) : EndsCall .bucketData s k.line c .directoryUnavailable := by
  have run := h.runs_waiter one
  rw [resolveWaiter_surplus there] at run
  have on : (mergedAt s f rest x).callOn k.line = some c := hc
  refine ⟨_, run, resolveUnavailable_carries on asks, fun m ne _ => ?_⟩
  rw [resolveLookup_waiting on asks.1 asks.2.1]
  exact (actOnOutcome_resolves on asks.2.1 .unavailable).others m ne

theorem Merges.searches (h : Merges s f rest x) (one : x.waiters = [k])
    (no : ∀ n ∈ (mergeOf s x (incomingOf f.body)).2, n.userName ≠ k.name) :
    Completes .bucketData s (resolveLookup (mergedAt s f rest x) k (searchOutcome (mergedAt s f rest x) x.frame k.name)) := by
  have run := h.runs_waiter one
  rw [resolveWaiter_searched no, mergedAt_touched] at run
  exact run

theorem Merges.unknown_again (h : Merges s f rest x) (one : x.waiters = [k]) (hc : s.callOn k.line = some c) (asks : Asking k c)
    (no : ∀ j n, incomingOf f.body j = some n → n.userName ≠ k.name) (few : c.attempts + 1 < s.soe.attemptLimit) :
    ∃ t d, Completes .bucketData s t ∧ t.callOn k.line = some d ∧ d.phase = .name ∧ d.attempts = c.attempts + 1 := by
  have nowhere : searchFrame ((mergedAt s f rest x).frame x.frame) k.name = none :=
    merged_search_none h.distinct no (congrArg Frame.entries (frame_mergedAt s f rest x))
  have run := h.searches one fun n mem => ?_
  · rw [searchOutcome_unknown nowhere] at run
    obtain ⟨-, -, d, on, phase, attempts⟩ := Machine.unknown_again (s := mergedAt s f rest x) hc asks few
    exact ⟨_, d, run, on, phase, attempts⟩
  · obtain ⟨⟨j, hn⟩, -⟩ := mem_newcomers.1 (surplus_newcomer h.distinct mem)
    exact no j n hn

theorem Merges.found_attached (h : Merges s f rest x) (one : x.waiters = [k]) (hc : s.callOn k.line = some c) (asks : Asking k c)
    (there : s.entryAt (x.frame, i) = some e) (hn : incomingOf f.body j = some n) (same : n.account = e.account) (name : n.userName = k.name)
    (first : ∀ (h : EntryNo) e', h < i → s.entryAt (x.frame, h) = some e' → e'.account ≠ e.account)
    (right : passwordPasses (mergeStatic e n) c.pwBuf = true) (passes : signOnCheck s c (mergeStatic e n) = none) :
    ∃ t d, Completes .bucketData s t ∧ t.entryAt (x.frame, i) = some { mergeStatic e n with attached := e.attached + 1 } ∧
      (t.frame x.frame).pins = (s.frame x.frame).pins + 1 ∧ t.callOn k.line = some d ∧ d.attach = some (x.frame, i) ∧
      d.cls = some n.cls ∧ d.phase = (if slotFree s n.cls = true then .opening else .queued) := by
  let b := mergedAt s f rest x
  have found : searchFrame (b.frame x.frame) k.name = some i :=
    name ▸ merged_search_some h.distinct there hn same first (congrArg Frame.entries (frame_mergedAt s f rest x))
  have run := h.searches one fun d mem => ?_
  · rw [searchOutcome_found found] at run
    have entry : b.entryAt (x.frame, i) = some (mergeStatic e n) :=
      (entryAt_mergedAt s f rest x i).trans (merged_matched h.distinct there hn same)
    obtain ⟨acc, d, on, attach, cls, phase⟩ := Machine.found_attached (s := b) hc asks entry right passes
    have frames : (resolveLookup b k (.found (x.frame, i))).frame x.frame = (attachPins b (x.frame, i)).frame x.frame := by
      simp only [State.frame, acc]
    refine ⟨resolveLookup b k (.found (x.frame, i)), d, run, ?_, ?_, on, attach, cls, phase⟩
    · rw [State.entryAt, frames]
      exact entryAt_attachPins entry
    · rw [frames, frame_attachPins_self entry]
      rw [frame_mergedAt]
  · intro other
    obtain ⟨⟨j', hd⟩, unknown⟩ := mem_newcomers.1 (surplus_newcomer h.distinct mem)
    rw [h.distinct.userName hd hn (other.trans name.symm)] at unknown
    exact unknown i e there same.symm

/-! ### The merged frame -/

/-- What the merge makes of the frame where no lookup waited (R87, R88). -/
theorem Merges.merged (h : Merges s f rest x) :
    (∀ i e j n, s.entryAt (x.frame, i) = some e → incomingOf f.body j = some n → n.account = e.account →
        (mergedAt s f rest x).entryAt (x.frame, i) = some (mergeStatic e n)) ∧
      (∀ i e, s.entryAt (x.frame, i) = some e → (∀ j n, incomingOf f.body j = some n → n.account ≠ e.account) →
        (1 ≤ e.attached ∨ 1 ≤ e.stored) → (mergedAt s f rest x).entryAt (x.frame, i) = some { e with withdrawn := true }) := by
  refine ⟨fun i e j n there hn same => ?_, fun i e there no live => ?_⟩
  · exact (entryAt_mergedAt s f rest x i).trans (merged_matched h.distinct there hn same)
  · refine (entryAt_mergedAt s f rest x i).trans (merged_absent there no ?_)
    rcases live with attached | stored
    · simp [Entry.live, Nat.lt_iff_add_one_le, attached]
    · simp [Entry.live, Nat.lt_iff_add_one_le, stored]

/-- The merge finds a place for every new account, or leaves the frame REFRESH DUE with no EMPTY slot (R88). -/
theorem Merges.placed (h : Merges s f rest x) :
    let all := ∀ n, ((∃ j, incomingOf f.body j = some n) ∧ ∀ i e, s.entryAt (x.frame, i) = some e → e.account ≠ n.account) →
      ∃ i, (mergedAt s f rest x).entryAt (x.frame, i) = some n
    (all → ((mergedAt s f rest x).frame x.frame).st = .valid ∧ (mergedAt s f rest x).acc.bucketErrors = s.acc.bucketErrors) ∧
      (¬ all → ((mergedAt s f rest x).frame x.frame).st = .refreshDue ∧
        (mergedAt s f rest x).acc.bucketErrors = oneMore s.acc.bucketErrors ∧
        ∀ i, ((mergedAt s f rest x).entryAt (x.frame, i)).isSome = true) := by
  intro all
  have surplus : (mergeOf s x (incomingOf f.body)).2 = [] ↔ all := by
    refine (merged_surplus h.distinct).trans ⟨fun no n new => ?_, fun placed n there unknown => ?_⟩
    · obtain ⟨i, stands⟩ := no n new.1 new.2
      exact ⟨i, (entryAt_mergedAt s f rest x i).trans stands⟩
    · obtain ⟨i, stands⟩ := placed n ⟨there, unknown⟩
      exact ⟨i, (entryAt_mergedAt s f rest x i).symm.trans stands⟩
  refine ⟨fun placed => ⟨?_, ?_⟩, fun lacks => ⟨?_, ?_, fun i => ?_⟩⟩
  · rw [frame_mergedAt]
    exact if_pos (List.isEmpty_iff.2 (surplus.2 placed))
  · exact if_pos (List.isEmpty_iff.2 (surplus.2 placed))
  · rw [frame_mergedAt]
    exact if_neg fun none => lacks (surplus.1 (List.isEmpty_iff.1 none))
  · exact if_neg fun none => lacks (surplus.1 (List.isEmpty_iff.1 none))
  · rw [entryAt_mergedAt]
    exact (placeNew_placed (newcomers _ (incomingOf f.body)) (mergedOld _ (incomingOf f.body))).full (fun none => lacks (surplus.1 none)) i

/-- Settles O43: the merge is made whole, and its one waiter finds its name in the surplus, nowhere, or in the merged frame. -/
theorem mergeKeepsTheLiveStateOfAccounts : Obligations.MergeKeepsTheLiveStateOfAccounts := by
  intro s f rest h slot incoming x there bucket kind pinned backlog full distinct old known news stays surplus
  have merges : Merges s f rest x := ⟨h, there, bucket, kind, pinned, backlog, full, distinct⟩
  have surplus_eq : surplus = (mergeOf s x (incomingOf f.body)).2 := by
    refine Eq.symm ((mergeEntries_surplus distinct _).trans ?_)
    rw [newcomers_eq]
    rfl
  refine ⟨fun k c one hc number phase running _ => ?waiter, fun none => ?alone⟩
  case waiter =>
    have asks : Asking k c := ⟨number, phase, running⟩
    refine ⟨fun left => merges.surplus_ends one hc asks (surplus_eq ▸ left), merges.unknown_again one hc asks, ?_⟩
    intro i e j n there hn same name first m right passes
    have merged : mergeStatic e n = m := mergeStatic_eq same
    have attached := merges.found_attached one hc asks there hn same name first (merged ▸ right) (merged ▸ passes)
    rw [merged] at attached
    exact attached
  case alone =>
    obtain ⟨matched, absent⟩ := merges.merged
    refine ⟨_, merges.runs_alone none, rfl, rfl, fun g ne => frame_mergedAt_ne ne, ?_, ?_, ?_, ?_, absent, merges.placed,
      rfl, rfl, rfl, rfl, rfl, rfl, rfl⟩
    · rw [frame_mergedAt]
    · rw [frame_mergedAt]
    · rw [frame_mergedAt]
    · intro i e j n there hn same
      exact (matched i e j n there hn same).trans (congrArg some (mergeStatic_eq same))

end Sys2Proof.Machine
end

section
/-! SUPPORT. The fetches that end: filled, emptied or abandoned. -/

namespace Sys2Proof.Machine

variable {s t u v : State} {l m : LineNo} {c d : Call} {k q : Lookup} {i : SlotNo} {j : EntryNo} {f : InFrame} {rest : List InFrame}
  {x : FetchSlot} {e n : Entry}

/-! ### The incoming entries (R18, R77) -/

theorem numberOf_field_three {bytes : List Byte} {i : Nat} (h : i + 2 < bytes.length) :
    numberOf (field bytes i 3) = 65536 * byteAt bytes i + 256 * byteAt bytes (i + 1) + byteAt bytes (i + 2) := by
  rw [field_succ (show i < bytes.length by omega) 2, field_succ (show i + 1 < bytes.length by omega) 1,
    field_succ (show i + 1 + 1 < bytes.length by omega) 0, field_zero]
  simp only [numberOf, byteAt, List.foldl_cons, List.foldl_nil, show i + 1 + 1 = i + 2 from rfl]
  omega

/-- What an entry of 23 bytes carries, with its live fields at their load values. -/
structure LoadedFrom (bytes : List Byte) (e : Entry) : Prop where
  account : e.account = 65536 * byteAt bytes 5 + 256 * byteAt bytes 6 + byteAt bytes 7
  cls : e.cls.val = byteAt bytes 1 % 4
  sessionLimit : e.sessionLimit = byteAt bytes 2
  userName : e.userName = bytes.drop 15
  attached : e.attached = 0
  stored : e.stored = 0
  charged : e.charged = 0
  exhausted : e.exhausted = false
  warned : e.warnedAtLevel = false
  withdrawn : e.withdrawn = false

theorem entryOf_loaded {bytes : List Byte} (long : bytes.length = 23) (h : entryOf bytes = some e) : LoadedFrom bytes e := by
  unfold entryOf at h
  dsimp only at h
  split at h
  · cases h
  · obtain rfl := Option.some.inj h
    refine ⟨numberOf_field_three (by omega), ?_, numberOf_field_one (by omega), ?_, rfl, rfl, rfl, rfl, rfl, rfl⟩
    · exact congrArg (· % 4) (numberOf_field_one (by omega))
    · exact List.take_of_length_le (by simp [long])

theorem entryOf_nil : entryOf [] = none := rfl

/-- An entry that a BUCKET DATA brings. -/
theorem incomingOf_loaded (h : f.body.length = 4 ∨ f.body.length = 96) (there : incomingOf f.body j = some e) :
    LoadedFrom ((f.body.drop (4 + 23 * j.val)).take 23) e := by
  refine entryOf_loaded ?_ there
  rcases h with short | full
  · have nothing : f.body.drop (4 + 23 * j.val) = [] := List.drop_eq_nil_iff.2 (by omega)
    rw [incomingOf, nothing] at there
    cases there
  · have := j.isLt
    simp only [List.length_take, List.length_drop, full]
    omega

/-! ### Duplicates (R85) -/

/-- Two of the incoming entries carry the same account or the same name (R85). -/
def Clash (inc : EntryNo → Option Entry) : Prop :=
  ∃ (i j : EntryNo) (d e : Entry), i ≠ j ∧ inc i = some d ∧ inc j = some e ∧ (d.account = e.account ∨ d.userName = e.userName)

theorem distinct_of_not_clash {inc : EntryNo → Option Entry} (h : ¬ Clash inc) : Distinct inc :=
  fun i j d e ne hd he => ⟨fun same => h ⟨i, j, d, e, ne, hd, he, .inl same⟩, fun same => h ⟨i, j, d, e, ne, hd, he, .inr same⟩⟩

theorem arrived_nodup_apart {α : Type} {inc : EntryNo → Option Entry} {key : Entry → α} (h : ((arrived inc).map key).Nodup)
    {i j : EntryNo} {d e : Entry} (ne : i ≠ j) (hd : inc i = some d) (he : inc j = some e) : key d ≠ key e := by
  have pairs := List.pairwise_filterMap.1 (List.pairwise_map.1 h)
  have : Std.Symm fun i j : EntryNo => ∀ d, inc i = some d → ∀ e, inc j = some e → key d ≠ key e :=
    ⟨fun i j apart d hd e he same => apart e he d hd same.symm⟩
  exact pairs.forall (List.mem_finRange i) (List.mem_finRange j) ne d hd e he

theorem hasDuplicates_clash {inc : EntryNo → Option Entry} (h : Clash inc) : hasDuplicates (arrived inc) = true := by
  obtain ⟨i, j, d, e, ne, hd, he, same⟩ := h
  by_contra no
  have nodup : ((arrived inc).map Entry.account).Nodup ∧ ((arrived inc).map Entry.userName).Nodup := by simpa [hasDuplicates] using no
  exact same.elim (arrived_nodup_apart nodup.1 ne hd he) (arrived_nodup_apart nodup.2 ne hd he)

/-! ### What a matching BUCKET DATA does (R85 to R90) -/

/-- The state in which duplicates have been counted. -/
def clashed (s : State) : State := { s with acc := { s.acc with bucketErrors := oneMore s.acc.bucketErrors } }

theorem applyData_clash {inc : EntryNo → Option Entry} (h : Clash inc) :
    applyData s i x (Vector.ofFn inc) = serveBacklog (failFetch (clashed s) i x) := by
  unfold applyData
  rw [presentEntries_ofFn, if_pos (hasDuplicates_clash h)]
  rfl

/-- The state in which fetch `x` in slot `i` has filled its frame, its waiters still to be resolved (R86). -/
def loadedState (s : State) (i : SlotNo) (x : FetchSlot) (inc : EntryNo → Option Entry) : State :=
  { s with acc := { s.acc with
      frames := s.acc.frames.set x.frame { s.frame x.frame with st := .valid, entries := Vector.ofFn inc, fresh := true }
      order := (s.acc.order.filter fun g => decide (g ≠ x.frame)) ++ [x.frame]
      slots := s.acc.slots.set i none } }

theorem applyData_load {inc : EntryNo → Option Entry} (distinct : Distinct inc) (kind : ¬ (x.kind = .merge ∧ 1 ≤ (s.frame x.frame).pins)) :
    applyData s i x (Vector.ofFn inc) = serveBacklog (x.waiters.foldl (resolveWaiter x.frame []) (loadedState s i x inc)) := by
  unfold applyData
  rw [presentEntries_ofFn, hasDuplicates_arrived distinct, if_neg Bool.false_ne_true]
  exact if_neg kind

/-- The state at a BUCKET DATA that matches fetch `x` (R85). -/
structure Matches (s : State) (f : InFrame) (rest : List InFrame) (x : FetchSlot) : Prop where
  head : AtHead s 0x21 f rest
  slot : s.acc.slots[tagOf f.body] = some x
  bucket : x.bucket = bucketOf f.body

theorem Matches.runs_unavailable (h : Matches s f rest x) (short : f.body.length = 4) :
    Completes .bucketData s (serveBacklog (failFetch (afterTake s rest) (tagOf f.body) x)) := by
  have run := bucketData_runs h.head
  rwa [applyBucketData_unavailable (s := afterTake s rest) short h.slot h.bucket] at run

theorem Matches.runs_clash (h : Matches s f rest x) (full : f.body.length = 96) (clash : Clash (incomingOf f.body)) :
    Completes .bucketData s (serveBacklog (failFetch (clashed (afterTake s rest)) (tagOf f.body) x)) := by
  have run := bucketData_runs h.head
  rwa [applyBucketData_filled (s := afterTake s rest) full h.slot h.bucket, applyData_clash clash] at run

theorem Matches.runs_load (h : Matches s f rest x) (full : f.body.length = 96) (distinct : Distinct (incomingOf f.body))
    (kind : ¬ (x.kind = .merge ∧ 1 ≤ (s.frame x.frame).pins)) : Completes .bucketData s (serveBacklog
      (x.waiters.foldl (resolveWaiter x.frame []) (loadedState (afterTake s rest) (tagOf f.body) x (incomingOf f.body)))) := by
  have run := bucketData_runs h.head
  rwa [applyBucketData_filled (s := afterTake s rest) full h.slot h.bucket, applyData_load (s := afterTake s rest) distinct kind] at run

/-- A matching BUCKET DATA serves its waiters and the backlog; without data every waiter ends (R83, R89, R90). -/
theorem Matches.serves (h : Matches s f rest x) : ∃ t, Completes .bucketData s t ∧ FetchServed s t x ∧
    (f.body.length = 4 ∨ Clash (incomingOf f.body) → ∀ k c, k ∈ x.waiters → Asking k c → s.callOn k.line = some c →
      CarriesCause t k.line c .directoryUnavailable) := by
  have fails {u : State} (same : SameLookups s u) (run : Completes .bucketData s (serveBacklog (failFetch u (tagOf f.body) x))) :
      ∃ t, Completes .bucketData s t ∧ FetchServed s t x ∧
        (f.body.length = 4 ∨ Clash (incomingOf f.body) → ∀ k c, k ∈ x.waiters → Asking k c → s.callOn k.line = some c →
          CarriesCause t k.line c .directoryUnavailable) :=
    ⟨_, run, (failFetch_readied same ⟨fun _ => rfl, rfl⟩).served, fun _ k c mem asks on =>
      (failFetch_unavailable mem asks ((same.lines k.line).trans on)).serveBacklog⟩
  rcases bucketData_body_length h.head with short | full
  · exact fails (u := afterTake s rest) ⟨fun _ => rfl, rfl⟩ (h.runs_unavailable short)
  · by_cases clash : Clash (incomingOf f.body)
    · exact fails (u := clashed (afterTake s rest)) ⟨fun _ => rfl, rfl⟩ (h.runs_clash full clash)
    · have no : ¬ (f.body.length = 4 ∨ Clash (incomingOf f.body)) := fun h => h.elim (by omega) clash
      have distinct := distinct_of_not_clash clash
      have filled {u : State} (same : SameLookups s u) (surplus : List Entry) :
          FetchServed s (serveBacklog (x.waiters.foldl (resolveWaiter x.frame surplus) u)) x :=
        ((resolveWaiter_answering x.frame surplus).readied same (.refl _)).served
      by_cases merge : x.kind = .merge ∧ 1 ≤ (s.frame x.frame).pins
      · have run := bucketData_runs h.head
        rw [applyBucketData_filled (s := afterTake s rest) full h.slot h.bucket,
          applyData_merge (s := afterTake s rest) distinct merge.1 merge.2, mergeFill_eq] at run
        exact ⟨_, run, filled (u := mergedAt s f rest x) ⟨fun _ => rfl, rfl⟩ _, fun none => absurd none no⟩
      · exact ⟨_, h.runs_load full distinct merge,
          filled (u := loadedState (afterTake s rest) (tagOf f.body) x (incomingOf f.body)) ⟨fun _ => rfl, rfl⟩ [], fun none => absurd none no⟩

end Sys2Proof.Machine
end

section
/-! SUPPORT. The fetches that end, settled. -/

namespace Sys2Proof.Machine

variable {s t u v : State} {l m : LineNo} {c d : Call} {k q : Lookup} {i : SlotNo} {j : EntryNo} {f : InFrame} {rest : List InFrame}
  {x : FetchSlot} {e n : Entry} {g : FrameNo}

/-! ### A load (R86, R89) -/

/-- The state in which the fetch has filled its frame, its waiters still to be resolved (R86). -/
def loadedAt (s : State) (f : InFrame) (rest : List InFrame) (x : FetchSlot) : State :=
  loadedState (afterTake s rest) (tagOf f.body) x (incomingOf f.body)

theorem loadedAt_touched (s : State) (f : InFrame) (rest : List InFrame) (x : FetchSlot) :
    touchFrame (loadedAt s f rest x) x.frame = loadedAt s f rest x := touchFrame_touched (order := s.acc.order) rfl

theorem frame_loadedAt (s : State) (f : InFrame) (rest : List InFrame) (x : FetchSlot) : (loadedAt s f rest x).frame x.frame =
    { s.frame x.frame with st := .valid, entries := Vector.ofFn (incomingOf f.body), fresh := true } := Vector.getElem_set_self ..

theorem frame_loadedAt_ne (ne : g ≠ x.frame) : (loadedAt s f rest x).frame g = s.frame g :=
  Vector.getElem_set_ne x.frame.isLt g.isLt fun e => ne (Fin.ext e.symm)

theorem entryAt_loadedAt (s : State) (f : InFrame) (rest : List InFrame) (x : FetchSlot) (j : EntryNo) :
    (loadedAt s f rest x).entryAt (x.frame, j) = incomingOf f.body j := by
  rw [State.entryAt, frame_loadedAt]
  exact Vector.getElem_ofFn ..

theorem not_merge (load : x.kind = .load) {p : Prop} : ¬ (x.kind = .merge ∧ p) := fun h => nomatch load.symm.trans h.1

/-- The frame as a load without data leaves it (R90). -/
theorem failFetch_load (load : x.kind = .load) (alone : x.waiters = []) (s : State) (i : SlotNo) :
    failFetch s i x = (emptyFrame s x.frame).setSlot i none := by
  rw [failFetch_eq, alone, failedFrameOf, load]
  rfl

theorem Matches.runs_load_waiter (h : Matches s f rest x) (full : f.body.length = 96) (distinct : Distinct (incomingOf f.body))
    (load : x.kind = .load) (one : x.waiters = [k]) (backlog : s.acc.backlog = []) : Completes .bucketData s
      (resolveLookup (loadedAt s f rest x) k (searchOutcome (loadedAt s f rest x) x.frame k.name)) := by
  have run := h.runs_load full distinct (not_merge load)
  rw [one] at run
  have searches : resolveWaiter x.frame [] (loadedAt s f rest x) k =
      resolveLookup (loadedAt s f rest x) k (searchOutcome (loadedAt s f rest x) x.frame k.name) := by
    rw [resolveWaiter_searched fun _ mem => (List.not_mem_nil mem).elim, loadedAt_touched]
  rw [← searches]
  refine run.trans (congrArg Host.Outcome.next (serveBacklog_empty ?_))
  have kept := ((resolveWaiter_answering x.frame []).resolving (loadedAt s f rest x) k).backlog
  rw [show (loadedAt s f rest x).acc.backlog = [] from backlog] at kept
  exact List.sublist_nil.1 kept

theorem Matches.load_unknown (h : Matches s f rest x) (full : f.body.length = 96) (distinct : Distinct (incomingOf f.body))
    (load : x.kind = .load) (one : x.waiters = [k]) (backlog : s.acc.backlog = []) (hc : s.callOn k.line = some c) (asks : Asking k c)
    (no : ∀ j e, incomingOf f.body j = some e → e.userName ≠ k.name) (few : c.attempts + 1 < s.soe.attemptLimit)
    (room : s.hli.ord.length < 47) : ∃ t d, Completes .bucketData s t ∧ t.acc = (loadedAt s f rest x).acc ∧
      t.callOn k.line = some d ∧ d.phase = .name ∧ d.attempts = c.attempts + 1 ∧
      t.hli.ord = s.hli.ord ++ [failedFrame k.line (attempted c) 0 .unknown none] := by
  have nowhere : searchFrame ((loadedAt s f rest x).frame x.frame) k.name = none :=
    searchFrame_none fun j e there => .inr (no j e ((entryAt_loadedAt s f rest x j).symm.trans there))
  have run := h.runs_load_waiter full distinct load one backlog
  rw [searchOutcome_unknown nowhere] at run
  obtain ⟨acc, ord, d, on, phase, attempts⟩ := unknown_again (s := loadedAt s f rest x) hc asks few
  exact ⟨_, d, run, acc, on, phase, attempts, ord room⟩

theorem Matches.load_found (h : Matches s f rest x) (full : f.body.length = 96) (distinct : Distinct (incomingOf f.body))
    (load : x.kind = .load) (one : x.waiters = [k]) (backlog : s.acc.backlog = []) (hc : s.callOn k.line = some c) (asks : Asking k c)
    (there : incomingOf f.body j = some e) (name : e.userName = k.name) (right : passwordPasses e c.pwBuf = true)
    (passes : signOnCheck s c e = none) : ∃ t d, Completes .bucketData s t ∧ t.acc.slots = s.acc.slots.set (tagOf f.body) none ∧
      t.frame x.frame = { s.frame x.frame with
        st := .valid, fresh := true, pins := (s.frame x.frame).pins + 1
        entries := (Vector.ofFn (incomingOf f.body)).set j (some { e with attached := 1 }) } ∧
      t.callOn k.line = some d ∧ d.attach = some (x.frame, j) ∧ d.cls = some e.cls ∧
      d.phase = (if slotFree s e.cls = true then .opening else .queued) := by
  let b := loadedAt s f rest x
  have loaded := incomingOf_loaded (.inr full) there
  have entry : b.entryAt (x.frame, j) = some e := (entryAt_loadedAt s f rest x j).trans there
  have found : searchFrame (b.frame x.frame) k.name = some j :=
    searchFrame_some entry loaded.withdrawn name fun j' d ne other _ same =>
      (distinct j' j d e ne ((entryAt_loadedAt s f rest x j').symm.trans other) there).2 (same.trans name.symm)
  have run := h.runs_load_waiter full distinct load one backlog
  rw [searchOutcome_found found] at run
  obtain ⟨acc, d, on, attach, cls, phase⟩ := found_attached (s := b) hc asks entry right passes
  have frames : (resolveLookup b k (.found (x.frame, j))).frame x.frame = (attachPins b (x.frame, j)).frame x.frame := by
    simp only [State.frame, acc]
  refine ⟨resolveLookup b k (.found (x.frame, j)), d, run, congrArg Acc.slots acc, ?_, on, attach, cls, phase⟩
  rw [frames, frame_attachPins_self entry, frame_loadedAt, loaded.attached]

/-- The lookup at the head of the backlog takes the slot that the fetch frees (R79, R82, R83). -/
theorem Matches.load_next (h : Matches s f rest x) (full : f.body.length = 96) (distinct : Distinct (incomingOf f.body))
    (load : x.kind = .load) (alone : x.waiters = []) (backlog : s.acc.backlog = [k])
    (noFetch : ∀ (j : SlotNo) y, s.acc.slots[j] = some y → j ≠ tagOf f.body → y.bucket ≠ k.bucket)
    (noFrame : ∀ h, (s.frame h).bucket ≠ some k.bucket) (free : s.acc.slots[i] = none ∨ i = tagOf f.body)
    (first : ∀ j : SlotNo, j < i → s.acc.slots[j] ≠ none ∧ j ≠ tagOf f.body) (takes : LoadTakes (loadedAt s f rest x) g) :
    Completes .bucketData s (issueFetch (dequeued (loadedAt s f rest x) []) i g .load k) := by
  let b := dequeued (loadedAt s f rest x) []
  have own : b.acc.slots[tagOf f.body] = none := Vector.getElem_set_self ..
  have other (j : SlotNo) (ne : j ≠ tagOf f.body) : b.acc.slots[j] = s.acc.slots[j] :=
    Vector.getElem_set_ne (tagOf f.body).isLt j.isLt fun e => ne (Fin.ext e.symm)
  have fetch : fetchOf b k.bucket = none := fetchOf_none fun j y there => by
    by_cases same : j = tagOf f.body
    · subst same
      exact nomatch own.symm.trans there
    · exact noFetch j y ((other j same).symm.trans there) same
  have nowhere : findBucket b k.bucket = none := findBucket_none fun h' => by
    by_cases same : h' = x.frame
    · subst same
      rw [show b.frame x.frame = (loadedAt s f rest x).frame x.frame from rfl, frame_loadedAt]
      exact noFrame x.frame
    · rw [show b.frame h' = (loadedAt s f rest x).frame h' from rfl, frame_loadedAt_ne same]
      exact noFrame h'
  have slot : freeSlot b = some i := by
    refine freeSlot_some ?_ fun j less => ?_
    · by_cases same : i = tagOf f.body
      · rw [same]
        exact own
      · rw [other i same]
        exact free.resolve_right same
    · rw [other j (first j less).2]
      exact (first j less).1
  have placed := tryPlace_fetched (s := b) fetch nowhere ((chooseFrame_eq_some_iff b g).2 takes) slot
  have served : serveBacklog (loadedAt s f rest x) = issueFetch b i g .load k := by
    have waits : (loadedAt s f rest x).acc.backlog = [k] := backlog
    rw [serveBacklog, waits]
    change serveBacklogLoop 1 _ = _
    simp only [serveBacklogLoop, waits]
    change (if (tryPlace b k false).2 = true then _ else (tryPlace b k false).1) = _
    rw [placed]
    rfl
  have run := h.runs_load full distinct (not_merge load)
  rw [alone] at run
  exact run.trans (congrArg Host.Outcome.next served)

/-! ### A fetch that is abandoned (R90, R91) -/

/-- The frame of fetch `x` once it is abandoned (R90). -/
def abandonedFrame (s : State) (x : FetchSlot) : Frame :=
  if x.kind = .merge ∧ 1 ≤ (s.frame x.frame).pins then { s.frame x.frame with st := .refreshDue } else Frame.empty

theorem failedFrameOf_eq (s : State) (x : FetchSlot) : failedFrameOf s x = s.modFrame x.frame fun _ => abandonedFrame s x := by
  unfold failedFrameOf abandonedFrame
  cases kind : x.kind with
  | load => simp [emptyFrame]
  | merge =>
    by_cases pins : (s.frame x.frame).pins = 0
    · simp [pins, emptyFrame]
    · have pinned : 1 ≤ (s.frame x.frame).pins := Nat.one_le_iff_ne_zero.2 pins
      simp only [pins, if_false, pinned, and_self, if_true]
      rfl

@[simp] theorem raiseFault_books (s : State) (k : FaultKind) (m : Option LineNo) (n : Option Nat) (d : Nat) (y : Bool) :
    books (raiseFault s k m n d y) = books s := by
  unfold raiseFault
  dsimp only
  split
  · rfl
  · split
    · rfl
    · exact enqueuePriority_books _ _

/-- The state in which the fetch in slot `i` has timed out, the backlog still to be served (R91). -/
def abandoned (s : State) (i : SlotNo) (x : FetchSlot) : State :=
  let v := failFetch s i x
  raiseFault { v with acc := { v.acc with timeouts := oneMore v.acc.timeouts } } .directoryTimeout none none x.bucket

theorem directoryWaitExpiry_due (slot : s.acc.slots[i] = some x) (due : x.timer = some 0) :
    Completes (.directoryWaitExpiry i) s (serveBacklog (abandoned s i x)) := by
  refine congrArg Host.Outcome.next ?_
  simp only [slot]
  exact if_pos ((isDue_iff x.timer).2 due)

theorem directoryWaitExpiry_idle (idle : ∀ x, s.acc.slots[i] = some x → x.timer ≠ some 0) :
    Completes (.directoryWaitExpiry i) s s := by
  refine congrArg Host.Outcome.next ?_
  cases slot : s.acc.slots[i] with
  | none => rfl
  | some x => exact if_neg fun due => idle x slot ((isDue_iff x.timer).1 due)

theorem abandoned_acc (s : State) (i : SlotNo) (x : FetchSlot) : (abandoned s i x).acc =
    { (failFetch s i x).acc with timeouts := oneMore (failFetch s i x).acc.timeouts } := congrArg Prod.fst (raiseFault_books _ _ _ _ _ _)

theorem abandoned_bst (s : State) (i : SlotNo) (x : FetchSlot) : (abandoned s i x).bst = (failFetch s i x).bst :=
  congrArg Prod.snd (raiseFault_books _ _ _ _ _ _)

theorem abandoned_line (s : State) (i : SlotNo) (x : FetchSlot) (m : LineNo) : (abandoned s i x).line m = (failFetch s i x).line m :=
  raiseFault_line _ _ _ _ _ _ m

theorem abandoned_same (s : State) (i : SlotNo) (x : FetchSlot) : SameLookups (failFetch s i x) (abandoned s i x) :=
  ⟨fun l => congrArg Line.call (abandoned_line s i x l), (congrArg Acc.backlog (abandoned_acc s i x)).trans rfl⟩

theorem abandoned_timeouts (s : State) (i : SlotNo) (x : FetchSlot) :
    (serveBacklog (abandoned s i x)).acc.timeouts = oneMore s.acc.timeouts := by
  rw [(serveBacklog_serves (abandoned s i x)).1.timeouts, abandoned_acc]
  exact congrArg oneMore (failFetch_timeouts s i x)

theorem endCall_lookup_adm (hc : s.callOn l = some c) (running : c.endCause = none) (phase : c.phase = .lookup) (cause : EndCause) :
    (endCall s l cause).adm = s.adm := by
  rw [endCall_lookup hc running phase, lineStrand_adm]
  rfl

/-- The one waiter of an abandoned fetch ends, the blocks apart from its line, the cache and the counters staying (R69, R90, R91). -/
theorem abandoned_waiter (one : x.waiters = [k]) (backlog : s.acc.backlog = []) (hc : s.callOn k.line = some c) (asks : Asking k c)
    (attach : c.attach = none) : let t := abandoned s i x
    CarriesCause t k.line c .directoryUnavailable ∧ OtherLinesKept s t k.line ∧ t.acc.backlog = [] ∧ t.acc.slots[i] = none ∧
      t.frame x.frame = abandonedFrame s x ∧ (∀ g, g ≠ x.frame → t.frame g = s.frame g) ∧ t.adm = s.adm ∧ t.bst = s.bst ∧
      t.ctu = s.ctu := by
  intro t
  let l := k.line
  let u := failedFrameOf s x
  let w := placeText (clearPassword u l) l 15
  have on : u.callOn l = some c := ((failedFrameOf_same s x).lines l).trans hc
  have prepared : Prepares u w l := (clearPassword_prepares u l).trans (placeText_prepares _ l 15 none)
  obtain ⟨d, hd, -, phase, running, -⟩ := prepared.call c on
  have resolves : resolveLookup u k .unavailable = endCall w l .directoryUnavailable := by
    rw [resolveLookup_waiting on asks.1 asks.2.1]
    simp only [actOnOutcome, show u.callOn k.line = some c from on]
    rfl
  have failed : failFetch s i x = (resolveLookup u k .unavailable).setSlot i none := by rw [failFetch_eq, one]; rfl
  have ended : books (resolveLookup u k .unavailable) = ((withdrawLookup u l).acc, s.bst) := by
    rw [resolves, endCall_prepared_books prepared on asks.2.2 asks.2.1 attach, show u = _ from failedFrameOf_eq s x]
    rfl
  have acc : (resolveLookup u k .unavailable).acc = (withdrawLookup u l).acc := congrArg Prod.fst ended
  have stays : t.acc.frames = u.acc.frames := by
    refine (congrArg Acc.frames (abandoned_acc s i x)).trans ?_
    change (failFetch s i x).acc.frames = _
    rw [failed]
    exact (congrArg Acc.frames acc).trans rfl
  refine ⟨?cause, fun m ne => ?others, ?backlog, ?slot, ?frame, fun g ne => ?frames, ?adm, ?bst, ?ctu⟩
  case cause => exact (failFetch_unavailable (i := i) (one ▸ List.mem_singleton_self k) asks hc).of_settled ((abandoned_same s i x).lines _)
  case others =>
    have local' := (actOnOutcome_resolves on asks.2.1 .unavailable).others m ne
    rw [show t.line m = _ from abandoned_line s i x m, failed]
    change (resolveLookup u k .unavailable).line m = _
    rw [resolveLookup_waiting on asks.1 asks.2.1, local', show u = _ from failedFrameOf_eq s x]
    rfl
  case backlog =>
    rw [(abandoned_same s i x).backlog, failed]
    change (resolveLookup u k .unavailable).acc.backlog = []
    have none : u.acc.backlog = [] := (failedFrameOf_same s x).backlog.trans backlog
    rw [acc]
    simp [withdrawLookup, none]
  case slot =>
    have slots : t.acc.slots = (failFetch s i x).acc.slots := (congrArg Acc.slots (abandoned_acc s i x)).trans rfl
    simp only [slots, failed]
    exact Vector.getElem_set_self ..
  case frame =>
    simp only [State.frame, stays, u, failedFrameOf_eq]
    exact Vector.getElem_set_self ..
  case frames =>
    simp only [State.frame, stays, u, failedFrameOf_eq]
    exact Vector.getElem_set_ne x.frame.isLt g.isLt fun e => ne (Fin.ext e.symm)
  case adm =>
    rw [show t.adm = (failFetch s i x).adm from raiseFault_adm _ _ _ _ _ _, failed]
    change (resolveLookup u k .unavailable).adm = _
    rw [resolves, endCall_lookup_adm hd (running.trans asks.2.2) (phase.trans asks.2.1), placeText_adm, show u = _ from failedFrameOf_eq s x]
    rfl
  case bst =>
    rw [show t.bst = _ from abandoned_bst s i x, failed]
    exact congrArg Prod.snd ended
  case ctu =>
    refine ((raiseFault_keeps _ _ _ _ _ _).ctu).trans ?_
    change (failFetch s i x).ctu = _
    rw [failed]
    refine ((resolveLookup_keeps u k .unavailable).ctu).trans ?_
    rw [show u = _ from failedFrameOf_eq s x]
    rfl

/-- Settles O42: the BUCKET DATA by what it matches and brings, and the directory wait by whether it is due. -/
theorem fetchesAreFilledOrAbandoned : Obligations.FetchesAreFilledOrAbandoned := by
  unfold Obligations.FetchesAreFilledOrAbandoned
  intro waits served unavailable
  have tells {s t : State} {x : FetchSlot} (h : FetchServed s t x) : served s t x :=
    ⟨h.backlog, h.ends.imp_right id, fun k c mem w => h.resolved k mem c w.2 w.1, fun k c mem w out => (h.waiting k mem c w.2 w.1).resolve_left out⟩
  refine ⟨fun s f rest h => ?data, fun s i => ⟨directoryWaitExpiry_idle, fun x slot due => ?expired⟩⟩
  case data =>
    intro slot b fields entries clash taken
    have entry (j : EntryNo) : entries[j] = incomingOf f.body j := Vector.getElem_ofFn ..
    have same : clash ↔ Clash (incomingOf f.body) := by simp only [clash, entry, Clash]
    have long : 4 ≤ f.body.length := by rcases bucketData_body_length h with e | e <;> omega
    refine ⟨fun late => ?late, fun j d there => ?entries, fun x there bucket => ?serves, fun x there bucket load => ?load⟩
    case late =>
      have run := bucketData_runs h
      rwa [applyBucketData_late (s := afterTake s rest) long late] at run
    case entries =>
      obtain ⟨account, cls, limit, name, attached, stored, charged, exhausted, warned, withdrawn⟩ :=
        incomingOf_loaded (bucketData_body_length h) ((entry j).symm.trans there)
      exact ⟨account, cls, limit, name, attached, stored, charged, exhausted, warned, withdrawn⟩
    case serves =>
      obtain ⟨t, run, serves, ends⟩ := Matches.serves ⟨h, there, bucket⟩
      exact ⟨t, run, tells serves, fun none k c mem w _ => ends (none.imp_right same.1) k c mem w.2 w.1⟩
    case load =>
      intro freed filled
      have is : Matches s f rest x := ⟨h, there, bucket⟩
      have apart (no : ¬ clash) : Distinct (incomingOf f.body) := distinct_of_not_clash fun h => no (same.2 h)
      refine ⟨fun alone backlog => ⟨fun short => ?_, fun full two => ?_, fun full no => ?_⟩, fun k c one backlog full no w =>
        ⟨fun unknown few room => ?_, fun j e at' name right passes => ?_⟩, fun k i g alone backlog full no noFetch noFrame free first takes room quiet => ?_⟩
      · have run := is.runs_unavailable short
        rw [failFetch_load load alone] at run
        exact run.trans (congrArg Host.Outcome.next (serveBacklog_empty (s := (emptyFrame (afterTake s rest) x.frame).setSlot slot none) backlog))
      · have run := is.runs_clash full (same.1 two)
        rw [failFetch_load load alone] at run
        exact run.trans (congrArg Host.Outcome.next
          (serveBacklog_empty (s := (emptyFrame (clashed (afterTake s rest)) x.frame).setSlot slot none) backlog))
      · have run := is.runs_load full (apart no) (not_merge load)
        rw [alone] at run
        exact run.trans (congrArg Host.Outcome.next (serveBacklog_empty (s := loadedAt s f rest x) backlog))
      · exact is.load_unknown full (apart no) load one backlog w.1 w.2 (fun j e there => unknown j e ((entry j).trans there)) few room
      · exact is.load_found full (apart no) load one backlog w.1 w.2 ((entry j).symm.trans at') name right passes
      · have run := is.load_next full (apart no) load alone backlog noFetch noFrame free first takes
        have none : (afterTake s rest).hli.prio = s.hli.prio := by simp [afterTake, quiet]
        have still : (afterTake s rest).hli.prioWait = [] := by simp [afterTake, quiet]
        rw [issueFetch_load (dequeued (loadedAt s f rest x) []) i g k (none.symm ▸ room) still] at run
        change Completes .bucketData s { dequeued (loadedAt s f rest x) [] with acc := _, hli := { (afterTake s rest).hli with
          prio := (afterTake s rest).hli.prio ++ _ } } at run
        rw [none] at run
        exact run
  case expired =>
    intro frame
    have run := directoryWaitExpiry_due slot due
    have same : SameLookups (failFetch s i x) (abandoned s i x) := abandoned_same s i x
    refine ⟨⟨_, run, tells (failFetch_readied (.refl s) same).served, fun k c mem w _ => ?_, abandoned_timeouts s i x⟩,
      fun alone backlog => ?_, fun k c one backlog w attach => ?_⟩
    · exact ((failFetch_unavailable mem w.2 w.1).of_settled (same.lines k.line)).serveBacklog
    · have frames : failFetch s i x = (s.modFrame x.frame fun _ => abandonedFrame s x).setSlot i none := by
        rw [failFetch_eq, alone, failedFrameOf_eq]
        rfl
      have quiet : (abandoned s i x).acc.backlog = [] := by
        rw [same.backlog, frames]
        exact backlog
      rw [serveBacklog_empty quiet, abandoned, frames] at run
      exact run
    · obtain ⟨carries, others, quiet, slots, own, frames, adm, bst, ctu⟩ := abandoned_waiter (i := i) one backlog w.1 w.2 attach
      rw [serveBacklog_empty quiet] at run
      exact ⟨⟨_, run, carries, fun m ne _ => others m ne⟩, _, run, slots, own, frames, adm, bst, ctu⟩

end Sys2Proof.Machine
end

section
/-! SUPPORT. What ending work leaves of the ties between calls and entries, and of the service state. -/

namespace Sys2Proof.Machine

variable {s t u : State} {l m : LineNo} {c : Call} {a : FrameNo × EntryNo} {cause : EndCause}

/-! ### The relation -/

/-- The entry that the call on line `l` is attached to. -/
def attachOf (s : State) (l : LineNo) : Option (FrameNo × EntryNo) := (s.callOn l).bind Call.attach

/-- An entry but for its live fields (R77). -/
def Entry.fixed (e : Entry) : Entry :=
  { e with attached := 0, stored := 0, charged := 0, exhausted := false, warnedAtLevel := false }

/-- The part is closing with a call record left, or halted with none (R182). -/
def ClosingOrDone (m : CloseMode) (s : State) : Prop :=
  (s.sfu.service = .closing m ∧ ∃ l, (s.callOn l).isSome = true) ∨ (s.sfu.service = .halted ∧ ∀ l, s.callOn l = none)

/-- The line is rung, or its call is being answered (R34, R36). -/
def Line.Ringing (x : Line) : Prop := x.st = .ring ∨ x.st = .answer

/-- No call becomes attached to an entry; every entry keeps all but its live fields; a part that closes halts with its last call;
no line is rung or answered anew. -/
structure Steady (s t : State) : Prop where
  attached : ∀ l a, attachOf t l = some a → attachOf s l = some a
  entries : ∀ a, (t.entryAt a).map Entry.fixed = (s.entryAt a).map Entry.fixed
  closing : ∀ m, ClosingOrDone m s → ClosingOrDone m t
  ringing : ∀ l, (t.line l).Ringing → (s.line l).Ringing

theorem Steady.refl (s : State) : Steady s s := ⟨fun _ _ h => h, fun _ => rfl, fun _ h => h, fun _ h => h⟩

theorem Steady.trans (a : Steady s t) (b : Steady t u) : Steady s u :=
  ⟨fun l x h => a.attached l x (b.attached l x h), fun x => (b.entries x).trans (a.entries x), fun m h => b.closing m (a.closing m h),
    fun l h => a.ringing l (b.ringing l h)⟩

theorem Steady.ite {p : Prop} [Decidable p] (a : p → Steady s t) (b : ¬ p → Steady s u) : Steady s (if p then t else u) := by
  split
  · exact a ‹_›
  · exact b ‹_›

theorem Steady.foldl {α : Type} (f : State → α → State) (h : ∀ s a, Steady s (f s a)) (xs : List α) (s : State) :
    Steady s (xs.foldl f s) := by
  induction xs generalizing s with
  | nil => exact .refl s
  | cons x xs ih => exact (h s x).trans (ih _)

/-- What leaves the calls but for their attachment, the entries and the service state as they are. -/
theorem Steady.of_calls (calls : ∀ l, (t.callOn l).isSome = (s.callOn l).isSome) (attach : ∀ l, attachOf t l = attachOf s l)
    (entries : ∀ a, (t.entryAt a).map Entry.fixed = (s.entryAt a).map Entry.fixed) (service : t.sfu.service = s.sfu.service)
    (ringing : ∀ l, (t.line l).Ringing → (s.line l).Ringing) : Steady s t := by
  refine ⟨fun l a h => attach l ▸ h, entries, fun m h => ?_, ringing⟩
  rcases h with ⟨going, l, there⟩ | ⟨ended, none⟩
  · exact .inl ⟨service.trans going, l, (calls l).trans there⟩
  · refine .inr ⟨service.trans ended, fun l => ?_⟩
    have := calls l
    rw [none l] at this
    simpa using this

theorem Steady.of_same (lines : t.lines = s.lines) (acc : t.acc.frames = s.acc.frames) (service : t.sfu.service = s.sfu.service) :
    Steady s t := by
  have call (l : LineNo) : t.callOn l = s.callOn l := by simp only [State.callOn, State.line, lines]
  refine .of_calls (fun l => congrArg Option.isSome (call l)) (fun l => ?_) (fun a => ?_) service fun l h => ?_
  · rw [attachOf, call, attachOf]
  · simp only [State.entryAt, State.frame, acc]
  · simpa only [State.line, lines] using h

theorem Steady.modLine (s : State) (l : LineNo) (f : Line → Line) (hf : (f (s.line l)).call = (s.line l).call)
    (hr : (f (s.line l)).Ringing → (s.line l).Ringing) : Steady s (s.modLine l f) := by
  have call (m : LineNo) : (s.modLine l f).callOn m = s.callOn m := by
    by_cases same : m = l
    · subst same
      exact (State.callOn_setLine_self s m _).trans hf
    · rw [State.callOn_eq, State.callOn_eq]
      exact congrArg Line.call (State.line_setLine_ne s _ same)
  refine .of_calls (fun m => congrArg Option.isSome (call m)) (fun m => by rw [attachOf, call, attachOf]) (fun _ => rfl) rfl fun m h => ?_
  by_cases same : m = l
  · subst same
    rw [State.line_modLine_self] at h
    exact hr h
  · rwa [State.line_modLine_ne _ _ same] at h

theorem Steady.modCall (s : State) (l : LineNo) (f : Call → Call) (hf : ∀ c, (f c).attach = c.attach) : Steady s (s.modCall l f) := by
  have other (m : LineNo) (ne : m ≠ l) : (s.modCall l f).callOn m = s.callOn m := by
    rw [State.callOn_eq, State.line_modCall_ne _ _ ne, State.callOn_eq]
  refine .of_calls (fun m => ?_) (fun m => ?_) (fun _ => rfl) rfl fun m h => ?_
  · by_cases same : m = l
    · subst same
      rw [State.callOn_modCall_self, Option.isSome_map]
    · rw [other m same]
  · by_cases same : m = l
    · subst same
      rw [attachOf, State.callOn_modCall_self, attachOf]
      cases s.callOn m with
      | none => rfl
      | some c => exact hf c
    · rw [attachOf, other m same, attachOf]
  · by_cases same : m = l
    · subst same
      rw [State.line_modCall_self] at h
      exact h
    · rwa [State.line_modCall_ne _ _ same] at h

theorem Steady.modCounters (s : State) (l : LineNo) (f : LineCounters → LineCounters) : Steady s (s.modCounters l f) :=
  .modLine s l _ rfl id

theorem Steady.modEntry (s : State) (a : FrameNo × EntryNo) (f : Entry → Entry) (hf : ∀ e, (f e).fixed = e.fixed) :
    Steady s (s.modEntry a f) := by
  refine .of_calls (fun _ => rfl) (fun _ => rfl) (fun b => ?_) rfl fun _ h => h
  by_cases same : b = a
  · subst same
    rw [State.entryAt_modEntry_self]
    cases s.entryAt b with
    | none => rfl
    | some e => exact congrArg some (hf e)
  · rw [State.entryAt_modEntry_ne _ _ same]

/-! ### Frames and texts -/

theorem enqueueOrdered_steady (s : State) (f : OutFrame) : Steady s (enqueueOrdered s f) := by
  rw [enqueueOrdered_eq]
  exact .of_same rfl rfl rfl

theorem enqueuePriority_steady (s : State) (f : OutFrame) : Steady s (enqueuePriority s f) := by
  unfold enqueuePriority
  split <;> exact .of_same rfl rfl rfl

theorem raiseFault_steady (s : State) (k : FaultKind) (m : Option LineNo) (n : Option Nat) (d : Nat) (y : Bool) :
    Steady s (raiseFault s k m n d y) := by
  unfold raiseFault
  dsimp only
  split
  · exact .of_same rfl rfl rfl
  · split
    · exact .of_same rfl rfl rfl
    · refine .trans ?_ (enqueuePriority_steady _ _)
      exact .of_same rfl rfl rfl

theorem placeChars_steady (s : State) (l : LineNo) (chars : List Byte) : Steady s (placeChars s l chars) := by
  unfold placeChars
  split
  · exact .refl s
  · split
    · exact .modCall s l _ fun _ => rfl
    · exact .of_same rfl rfl rfl

theorem placeText_steady (s : State) (l : LineNo) (slot : Fin 24) (n : Option Nat) : Steady s (placeText s l slot n) := by
  unfold placeText
  split
  · exact .refl s
  · exact placeChars_steady s l _

theorem sendText_steady (s : State) (l : LineNo) (slot : Fin 24) (n : Option Nat) : Steady s (sendText s l slot n) := by
  unfold sendText
  split
  · exact .refl s
  · split
    · unfold queueNotice
      split
      · exact .refl s
      · split
        · exact .refl s
        · split
          · exact .modCall s l _ fun _ => rfl
          · exact .of_same rfl rfl rfl
    · exact placeText_steady s l slot n
    · exact placeText_steady s l slot n
    · exact .refl s

/-! ### The removal of a call record (R29, R173, R182) -/

theorem dropBare_steady (s : State) (l : LineNo) : Steady s (dropBare s l) := by
  unfold dropBare
  exact .trans (.modLine s l _ rfl fun h => by simp [Line.Ringing] at h) (.modCounters _ l _)

theorem leaveDrop_steady (s : State) (l : LineNo) : Steady s (leaveDrop s l) := by
  unfold leaveDrop
  split
  · exact Steady.modLine s l _ rfl fun h => by simp [Line.Ringing] at h
  · exact Steady.modLine s l _ rfl fun h => by simp [Line.Ringing] at h

theorem haltIfDone_left {mode : CloseMode} (closing : s.sfu.service = .closing mode) (some' : s.anyCall = true) : haltIfDone s = s := by
  unfold haltIfDone
  rw [closing]
  exact if_pos some'

theorem haltIfDone_last {mode : CloseMode} (closing : s.sfu.service = .closing mode) (none : s.anyCall = false) :
    (haltIfDone s).sfu.service = .halted := by
  unfold haltIfDone
  rw [closing]
  dsimp only
  rw [if_neg (by simp [none])]
  unfold enqueuePriority
  split <;> rfl

theorem haltIfDone_done (ended : s.sfu.service = .halted) : haltIfDone s = s :=
  haltIfDone_running fun _ h => nomatch ended.symm.trans h

theorem anyCall_iff (s : State) : s.anyCall = true ↔ ∃ l, (s.callOn l).isSome = true := by
  simp only [State.anyCall, List.any_eq_true, mem_allLines, true_and]

theorem haltIfDone_callOn (s : State) (l : LineNo) : (haltIfDone s).callOn l = s.callOn l := by
  simp only [State.callOn, haltIfDone_line]

/-- A part that closes halts once its last call record is gone (R182). -/
theorem haltIfDone_closing {mode : CloseMode} (closing : s.sfu.service = .closing mode) : ClosingOrDone mode (haltIfDone s) := by
  cases some' : s.anyCall with
  | true =>
    rw [haltIfDone_left closing some']
    exact .inl ⟨closing, (anyCall_iff s).1 some'⟩
  | false =>
    refine .inr ⟨haltIfDone_last closing some', fun l => ?_⟩
    rw [haltIfDone_callOn]
    by_contra there
    exact Bool.false_ne_true (some'.symm.trans ((anyCall_iff s).2 ⟨l, Option.isSome_iff_ne_none.2 there⟩))

/-- The state once the call record of line `l` is gone (R29). -/
def emptied (s : State) (l : LineNo) : State :=
  { s.modLine l (fun x => { x with call := none }) with forwardWait := s.forwardWait.filter fun m => decide (m ≠ l) }

theorem callOn_emptied (s : State) (l m : LineNo) : (emptied s l).callOn m = if m = l then none else s.callOn m := by
  by_cases same : m = l
  · subst same
    rw [if_pos rfl]
    exact State.callOn_setLine_self s m _
  · rw [if_neg same]
    exact congrArg Line.call (State.line_setLine_ne s _ same)

theorem emptied_steady (s : State) (l : LineNo) : Steady s (haltIfDone (emptied s l)) := by
  refine ⟨fun m a h => ?_, fun a => ?_, fun mode h => ?_, fun m h => ?_⟩
  · rw [attachOf, haltIfDone_callOn, callOn_emptied] at h
    split at h
    · cases h
    · exact h
  · have acc : (haltIfDone (emptied s l)).acc = s.acc := congrArg Prod.fst (haltIfDone_books (emptied s l))
    simp only [State.entryAt, State.frame, acc]
  · rcases h with ⟨going, -⟩ | ⟨ended, none⟩
    · exact haltIfDone_closing (s := emptied s l) going
    · rw [haltIfDone_done (s := emptied s l) ended]
      refine .inr ⟨ended, fun k => ?_⟩
      rw [callOn_emptied, none k]
      exact ite_self _
  · rw [haltIfDone_line] at h
    by_cases same : m = l
    · subst same
      have line : (emptied s m).line m = { s.line m with call := none } := State.line_modLine_self s m fun x => { x with call := none }
      rw [line] at h
      exact h
    · have line : (emptied s l).line m = s.line m := State.line_modLine_ne s (fun x => { x with call := none }) same
      rwa [line] at h

theorem resign_steadier (s : State) (l : LineNo) (c : Call) :
    Steady (createCall s l .name c.speed (resignCopy (s.line l).settings c.copy)) (resign s l c) := by
  refine .trans ?_ ((placeText_steady _ l 0 none).trans (placeText_steady _ l 1 none))
  exact .modCall _ l _ fun _ => rfl

theorem resign_ringing (s : State) (l : LineNo) (c : Call) (m : LineNo) (h : ((resign s l c).line m).Ringing) : (s.line m).Ringing := by
  have created := (resign_steadier s l c).ringing m h
  by_cases same : m = l
  · subst same
    rw [createCall_line] at created
    exact created
  · rwa [(createCall_local s l _ _ _).others m same] at created

theorem resign_attached (s : State) (l : LineNo) (c : Call) (m : LineNo) (h : attachOf (resign s l c) m = some a) :
    attachOf s m = some a := by
  have created := (resign_steadier s l c).attached m a h
  by_cases same : m = l
  · subst same
    rw [attachOf, State.callOn_eq, createCall_line] at created
    cases created
  · rwa [attachOf, State.callOn_eq, (createCall_local s l _ _ _).others m same, ← State.callOn_eq] at created

theorem removeCall_steady (s : State) (l : LineNo) : Steady s (removeCall s l) := by
  unfold removeCall
  split
  · exact .refl s
  · next c _ =>
    dsimp only
    generalize hu : haltIfDone _ = u
    have gone : Steady s u := by
      rw [← hu]
      exact emptied_steady s l
    split
    · exact .ite (fun _ => gone.trans (leaveDrop_steady u l)) fun _ => gone
    · refine .ite (fun resigns => ?_) fun _ => gone.trans (dropBare_steady u l)
      have going : u.sfu.service = .opened := by
        simp only [mayResign, serviceOpen, Bool.and_eq_true, decide_eq_true_iff] at resigns
        exact resigns.2
      refine ⟨fun m a h => gone.attached m a (resign_attached u l c m h), fun a => ?_, fun mode h => ?_,
        fun m h => gone.ringing m (resign_ringing u l c m h)⟩
      · have acc : (resign u l c).acc = u.acc := congrArg Prod.fst (resign_books u l c)
        rw [← gone.entries a]
        simp only [State.entryAt, State.frame, acc]
      · rcases gone.closing mode h with ⟨closing, -⟩ | ⟨ended, -⟩
        · exact nomatch going.symm.trans closing
        · exact nomatch going.symm.trans ended
    · exact gone

/-! ### The billing record and the strands (R165 to R176) -/

theorem recordPins_steady (s : State) (a : FrameNo × EntryNo) : Steady s (recordPins s a) := .modEntry s a _ fun _ => rfl

theorem placeRecord_steady (s : State) (l : LineNo) : Steady s (placeRecord s l) := by
  unfold placeRecord
  split
  · exact .refl s
  · split
    · exact .refl s
    · refine .trans (.trans ?_ (recordPins_steady _ _)) (removeCall_steady _ l)
      dsimp only
      split
      · refine .trans (.trans ?_ (enqueueOrdered_steady _ _)) (raiseFault_steady _ _ _ _ _ _)
        exact .of_same rfl rfl rfl
      · refine .trans ?_ (enqueueOrdered_steady _ _)
        exact .of_same rfl rfl rfl

theorem holdCall_steady (s : State) (l : LineNo) : Steady s (holdCall s l) := by
  have held : Steady s { s.modCall l (fun c => { c with phase := .held }) with
      bst := { s.bst with held := s.bst.held ++ [l], heldCount := bump s.bst.heldCount } } := by
    refine .trans (.modCall s l (fun c => { c with phase := .held }) fun _ => rfl) ?_
    exact .of_same rfl rfl rfl
  unfold holdCall
  exact .ite (fun _ => held.trans (dropBare_steady _ l)) fun _ => held

theorem closeOut_steady (s : State) (l : LineNo) : Steady s (closeOut s l) :=
  .ite (fun _ => placeRecord_steady s l) fun _ => holdCall_steady s l

theorem settle_steady (s : State) (l : LineNo) : Steady s (settle s l) := by
  unfold settle
  split
  · exact .refl s
  · refine .ite (fun _ => .ite (fun _ => removeCall_steady s l) fun _ => .ite (fun _ => .ite (fun _ => ?_) fun _ => .refl s)
      fun _ => .ite (fun _ => closeOut_steady s l) fun _ => .refl s) fun _ => .refl s
    refine .trans ?_ (enqueueOrdered_steady _ _)
    exact .modCall s l _ fun _ => rfl

theorem discardOutput_steady (s : State) (l : LineNo) (r : Bool) : Steady s (discardOutput s l r) := .modCall s l _ fun _ => rfl

theorem dropLine_steady (s : State) (l : LineNo) : Steady s (dropLine s l) := by
  have bare := dropBare_steady s l
  simp only [dropLine]
  split
  · refine .ite (fun _ => ?_) fun _ => bare
    refine .trans ?_ (settle_steady _ l)
    refine .trans ?_ (.modCall _ l _ fun _ => by rfl)
    exact bare.trans (discardOutput_steady _ l _)
  · exact bare

theorem drainOver_steady (s : State) (l : LineNo) : Steady s (drainOver s l) := by
  unfold drainOver
  split
  · exact .refl s
  · refine .ite (fun _ => .trans ?_ (settle_steady _ l)) fun _ => dropLine_steady s l
    exact .modCall s l _ fun _ => rfl

theorem placeGoodbye_steady (s : State) (l : LineNo) : Steady s (placeGoodbye s l) := by
  unfold placeGoodbye
  split
  · exact .refl s
  · refine .ite (fun _ => .trans ?_ (placeText_steady _ l 14 none)) fun _ => .refl s
    exact .modCall s l _ fun _ => rfl

theorem drainCheck_steady (s : State) (l : LineNo) : Steady s (drainCheck s l) := by
  have placed := placeGoodbye_steady s l
  unfold drainCheck
  split
  · exact .refl s
  · refine .ite (fun _ => ?_) fun _ => .refl s
    dsimp only
    split
    · exact placed
    · exact .ite (fun _ => placed.trans (drainOver_steady _ l)) fun _ => placed

theorem closingTexts_steady (s : State) (l : LineNo) (cause : EndCause) : Steady s (closingTexts s l cause) := by
  unfold closingTexts
  split
  · exact (placeText_steady s l _ none).trans (placeText_steady _ l 14 none)
  · exact placeText_steady s l 14 none

theorem startDrain_steady (s : State) (l : LineNo) : Steady s (startDrain s l) := .modCall s l _ fun _ => rfl

theorem lineStrand_steady (s : State) (l : LineNo) (was : Phase) (cause : EndCause) (lost : Bool) :
    Steady s (lineStrand s l was cause lost) := by
  simp only [lineStrand]
  split
  · refine .ite (fun _ => (discardOutput_steady s l _).trans (dropLine_steady _ l)) fun _ =>
      .ite (fun _ => .trans ?unlimited (drainOver_steady _ l)) fun _ => .ite (fun _ => .trans ?hosted (drainCheck_steady _ l)) fun _ =>
      .ite (fun _ => .trans ?connected (drainCheck_steady _ l)) fun _ =>
        ((closingTexts_steady s l cause).trans (startDrain_steady _ l)).trans (drainCheck_steady _ l)
    case unlimited => exact .modCall s l _ fun _ => rfl
    case hosted =>
      refine .trans ?_ (.modCall _ l _ fun _ => by rfl)
      exact startDrain_steady s l
    case connected =>
      refine .trans (.trans ?_ (closingTexts_steady _ l cause)) (startDrain_steady _ l)
      exact .modCall s l _ fun _ => rfl
  · refine .trans ?_ (settle_steady _ l)
    refine .trans ?_ (.modCall _ l _ fun _ => by rfl)
    exact discardOutput_steady s l _
  · exact (discardOutput_steady s l _).trans (dropLine_steady _ l)

/-! ### The carriage (R121 to R123, R134) -/

theorem sendBatch_steady (s : State) (l : LineNo) : Steady s (sendBatch s l) := by
  unfold sendBatch
  split
  · exact .refl s
  · refine .ite (fun _ => .refl s) fun _ => .trans ?_ (settle_steady _ l)
    refine .trans ?_ (.modLine _ l _ rfl id)
    refine .trans ?_ (.modCall _ l _ fun _ => by rfl)
    exact enqueueOrdered_steady s _

theorem closingFlush_steady (s : State) (l : LineNo) : Steady s (closingFlush s l) := by
  have forwards (s : State) : Steady s (forwardBatch s l) := by
    unfold forwardBatch
    refine .ite (fun _ => sendBatch_steady s l) fun _ => .ite (fun _ => .refl s) fun _ => ?_
    exact .of_same rfl rfl rfl
  unfold closingFlush
  split
  · exact .refl s
  · refine .ite (fun _ => .refl s) fun _ => ?_
    unfold batchDue
    split
    · exact .refl s
    · refine .ite (fun _ => .refl s) fun _ => .trans ?_ (forwards _)
      exact .modCall s l _ fun _ => rfl

theorem stopCarriage_steady (s : State) (l : LineNo) : Steady s (stopCarriage s l) := .modCall s l _ fun _ => rfl

theorem markEnded_steady (s : State) (l : LineNo) (cause : EndCause) : Steady s (markEnded s l cause) := .modCall s l _ fun _ => rfl

theorem withdrawLookup_steady (s : State) (l : LineNo) : Steady s (withdrawLookup s l) := .of_same rfl rfl rfl

theorem leaveQueue_steady (s : State) (l : LineNo) : Steady s (leaveQueue s l) := by
  unfold leaveQueue
  refine .trans ?_ (.modCall _ l _ fun _ => by rfl)
  exact .of_same rfl rfl rfl

end Sys2Proof.Machine
end

section
/-! SUPPORT. How far the ending of a call reaches: to lines that carry calls of the same account, and no further. -/

namespace Sys2Proof.Machine

variable {s t u : State} {l m : LineNo} {c : Call} {a : FrameNo × EntryNo} {cause : EndCause} {T : LineNo → Prop} {endIt : Ender}

/-! ### Operations that touch certain lines only -/

/-- The operation touches the lines of `T` only. -/
structure Within (T : LineNo → Prop) (s t : State) : Prop where
  keeps : Keeps s t
  steady : Steady s t
  lines : ∀ m, ¬ T m → t.line m = s.line m

theorem Within.refl (T : LineNo → Prop) (s : State) : Within T s s := ⟨.refl s, .refl s, fun _ _ => rfl⟩

theorem Within.trans (a : Within T s t) (b : Within T t u) : Within T s u :=
  ⟨a.keeps.trans b.keeps, a.steady.trans b.steady, fun m out => (b.lines m out).trans (a.lines m out)⟩

theorem Within.ite {p : Prop} [Decidable p] (a : p → Within T s t) (b : ¬ p → Within T s u) : Within T s (if p then t else u) := by
  split
  · exact a ‹_›
  · exact b ‹_›

theorem Within.of_local (h : Local l s t) (steady : Steady s t) (inside : T l) : Within T s t :=
  ⟨h.keeps, steady, fun m out => h.others m fun same => out (same ▸ inside)⟩

theorem Within.of_same (keeps : Keeps s t) (steady : Steady s t) (lines : t.lines = s.lines) : Within T s t :=
  ⟨keeps, steady, fun m _ => by simp only [State.line, lines]⟩

/-- Operations in turn over a list touch what each touches, as long as each finds the state so reached. -/
theorem Within.foldl {α : Type} {f : State → α → State} (step : ∀ t, Within T s t → ∀ x, Within T t (f t x)) (xs : List α)
    (so : Within T s t) : Within T s (xs.foldl f t) := by
  induction xs generalizing t with
  | nil => exact so
  | cons x xs ih => exact ih (so.trans (step t so x))

/-! ### Which lines an evaluation reaches (R159) -/

/-- The entry has an allowance with a limit (R159). -/
def Limited (s : State) (a : FrameNo × EntryNo) : Prop := ∃ e, s.entryAt a = some e ∧ e.allowance ≠ none

/-- An evaluation of the entry reaches lines of `T` only. -/
def ReachesIn (T : LineNo → Prop) (s : State) (a : FrameNo × EntryNo) : Prop :=
  Limited s a → ∀ m, evaluationReaches s a m = true → T m

/-- `T` holds every line whose call an evaluation of the account of one of its calls reaches. -/
def Closed (T : LineNo → Prop) (s : State) : Prop := ∀ l a, T l → attachOf s l = some a → ReachesIn T s a

theorem evaluationReaches_iff (s : State) (a : FrameNo × EntryNo) (m : LineNo) : evaluationReaches s a m = true ↔
    ∃ c, s.callOn m = some c ∧ reachable c = true ∧ c.attach = some a := by
  unfold evaluationReaches
  cases s.callOn m with
  | none => simp
  | some c => simp

theorem reachable_iff (c : Call) : reachable c = true ↔
    c.attach.isSome = true ∧ (c.phase = .queued ∨ c.phase = .opening ∨ c.phase = .connected) := by
  unfold reachable
  rw [Bool.and_eq_true]
  refine and_congr_right fun _ => ?_
  cases c.phase <;> simp

theorem reached_iff (s : State) (a : FrameNo × EntryNo) (m : LineNo) :
    evaluationReaches s a m = true ↔ ∃ d, Reached s m d a := by
  rw [evaluationReaches_iff]
  refine exists_congr fun d => ?_
  constructor
  · rintro ⟨call, reach, attach⟩
    exact ⟨call, attach, ((reachable_iff d).1 reach).2⟩
  · rintro ⟨call, attach, phase⟩
    exact ⟨call, (reachable_iff d).2 ⟨by rw [attach]; rfl, phase⟩, attach⟩

theorem Limited.of_steady (steady : Steady s t) (h : Limited t a) : Limited s a := by
  obtain ⟨e, there, limited⟩ := h
  have same := steady.entries a
  rw [there] at same
  obtain ⟨d, was, fixed⟩ := Option.map_eq_some_iff.1 same.symm
  exact ⟨d, was, fun none => limited ((congrArg Entry.allowance fixed).symm.trans none)⟩

/-- What is reached beyond `T` was reached before. -/
theorem Within.reaches (w : Within T s t) (out : ¬ T m) : evaluationReaches t a m = evaluationReaches s a m := by
  simp only [evaluationReaches, State.callOn, w.lines m out]

theorem ReachesIn.within (h : ReachesIn T s a) (w : Within T s t) : ReachesIn T t a := by
  intro limited m reach
  by_contra out
  exact out (h (limited.of_steady w.steady) m (w.reaches out ▸ reach))

theorem Closed.within (h : Closed T s) (w : Within T s t) : Closed T t :=
  fun l a inside attach => (h l a inside (w.steady.attached l a attach)).within w

/-! ### The charge and its evaluation (R152, R159 to R162) -/

/-- An ender touches nothing but the calls of the account (R24, R161). -/
def EndsWithin (endIt : Ender) : Prop := ∀ T s l cause, Closed T s → T l → Within T s (endIt s l cause)

theorem sendText_within (s : State) (l : LineNo) (slot : Fin 24) (n : Option Nat) (inside : T l) : Within T s (sendText s l slot n) :=
  .of_local (sendText_local s l slot n) (sendText_steady s l slot n) inside

theorem addCause_within (he : EndsWithin endIt) (closed : Closed T s) (inside : T l) (k : PendingKind) (g : Interval) :
    Within T s (addCause endIt s l k g) := by
  unfold addCause
  split
  · exact .refl T s
  · refine .ite (fun _ => .refl T s) fun _ => .ite (fun _ => he T s l _ closed inside) fun _ => ?_
    split
    · exact sendText_within s l _ _ inside
    · refine .trans ?_ (sendText_within _ l _ _ inside)
      exact .of_local (Local.modCall_plain s l _ fun _ => ⟨rfl, rfl, rfl, rfl, rfl, rfl, rfl⟩) (.modCall s l _ fun _ => rfl) inside

theorem removeCause_within (s : State) (l : LineNo) (k : PendingKind) (inside : T l) : Within T s (removeCause s l k) :=
  .of_local (removeCause_local s l k) (.modCall s l _ fun _ => rfl) inside

theorem warnCall_within (s : State) (l : LineNo) (inside : T l) : Within T s (warnCall s l) := by
  refine .of_local (warnCall_local s l) ?_ inside
  unfold warnCall
  split
  · exact .refl s
  · refine .ite (fun _ => .refl s) fun _ => .trans ?_ (sendText_steady _ l _ _)
    exact .modCall s l _ fun _ => rfl

theorem modEntry_within (s : State) (a : FrameNo × EntryNo) (f : Entry → Entry) (hf : ∀ e, (f e).fixed = e.fixed) :
    Within T s (s.modEntry a f) := .of_same (modEntry_keeps s a f) (.modEntry s a f hf) rfl

theorem mtr_within (s : State) (x : Mtr) : Within T s { s with mtr := x } := .of_same (Keeps.mtr s x) (.of_same rfl rfl rfl) rfl

/-- An operation on each line that an evaluation of the entry reaches. -/
theorem reached_fold {f : State → LineNo → State} (reaches : ReachesIn T s a) (limited : Limited s a) (so : Within T s t)
    (step : ∀ u, Within T s u → ∀ l, T l → Within T u (f u l)) (ls : List LineNo) :
    Within T s (ls.foldl (fun s l => if evaluationReaches s a l then f s l else s) t) := by
  refine so.foldl (fun u within l => .ite (fun reach => ?_) fun _ => .refl T u) ls
  by_cases inside : T l
  · exact step u within l inside
  · exact absurd (reaches limited l (within.reaches inside ▸ reach)) inside

theorem warningTest_within (reaches : ReachesIn T s a) (limited : Limited s a) (e : Entry) (r : Int) : Within T s (warningTest s a e r) := by
  simp only [warningTest]
  refine .ite (fun _ => modEntry_within s a _ fun _ => rfl) fun _ => .ite (fun _ => .refl T s) fun _ => ?_
  refine reached_fold reaches limited ?_ (fun u _ l inside => warnCall_within u l inside) allLines
  exact .trans (modEntry_within s a (fun e => { e with warnedAtLevel := true }) fun _ => rfl) (mtr_within _ _)

theorem exhaustionTest_within (he : EndsWithin endIt) (closed : Closed T s) (reaches : ReachesIn T s a) (limited : Limited s a) (e : Entry)
    (r : Int) : Within T s (exhaustionTest endIt s a e r) := by
  simp only [exhaustionTest]
  refine .ite (fun _ => .refl T s) fun _ => ?_
  refine reached_fold reaches limited ?_ (fun u so l inside => addCause_within he (closed.within so) inside _ _) allLines
  exact .trans (modEntry_within s a (fun e => { e with exhausted := true }) fun _ => rfl) (mtr_within _ _)

theorem restorationTest_within (reaches : ReachesIn T s a) (limited : Limited s a) (e : Entry) (r : Int) :
    Within T s (restorationTest s a e r) := by
  simp only [restorationTest]
  refine .ite (fun _ => .refl T s) fun _ => ?_
  refine reached_fold reaches limited ?_
    (fun u _ l inside => (removeCause_within u l _ inside).trans (sendText_within _ l _ _ inside)) allLines
  exact .trans (modEntry_within s a (fun e => { e with exhausted := false }) fun _ => rfl) (mtr_within _ _)

/-- Static fields are found again after steady operations. -/
theorem Steady.limited (steady : Steady s t) (h : Limited s a) : Limited t a := by
  obtain ⟨e, there, limited⟩ := h
  have same := steady.entries a
  rw [there] at same
  obtain ⟨d, now, fixed⟩ := Option.map_eq_some_iff.1 same
  exact ⟨d, now, fun none => limited ((congrArg Entry.allowance fixed).symm.trans none)⟩

theorem evaluateAllowance_within (he : EndsWithin endIt) (closed : Closed T s) (reaches : ReachesIn T s a) :
    Within T s (evaluateAllowance endIt s a) := by
  unfold evaluateAllowance
  split
  · exact .refl T s
  · next e there =>
    split
    · exact .refl T s
    · next n allowance =>
      have limited : Limited s a := ⟨e, there, by simp [allowance]⟩
      have warned := warningTest_within reaches limited e (remainingOf n e.charged)
      have ended := warned.trans (exhaustionTest_within he (closed.within warned) (reaches.within warned) (warned.steady.limited limited) e
        (remainingOf n e.charged))
      exact ended.trans (restorationTest_within (reaches.within ended) (ended.steady.limited limited) e _)

theorem evaluateCall_within (he : EndsWithin endIt) (closed : Closed T s) (inside : T l) : Within T s (evaluateCall endIt s l) := by
  unfold evaluateCall
  split
  · exact .refl T s
  · next a attach => exact evaluateAllowance_within he closed (closed l a inside attach)

theorem addUnits_steady (s : State) (l : LineNo) (n : Nat) : Steady s (addUnits s l n) := by
  have charged : Steady s (s.modCall l fun c => { c with meter := { c.meter with charge := c.meter.charge + n } }) :=
    .modCall s l _ fun _ => rfl
  unfold addUnits
  split
  · exact .refl s
  · dsimp only
    split
    · exact charged
    · exact charged.trans (.modEntry _ _ _ fun _ => rfl)

theorem addUnits_within (s : State) (l : LineNo) (n : Nat) (inside : T l) : Within T s (addUnits s l n) :=
  .of_local (addUnits_local s l n) (addUnits_steady s l n) inside

theorem chargeUnitSeconds_within (he : EndsWithin endIt) (closed : Closed T s) (inside : T l) (n : Nat) :
    Within T s (chargeUnitSeconds endIt s l n) := by
  unfold chargeUnitSeconds
  split
  · exact .refl T s
  · next c _ =>
    have counted : Within T s (s.modCall l fun c' => { c' with meter := { c'.meter with acc := (c.meter.acc + n) % 3600 } }) :=
      .of_local (Local.modCall s l _ fun _ _ => ⟨rfl, fun b =>
        ⟨b.name, b.password, b.transmit, b.batch, b.notices, Nat.mod_lt _ (by decide)⟩⟩) (.modCall s l _ fun _ => rfl) inside
    have added := counted.trans (addUnits_within _ l ((c.meter.acc + n) / 3600) inside)
    exact added.trans (evaluateCall_within he (closed.within added) inside)

theorem startStep_within (s : State) (l : LineNo) (inside : T l) : Within T s (startStep s l) :=
  .of_local (startStep_local s l) (.modCall s l _ fun _ => rfl) inside

theorem completeStep_within (he : EndsWithin endIt) (closed : Closed T s) (inside : T l) : Within T s (completeStep endIt s l) := by
  unfold completeStep
  split
  · exact .refl T s
  · next c _ =>
    refine .ite (fun _ => .refl T s) fun _ => ?_
    have reset : Within T s (s.modCall l fun c => { c with meter := { c.meter with stepPos := 0 } }) :=
      .of_local (Local.modCall_plain s l _ fun _ => ⟨rfl, rfl, rfl, rfl, rfl, rfl, rfl⟩) (.modCall s l _ fun _ => rfl) inside
    have charged := reset.trans (chargeUnitSeconds_within he (closed.within reset) inside (c.meter.stepRate * c.meter.stepLen))
    exact .ite (fun _ => charged.trans (startStep_within _ l inside)) fun _ => charged

/-! ### The end of a call (R24, R156 to R158) -/

theorem closeMeter_within (he : EndsWithin endIt) (closed : Closed T s) (inside : T l) : Within T s (closeMeter endIt s l) := by
  have final : Within T s (finalStep endIt s l) := by
    unfold finalStep
    split
    · exact .refl T s
    · exact .ite (fun _ => .refl T s) fun _ => chargeUnitSeconds_within he closed inside _
  have rounding {u : State} (closed : Closed T u) : Within T u (endRounding endIt u l) := by
    unfold endRounding
    split
    · exact .refl T u
    · next c _ =>
      have settled : Within T u (u.modCall l fun c => { c with meter := { c.meter with acc := 0 } }) :=
        .of_local (Local.modCall u l _ fun _ _ => ⟨rfl, fun b =>
          ⟨b.name, b.password, b.transmit, b.batch, b.notices, by simp⟩⟩) (.modCall u l _ fun _ => rfl) inside
      have added := settled.trans (addUnits_within _ l (roundingUnits (meterTariff u).rounding c.meter.acc) inside)
      exact added.trans (evaluateCall_within he (closed.within added) inside)
  unfold closeMeter
  split
  · exact .refl T s
  · exact .ite (fun _ => final.trans (rounding (closed.within final))) fun _ => .refl T s

theorem endingWork_within (he : EndsWithin endIt) (closed : Closed T s) (inside : T l) (was : Phase) :
    Within T s (endingWork endIt s l was) := by
  unfold endingWork
  split
  · exact .of_same (withdrawLookup_keeps s l) (withdrawLookup_steady s l) rfl
  · exact .of_local (leaveQueue_local s l) (leaveQueue_steady s l) inside
  · have stopped : Within T s (stopCarriage s l) := .of_local (stopCarriage_local s l) (stopCarriage_steady s l) inside
    have metered := stopped.trans (closeMeter_within he (closed.within stopped) inside)
    exact metered.trans (.of_local (closingFlush_local _ l) (closingFlush_steady _ l) inside)
  · exact .refl T s

theorem lineStrand_within (s : State) (l : LineNo) (was : Phase) (cause : EndCause) (lost : Bool) (inside : T l) :
    Within T s (lineStrand s l was cause lost) :=
  .of_local (lineStrand_local s l was cause lost) (lineStrand_steady s l was cause lost) inside

theorem markEnded_within (s : State) (l : LineNo) (cause : EndCause) (inside : T l) : Within T s (markEnded s l cause) :=
  .of_local (markEnded_local s l cause) (markEnded_steady s l cause) inside

theorem endCallWith_within (he : EndsWithin endIt) (closed : Closed T s) (inside : T l) (cause : EndCause) (lost : Bool) :
    Within T s (endCallWith endIt s l cause lost) := by
  have charged := completeStep_within he closed inside
  simp only [endCallWith]
  split
  · exact charged
  · next c _ =>
    refine .ite (fun _ => charged) fun _ => ?_
    have marked := charged.trans (markEnded_within (completeStep endIt s l) l cause inside)
    have worked := marked.trans (endingWork_within he (closed.within marked) inside c.phase)
    exact worked.trans (lineStrand_within _ l c.phase cause lost inside)

theorem endFuel_within (fuel : Nat) : EndsWithin (endFuel fuel) := by
  induction fuel with
  | zero => exact fun T s _ _ _ _ => .refl T s
  | succ fuel ih => exact fun T s l cause closed inside => endCallWith_within ih closed inside cause false

theorem endCall_within : EndsWithin endCall := endFuel_within 49

theorem endCallLost_within (closed : Closed T s) (inside : T l) (cause : EndCause) : Within T s (endCallLost s l cause) :=
  endCallWith_within (endFuel_within 48) closed inside cause true

/-! ### Sets of lines that are closed -/

/-- A call and those of its account. -/
theorem closed_account (s : State) (l : LineNo) : Closed (fun m => m = l ∨ SameAccount s l m) s := by
  have attached {m : LineNo} {a : FrameNo × EntryNo} (h : evaluationReaches s a m = true) : attachOf s m = some a := by
    obtain ⟨c, call, -, attach⟩ := (evaluationReaches_iff s a m).1 h
    rw [attachOf, call]
    exact attach
  rintro k a (rfl | ⟨b, own, shared⟩) attach - m reach
  · exact .inr ⟨a, attach, attached reach⟩
  · obtain rfl : b = a := Option.some.inj (shared.symm.trans attach)
    exact .inr ⟨b, own, attached reach⟩

/-- No evaluation reaches the call on line `l`: its phase is not one of those, or its entry has no limit. -/
def Untouched (s : State) (l : LineNo) : Prop := ∀ a, Limited s a → evaluationReaches s a l = false

theorem Untouched.closed (h : Untouched s l) : Closed (fun m => m ≠ l) s := by
  intro k a _ _ limited m reach same
  rw [same, h a limited] at reach
  cases reach

theorem untouched_of_phase (hc : s.callOn l = some c) (phase : c.phase = .ending ∨ c.phase = .held) : Untouched s l := by
  intro a _
  rw [← Bool.not_eq_true, evaluationReaches_iff]
  rintro ⟨d, there, reach, -⟩
  obtain rfl := Option.some.inj (hc.symm.trans there)
  obtain ⟨-, running⟩ := (reachable_iff c).1 reach
  rcases phase with h | h <;> simp [h] at running

theorem Unlimited.untouched {e : Entry} (hc : s.callOn l = some c) (h : Unlimited s c a e) : Untouched s l := by
  intro b limited
  rw [← Bool.not_eq_true, evaluationReaches_iff]
  rintro ⟨d, there, -, attach⟩
  obtain rfl := Option.some.inj (hc.symm.trans there)
  obtain rfl := Option.some.inj (h.attach_eq.symm.trans attach)
  obtain ⟨e', entry, some'⟩ := limited
  obtain rfl := Option.some.inj (h.entry_eq.symm.trans entry)
  exact some' h.no_limit

end Sys2Proof.Machine
end

section
/-! SUPPORT. The ending event of any call: it carries its cause, and what ends with it. -/

namespace Sys2Proof.Machine

variable {s t u : State} {l m k : LineNo} {c d : Call} {a : FrameNo × EntryNo} {cause : EndCause} {T : LineNo → Prop} {endIt : Ender}
  {p : Call → Prop}

/-! ### A call that has just ended from CONNECTED (R24, R134, R156) -/

/-- The record as the ending event of the connected call `c` leaves it: a CLOSED falls due (R24, R172). -/
structure EndedAs (c : Call) (cause : EndCause) (d : Call) : Prop where
  number : d.number = c.number
  endCause : d.endCause = some cause
  phase : d.phase = .ending
  pend : d.pend = ⟨none, none, none⟩
  idle : d.idle = none
  attach : d.attach = c.attach
  closedDue : d.closedDue = true

/-- The call stands on line `l` as its ending event left it, and has `p`. -/
def Owing (p : Call → Prop) (t : State) (l : LineNo) (c : Call) (cause : EndCause) : Prop :=
  ∃ d, t.callOn l = some d ∧ EndedAs c cause d ∧ p d

/-- A change of a record that leaves what its ending event wrote, its attachment and the CLOSED it owes. -/
def OweKept (d d' : Call) : Prop := EndKept d d' ∧ d'.attach = d.attach ∧ d'.closedDue = d.closedDue

theorem EndedAs.kept {d' : Call} (h : EndedAs c cause d) (k : OweKept d d') : EndedAs c cause d' := by
  obtain ⟨⟨number, endCause, phase, pend, idle⟩, attach, due⟩ := k
  exact ⟨number.trans h.number, endCause.trans h.endCause, phase.trans h.phase, pend.trans h.pend, idle.trans h.idle,
    attach.trans h.attach, due.trans h.closedDue⟩

theorem Owing.modCall (h : Owing p s l c cause) {f : Call → Call} (kept : ∀ d, OweKept d (f d)) (hp : ∀ d, p d → p (f d)) :
    Owing p (s.modCall l f) l c cause := by
  obtain ⟨d, on, ended, has⟩ := h
  exact ⟨f d, by rw [State.callOn_modCall_self, on]; rfl, ended.kept (kept d), hp d has⟩

theorem Owing.of_callOn (h : Owing p s l c cause) (same : t.callOn l = s.callOn l) : Owing p t l c cause := by
  obtain ⟨d, on, rest⟩ := h
  exact ⟨d, same.trans on, rest⟩

theorem Owing.of_line (h : Owing p s l c cause) (same : t.line l = s.line l) : Owing p t l c cause :=
  h.of_callOn (congrArg Line.call same)

theorem Owing.imp {q : Call → Prop} (h : Owing p s l c cause) (hp : ∀ d, p d → q d) : Owing q s l c cause := by
  obtain ⟨d, on, ended, has⟩ := h
  exact ⟨d, on, ended, hp d has⟩

theorem Owing.carries (h : Owing p s l c cause) : CarriesCause s l c cause := by
  obtain ⟨d, on, ended, -⟩ := h
  intro e he
  obtain rfl := Option.some.inj (on.symm.trans he)
  exact ⟨ended.number, ended.endCause, .inl ended.phase, ended.pend, ended.idle⟩

theorem Owing.untouched (h : Owing p s l c cause) : Untouched s l := by
  obtain ⟨d, on, ended, -⟩ := h
  exact untouched_of_phase on (.inl ended.phase)

theorem markEnded_owing (hc : s.callOn l = some c) (phase : c.phase = .connected) (cause : EndCause) :
    Owing (fun d => d.released = false) (markEnded s l cause) l c cause := by
  rw [Owing, markEnded, State.callOn_modCall_self, hc]
  exact ⟨_, rfl, ⟨rfl, rfl, rfl, rfl, rfl, rfl, by simp [phase]⟩, rfl⟩

/-! ### What the evaluations of a closing meter leave alone -/

theorem Untouched.within (h : Untouched s l) (steady : Steady s t) (same : t.line l = s.line l) : Untouched t l := by
  intro a limited
  have before := h a (limited.of_steady steady)
  simpa only [evaluationReaches, State.callOn, same] using before

theorem evaluateCall_untouched (he : EndsWithin endIt) (h : Untouched s l) (k : LineNo) :
    (evaluateCall endIt s k).line l = s.line l := by
  unfold evaluateCall
  split
  · rfl
  · next a _ =>
    have reaches : ReachesIn (fun m => m ≠ l) s a := fun limited m reach same => by
      rw [same, h a limited] at reach
      cases reach
    exact (evaluateAllowance_within he h.closed reaches).lines l fun ne => ne rfl

theorem addUnits_eq (hc : s.callOn l = some c) (n : Nat) : ∃ t, addUnits s l n = t ∧
    t.callOn l = some { c with meter := { c.meter with charge := c.meter.charge + n } } := by
  refine ⟨_, rfl, ?_⟩
  have charged : (s.modCall l fun c => { c with meter := { c.meter with charge := c.meter.charge + n } }).callOn l =
      some { c with meter := { c.meter with charge := c.meter.charge + n } } := by
    rw [State.callOn_modCall_self, hc]
    rfl
  unfold addUnits
  rw [hc]
  dsimp only
  split
  · exact charged
  · rw [State.callOn_eq, State.line_modEntry, ← State.callOn_eq]
    exact charged

theorem Owing.addUnits (h : Owing p s l c cause) (hp : ∀ d x, p d → p { d with meter := x }) (n : Nat) :
    Owing p (addUnits s l n) l c cause := by
  obtain ⟨d, on, ended, has⟩ := h
  obtain ⟨t, eq, on'⟩ := addUnits_eq on n
  rw [eq]
  exact ⟨_, on', ended.kept ⟨⟨rfl, rfl, rfl, rfl, rfl⟩, rfl, rfl⟩, hp d _ has⟩

theorem Owing.evaluateCall (h : Owing p s l c cause) (he : EndsWithin endIt) : Owing p (evaluateCall endIt s l) l c cause :=
  h.of_line (evaluateCall_untouched he h.untouched l)

theorem Owing.chargeUnitSeconds (h : Owing p s l c cause) (he : EndsWithin endIt) (hp : ∀ d x, p d → p { d with meter := x }) (n : Nat) :
    Owing p (chargeUnitSeconds endIt s l n) l c cause := by
  unfold Machine.chargeUnitSeconds
  split
  · exact h
  · refine Owing.evaluateCall (Owing.addUnits (Owing.modCall h (fun _ => by exact ⟨⟨rfl, rfl, rfl, rfl, rfl⟩, rfl, rfl⟩) fun d => ?_) hp _) he
    exact hp d _

theorem Owing.closeMeter (h : Owing p s l c cause) (he : EndsWithin endIt) (hp : ∀ d x, p d → p { d with meter := x }) :
    Owing p (closeMeter endIt s l) l c cause := by
  have final : Owing p (finalStep endIt s l) l c cause := by
    unfold finalStep
    split
    · exact h
    · split
      · exact h
      · exact h.chargeUnitSeconds he hp _
  unfold Machine.closeMeter
  split
  · exact h
  · split
    · unfold endRounding
      split
      · exact final
      · refine Owing.evaluateCall (Owing.addUnits (Owing.modCall final (fun _ => by exact ⟨⟨rfl, rfl, rfl, rfl, rfl⟩, rfl, rfl⟩) fun d => ?_) hp _) he
        exact hp d _
    · exact h

/-! ### The closing flush (R134) -/

theorem Owing.settle_eq (h : Owing (fun d => d.released = false) s l c cause) : Machine.settle s l = s := by
  obtain ⟨d, on, -, unreleased⟩ := h
  exact settle_unreleased on unreleased

theorem Owing.idle (h : Owing (fun d => d.released = false) s l c cause) : Owing (fun d => d.released = false) (settle s l) l c cause := by
  rw [h.settle_eq]
  exact h

theorem Owing.modCarriage (h : Owing p s l c cause) (f : CarriageCounters → CarriageCounters) : Owing p (s.modCarriage l f) l c cause :=
  h.of_callOn (State.callOn_modCarriage s l l f)

theorem Owing.flushed (h : Owing (fun d => d.released = false) s l c cause) :
    Owing (fun d => d.released = false) (closingFlush s l) l c cause := by
  have sends {s : State} (h : Owing (fun d => d.released = false) s l c cause) :
      Owing (fun d => d.released = false) (sendBatch s l) l c cause := by
    unfold sendBatch
    split
    · exact h
    · split
      · exact h
      · next b _ _ =>
        have sent : Owing (fun d => d.released = false) (enqueueOrdered s (callFrame s l (.termData b.batch))) l c cause :=
          h.of_line (enqueueOrdered_line ..)
        refine Owing.idle (Owing.modCarriage (Owing.modCall sent (fun _ => ?_) fun _ h => ?_) _)
        · exact ⟨⟨rfl, rfl, rfl, rfl, rfl⟩, rfl, rfl⟩
        · exact h
  have forwards {s : State} (h : Owing (fun d => d.released = false) s l c cause) :
      Owing (fun d => d.released = false) (forwardBatch s l) l c cause := by
    unfold forwardBatch
    split
    · exact sends h
    · split
      · exact h
      · exact h.of_callOn rfl
  unfold closingFlush
  split
  · exact h
  · split
    · exact h
    · unfold batchDue
      split
      · exact h
      · split
        · exact h
        · exact forwards (h.modCall (fun _ => ⟨⟨rfl, rfl, rfl, rfl, rfl⟩, rfl, rfl⟩) fun _ h => h)

theorem endingWork_owing (he : EndsWithin endIt) (h : Owing (fun d => d.released = false) s l c cause) :
    Owing (fun d => d.released = false) (endingWork endIt s l .connected) l c cause := by
  have stopped : Owing (fun d => d.released = false) (stopCarriage s l) l c cause :=
    h.modCall (fun _ => ⟨⟨rfl, rfl, rfl, rfl, rfl⟩, rfl, rfl⟩) fun _ h => h
  exact (stopped.closeMeter he fun _ _ h => h).flushed

/-! ### The line strand of a call that owes its CLOSED (R165 to R168, R172) -/

/-- A call that owes its CLOSED is not removed before that has gone (R172). -/
theorem Owing.settle (h : Owing p s l c cause) (attached : c.attach.isSome = true) (hp : ∀ d x, p d → p { d with closedSent := x }) :
    Owing p (settle s l) l c cause := by
  obtain ⟨d, on, ended, has⟩ := h
  have here : Owing p s l c cause := ⟨d, on, ended, has⟩
  unfold Machine.settle
  rw [on]
  dsimp only
  split
  · split
    · next none =>
      rw [← ended.attach, none] at attached
      cases attached
    · rw [if_pos ended.closedDue]
      split
      · refine Owing.of_line (s := s.modCall l fun c => { c with closedSent := true }) ?_ (enqueueOrdered_line ..)
        exact here.modCall (fun _ => ⟨⟨rfl, rfl, rfl, rfl, rfl⟩, rfl, rfl⟩) fun d => hp d true
      · exact here
  · exact here

/-- Nothing more is asked of a record. -/
def anyRecord : Call → Prop := fun _ => True

theorem Owing.change (h : Owing anyRecord s l c cause) {f : Call → Call} (kept : ∀ d, OweKept d (f d)) :
    Owing anyRecord (s.modCall l f) l c cause := h.modCall kept fun _ _ => trivial

theorem Owing.placeText (h : Owing anyRecord s l c cause) (slot : Fin 24) (n : Option Nat) :
    Owing anyRecord (placeText s l slot n) l c cause := by
  obtain ⟨d, on, ended, -⟩ := h
  obtain ⟨buf, text⟩ := callOn_placeText on slot n
  exact ⟨_, text, ended.kept ⟨⟨rfl, rfl, rfl, rfl, rfl⟩, rfl, rfl⟩, trivial⟩

theorem Owing.dropLine (h : Owing anyRecord s l c cause) (attached : c.attach.isSome = true) : Owing anyRecord (dropLine s l) l c cause := by
  have bare : Owing anyRecord (dropBare s l) l c cause := h.of_callOn (line_dropBare s l).2
  simp only [Machine.dropLine]
  split
  · split
    · refine Owing.settle (Owing.change (Owing.change bare fun _ => ?_) fun _ => ?_) attached fun _ _ _ => trivial
      · exact ⟨⟨rfl, rfl, rfl, rfl, rfl⟩, rfl, rfl⟩
      · exact ⟨⟨rfl, rfl, rfl, rfl, rfl⟩, rfl, rfl⟩
    · exact bare
  · exact bare

theorem Owing.drainOver (h : Owing anyRecord s l c cause) (attached : c.attach.isSome = true) : Owing anyRecord (drainOver s l) l c cause := by
  unfold Machine.drainOver
  split
  · exact h
  · split
    · refine Owing.settle (Owing.change h fun _ => ?_) attached fun _ _ _ => trivial
      exact ⟨⟨rfl, rfl, rfl, rfl, rfl⟩, rfl, rfl⟩
    · exact h.dropLine attached

theorem Owing.drainCheck (h : Owing anyRecord s l c cause) (attached : c.attach.isSome = true) : Owing anyRecord (drainCheck s l) l c cause := by
  have goodbye : Owing anyRecord (placeGoodbye s l) l c cause := by
    unfold placeGoodbye
    split
    · exact h
    · split
      · refine Owing.placeText (Owing.change h fun _ => ?_) 14 none
        exact ⟨⟨rfl, rfl, rfl, rfl, rfl⟩, rfl, rfl⟩
      · exact h
  unfold Machine.drainCheck
  split
  · exact h
  · split
    · dsimp only
      split
      · exact goodbye
      · split
        · exact goodbye.drainOver attached
        · exact goodbye
    · exact h

theorem Owing.closingTexts (h : Owing anyRecord s l c cause) (k : EndCause) : Owing anyRecord (closingTexts s l k) l c cause := by
  unfold Machine.closingTexts
  split
  · exact (h.placeText _ none).placeText 14 none
  · exact h.placeText 14 none

theorem Owing.lineStrand (h : Owing anyRecord s l c cause) (attached : c.attach.isSome = true) (was : Phase) (k : EndCause) (lost : Bool) :
    Owing anyRecord (lineStrand s l was k lost) l c cause := by
  have discarded (residue : Bool) : Owing anyRecord (discardOutput s l residue) l c cause :=
    h.change fun _ => ⟨⟨rfl, rfl, rfl, rfl, rfl⟩, rfl, rfl⟩
  have draining {u : State} (hu : Owing anyRecord u l c cause) : Owing anyRecord (startDrain u l) l c cause :=
    hu.change fun _ => ⟨⟨rfl, rfl, rfl, rfl, rfl⟩, rfl, rfl⟩
  simp only [Machine.lineStrand]
  split
  · split
    · exact (discarded _).dropLine attached
    · split
      · refine Owing.drainOver (Owing.change h fun _ => ?_) attached
        exact ⟨⟨rfl, rfl, rfl, rfl, rfl⟩, rfl, rfl⟩
      · split
        · refine Owing.drainCheck (Owing.change (draining h) fun _ => ?_) attached
          exact ⟨⟨rfl, rfl, rfl, rfl, rfl⟩, rfl, rfl⟩
        · split
          · refine Owing.drainCheck (draining (Owing.closingTexts (Owing.change h fun _ => ?_) k)) attached
            exact ⟨⟨rfl, rfl, rfl, rfl, rfl⟩, rfl, rfl⟩
          · exact (draining (h.closingTexts k)).drainCheck attached
  · refine Owing.settle (Owing.change (discarded _) fun _ => ?_) attached fun _ _ _ => trivial
    exact ⟨⟨rfl, rfl, rfl, rfl, rfl⟩, rfl, rfl⟩
  · exact (discarded _).dropLine attached

end Sys2Proof.Machine
end

section
/-! SUPPORT. The ending event as the commands meet it. -/

namespace Sys2Proof.Machine

variable {s t u : State} {l m k : LineNo} {c d : Call} {a : FrameNo × EntryNo} {cause : EndCause} {T : LineNo → Prop} {endIt : Ender}
  {p : Call → Prop}

/-! ### The ending event carries its cause (R24) -/

theorem endCallWith_eq (hc : s.callOn l = some c) (running : c.endCause = none) (notDue : stepDue s l = false) (cause : EndCause) (lost : Bool) :
    endCallWith endIt s l cause lost = lineStrand (endingWork endIt (markEnded s l cause) l c.phase) l c.phase cause lost := by
  simp [endCallWith, completeStep_not_due notDue, hc, running]

/-- A host close alone can leave a line UP, and then its call owes a CLOSED (R168). -/
theorem endCallWith_carries (he : EndsWithin endIt) (hc : s.callOn l = some c) (running : c.endCause = none) (notDue : stepDue s l = false)
    (owes : cause ≠ .hostClose ∨ (c.phase = .connected ∧ c.attach.isSome = true)) (lost : Bool) :
    CarriesCause (endCallWith endIt s l cause lost) l c cause := by
  rw [endCallWith_eq hc running notDue]
  by_cases connected : c.phase = .connected
  · have worked := endingWork_owing he (markEnded_owing hc connected cause)
    rw [connected]
    rcases owes with other | ⟨-, attached⟩
    · exact worked.carries.lineStrand other _ _
    · exact ((worked.imp (q := anyRecord) fun _ _ => trivial).lineStrand attached _ cause lost).carries
  · exact ((markEnded_carriesCause hc cause).endingWork connected endIt).lineStrand (owes.resolve_right fun h => connected h.1) _ _

/-- The call `c` on line `l` carries the cause in `t`, and no line but those of its account has changed since `s` (R24). -/
def EndedAlone (s t : State) (l : LineNo) (c : Call) (cause : EndCause) : Prop :=
  CarriesCause t l c cause ∧ ∀ m, m ≠ l → ¬ SameAccount s l m → t.line m = s.line m

/-- An ending event reaches the call, and the calls of its account alone. -/
theorem endCallWith_alone (he : EndsWithin endIt) {lost : Bool} (others : ∀ m, m ≠ l → u.line m = s.line m) (hd : u.callOn l = some d)
    (number : d.number = c.number) (attach : attachOf u l = attachOf s l) (running : d.endCause = none) (notDue : stepDue u l = false)
    (owes : cause ≠ .hostClose ∨ (d.phase = .connected ∧ d.attach.isSome = true)) :
    EndedAlone s (endCallWith endIt u l cause lost) l c cause := by
  have same (m : LineNo) : attachOf u m = attachOf s m := by
    by_cases own : m = l
    · rw [own, attach]
    · simp only [attachOf, State.callOn, others m own]
  have reach := endCallWith_within he (closed_account u l) (.inl rfl) cause lost
  refine ⟨fun e on => number ▸ endCallWith_carries he hd running notDue owes lost e on, fun m ne apart => ?_⟩
  refine (reach.lines m fun inside => ?_).trans (others m ne)
  rcases inside with own | ⟨a, mine, theirs⟩
  · exact ne own
  · exact apart ⟨a, (same l).symm.trans mine, (same m).symm.trans theirs⟩

theorem endCallWith_endsCall {cmd : Instr} (he : EndsWithin endIt) {lost : Bool} (run : Completes cmd s (endCallWith endIt u l cause lost))
    (others : ∀ m, m ≠ l → u.line m = s.line m) (hd : u.callOn l = some d) (number : d.number = c.number) (attach : attachOf u l = attachOf s l)
    (running : d.endCause = none) (notDue : stepDue u l = false)
    (owes : cause ≠ .hostClose ∨ (d.phase = .connected ∧ d.attach.isSome = true)) : EndsCall cmd s l c cause :=
  ⟨_, run, endCallWith_alone he others hd number attach running notDue owes⟩

theorem endCall_endsCall {cmd : Instr} (run : Completes cmd s (endCall u l cause)) (others : ∀ m, m ≠ l → u.line m = s.line m)
    (hd : u.callOn l = some d) (number : d.number = c.number) (attach : attachOf u l = attachOf s l) (running : d.endCause = none)
    (notDue : stepDue u l = false) (owes : cause ≠ .hostClose ∨ (d.phase = .connected ∧ d.attach.isSome = true)) :
    EndsCall cmd s l c cause :=
  endCallWith_endsCall (endFuel_within 48) (lost := false) run others hd number attach running notDue owes

/-- The ending event in a state whose lines' calls are those of `s`. -/
theorem endCall_endsCall_same {cmd : Instr} (run : Completes cmd s (endCall u l cause)) (others : ∀ m, m ≠ l → u.line m = s.line m)
    (hc : s.callOn l = some c) (call : u.callOn l = s.callOn l) (running : c.endCause = none) (notDue : stepDue s l = false)
    (owes : cause ≠ .hostClose ∨ (c.phase = .connected ∧ c.attach.isSome = true)) : EndsCall cmd s l c cause :=
  endCall_endsCall run others (call.trans hc) rfl (by rw [attachOf, call, attachOf]) running (by simpa only [stepDue, call] using notDue) owes

/-! ### The line of a call that ends -/

/-- A line but for its call record and its carriage counters. -/
def Line.bare (x : Line) : Line := { x with call := none, car := CarriageCounters.zero }

/-- Line `l` is the same but for its call record and its carriage counters. -/
def SameLine (s t : State) (l : LineNo) : Prop := (t.line l).bare = (s.line l).bare

theorem SameLine.trans (a : SameLine s t l) (b : SameLine t u l) : SameLine s u l := Eq.trans b a

theorem SameLine.of_line (h : t.line l = s.line l) : SameLine s t l := congrArg Line.bare h

theorem SameLine.modCall (s : State) (l : LineNo) (f : Call → Call) : SameLine s (s.modCall l f) l := by
  rw [SameLine, State.line_modCall_self]
  rfl

theorem SameLine.modCarriage (s : State) (l : LineNo) (f : CarriageCounters → CarriageCounters) : SameLine s (s.modCarriage l f) l := by
  rw [SameLine, State.line_modCarriage_self]
  rfl

theorem SameLine.addUnits (s : State) (l : LineNo) (n : Nat) : SameLine s (addUnits s l n) l := by
  unfold Machine.addUnits
  split
  · exact rfl
  · dsimp only
    split
    · exact .modCall s l _
    · refine SameLine.trans ?_ (.of_line (State.line_modEntry _ _ _ l))
      exact .modCall s l _

theorem SameLine.evaluateCall (he : EndsWithin endIt) (h : Untouched s l) : SameLine s (evaluateCall endIt s l) l :=
  .of_line (evaluateCall_untouched he h l)

theorem SameLine.chargeUnitSeconds (he : EndsWithin endIt) (h : Owing p s l c cause) (hp : ∀ d x, p d → p { d with meter := x }) (n : Nat) :
    SameLine s (chargeUnitSeconds endIt s l n) l := by
  unfold Machine.chargeUnitSeconds
  split
  · exact rfl
  · next e _ =>
    let u := s.modCall l fun d => { d with meter := { d.meter with acc := (e.meter.acc + n) % 3600 } }
    have counted : Owing p u l c cause := h.modCall (fun _ => ⟨⟨rfl, rfl, rfl, rfl, rfl⟩, rfl, rfl⟩) fun d has => hp d _ has
    have first : SameLine s u l := .modCall s l _
    have second : SameLine u (Machine.addUnits u l ((e.meter.acc + n) / 3600)) l := .addUnits u l _
    exact (first.trans second).trans (.evaluateCall he (counted.addUnits hp _).untouched)

theorem SameLine.closeMeter (he : EndsWithin endIt) (h : Owing p s l c cause) (hp : ∀ d x, p d → p { d with meter := x }) :
    SameLine s (closeMeter endIt s l) l := by
  have final : SameLine s (finalStep endIt s l) l ∧ Owing p (finalStep endIt s l) l c cause := by
    unfold finalStep
    split
    · exact ⟨rfl, h⟩
    · split
      · exact ⟨rfl, h⟩
      · exact ⟨.chargeUnitSeconds he h hp _, h.chargeUnitSeconds he hp _⟩
  unfold Machine.closeMeter
  split
  · exact rfl
  · split
    · unfold endRounding
      split
      · exact final.1
      · next e _ =>
        let v := finalStep endIt s l
        let u := v.modCall l fun d => { d with meter := { d.meter with acc := 0 } }
        let n := roundingUnits (meterTariff v).rounding e.meter.acc
        have settled : Owing p u l c cause := final.2.modCall (fun _ => ⟨⟨rfl, rfl, rfl, rfl, rfl⟩, rfl, rfl⟩) fun d has => hp d _ has
        have first : SameLine v u l := .modCall v l _
        have second : SameLine u (Machine.addUnits u l n) l := .addUnits u l n
        exact ((final.1.trans first).trans second).trans (.evaluateCall he (settled.addUnits hp n).untouched)
    · exact rfl

theorem SameLine.flushed (h : Owing (fun d => d.released = false) s l c cause) : SameLine s (closingFlush s l) l := by
  have sends {s : State} (h : Owing (fun d => d.released = false) s l c cause) : SameLine s (sendBatch s l) l := by
    unfold sendBatch
    split
    · exact rfl
    · split
      · exact rfl
      · next b _ _ =>
        let u := enqueueOrdered s (callFrame s l (.termData b.batch))
        let emptied := fun c : Call => { c with
          batch := [], forwardDue := false, batchGap := none, terminalStopped := false
          pendingFlow := if c.terminalStopped then dueFlow c.pendingFlow .xon else c.pendingFlow }
        have queued : Owing (fun d => d.released = false) u l c cause := h.of_line (enqueueOrdered_line ..)
        have left : Owing (fun d => d.released = false) (u.modCall l emptied) l c cause :=
          queued.modCall (fun _ => ⟨⟨rfl, rfl, rfl, rfl, rfl⟩, rfl, rfl⟩) fun _ h => h
        refine SameLine.trans ?_ (.of_line (congrArg (State.line · l) (left.modCarriage _).settle_eq))
        refine SameLine.trans ?_ (.modCarriage (u.modCall l emptied) l _)
        exact SameLine.trans (.of_line (enqueueOrdered_line ..)) (.modCall u l emptied)
  have forwards {s : State} (h : Owing (fun d => d.released = false) s l c cause) : SameLine s (forwardBatch s l) l := by
    unfold forwardBatch
    split
    · exact sends h
    · split
      · exact rfl
      · exact rfl
  unfold closingFlush
  split
  · exact rfl
  · split
    · exact rfl
    · unfold batchDue
      split
      · exact rfl
      · split
        · exact rfl
        · refine SameLine.trans ?_ (forwards (h.modCall (fun _ => ?_) fun _ h => ?_))
          · exact .modCall s l _
          · exact ⟨⟨rfl, rfl, rfl, rfl, rfl⟩, rfl, rfl⟩
          · exact h

/-- The work of an ending event leaves the line but for its call record and its carriage counters (R24). -/
theorem endingWork_sameLine (he : EndsWithin endIt) (hc : s.callOn l = some c) (cause : EndCause) :
    SameLine s (endingWork endIt (markEnded s l cause) l c.phase) l := by
  have marked : SameLine s (markEnded s l cause) l := .modCall s l _
  refine marked.trans ?_
  by_cases connected : c.phase = .connected
  · have stopped : Owing (fun d => d.released = false) (stopCarriage (markEnded s l cause) l) l c cause :=
      (markEnded_owing hc connected cause).modCall (fun _ => ⟨⟨rfl, rfl, rfl, rfl, rfl⟩, rfl, rfl⟩) fun _ h => h
    rw [connected]
    refine SameLine.trans ?_ (.flushed (stopped.closeMeter he fun _ _ h => h))
    refine SameLine.trans ?_ (.closeMeter he stopped fun _ _ h => h)
    exact .modCall _ l _
  · unfold endingWork
    split
    · exact rfl
    · exact SameLine.modCall _ l _
    · exact absurd ‹_› connected
    · exact rfl

/-! ### A line that drops (R50) -/

theorem removeCall_guarded (drop : (s.line l).st = .drop) (guard : (s.line l).dropGuard ≠ none) : SameLine s (removeCall s l) l := by
  unfold removeCall
  split
  · exact rfl
  · next c _ =>
    dsimp only
    generalize hu : haltIfDone _ = u
    have line : u.line l = { s.line l with call := none } := by
      rw [← hu, haltIfDone_line]
      exact State.line_modLine_self s l fun x => { x with call := none }
    rw [line, drop]
    dsimp only
    rw [if_neg guard, SameLine, line]
    rfl

theorem settle_guarded (drop : (s.line l).st = .drop) (guard : (s.line l).dropGuard ≠ none) : SameLine s (settle s l) l := by
  have places : SameLine s (placeRecord s l) l := by
    unfold placeRecord
    split
    · exact rfl
    · split
      · exact rfl
      · dsimp only
        generalize hu : recordPins _ _ = u
        have line : u.line l = s.line l := by
          rw [← hu, recordPins, State.line_modEntry]
          split
          · rw [raiseFault_line, enqueueOrdered_line]
            rfl
          · rw [enqueueOrdered_line]
            rfl
        exact SameLine.trans (.of_line line) (removeCall_guarded (line ▸ drop) (line ▸ guard))
  have holds : SameLine s (holdCall s l) l := by
    unfold holdCall
    dsimp only
    split
    · next up =>
      have same : ((s.modCall l fun c => { c with phase := .held }).line l).st = .up := up
      rw [State.line_modCall_self] at same
      exact absurd (drop.symm.trans same) (by decide)
    · exact SameLine.modCall s l _
  unfold settle
  split
  · exact rfl
  · split
    · split
      · exact removeCall_guarded drop guard
      · split
        · split
          · refine SameLine.trans ?_ (.of_line (enqueueOrdered_line ..))
            exact .modCall s l _
          · exact rfl
        · split
          · unfold closeOut
            split
            · exact places
            · exact holds
          · exact rfl
    · exact rfl

/-- A line that is dropped is in DROP, with its guard, whatever becomes of its call (R50). -/
theorem dropLine_sameLine (s : State) (l : LineNo) : SameLine (dropBare s l) (dropLine s l) l := by
  have drop : ((dropBare s l).line l).st = .drop := (line_dropBare s l).1
  have guard : ((dropBare s l).line l).dropGuard ≠ none := by simp [dropBare]
  simp only [dropLine]
  split
  · next c _ =>
    split
    · generalize hu : State.modCall _ _ _ = u
      have same : SameLine (dropBare s l) u l := by
        rw [← hu]
        exact (SameLine.modCall _ l _).trans (.modCall _ l _)
      refine same.trans (settle_guarded ?_ ?_)
      · exact (congrArg Line.st same).trans drop
      · exact fun none => guard ((congrArg Line.dropGuard same).symm.trans none)
    · exact rfl
  · exact rfl

end Sys2Proof.Machine
end

section
/-! SUPPORT. Speed measurement, the expiries that end a call, and the loss and return of carrier. -/

namespace Sys2Proof.Machine

variable {s t u : State} {l m k : LineNo} {x y : Line} {c d : Call} {cause : EndCause} {endIt : Ender}

/-! ### Speed measurement (R38 to R40) -/

/-- The line after a failed attempt (R40). -/
def failedOnce (y : Line) : Line :=
  { y with attempts := y.attempts + 1, ctr := { y.ctr with autobaudFailures := bump y.ctr.autobaudFailures } }

theorem failAttempt_setLine (s : State) (l : LineNo) (y : Line) :
    failAttempt (s.setLine l y) l =
      let t := s.setLine l (failedOnce y)
      if 2 ≤ y.attempts then endCall t l .noResponse else t := by
  unfold failAttempt
  simp only [State.modLine_eq, State.modCounters_setLine, State.line_setLine_self, State.setLine_setLine]
  by_cases third : 2 ≤ y.attempts
  · exact (if_pos (Nat.succ_le_succ third)).trans (if_pos third).symm
  · exact (if_neg fun h => third (Nat.le_of_succ_le_succ h)).trans (if_neg third).symm

/-- The line once a speed is accepted (R40). -/
def atSpeed (y : Line) (d : Call) (v : Speed) : Line :=
  { y with st := .up, speedWait := none, call := some { d with speed := some v } }

theorem acceptSpeed_setLine (hy : y.call = some d) (v : Speed) :
    acceptSpeed (s.setLine l y) l v = startDialogue (s.setLine l (atSpeed y d v)) l := by
  unfold acceptSpeed
  simp only [State.modLine_eq, State.line_setLine_self, State.setLine_setLine]
  rw [State.modCall_setLine, show Option.map _ y.call = some { d with speed := some v } by rw [hy]; rfl]
  rfl

/-- A third failed attempt ends the call (R40). -/
theorem thirdAttempt_endsCall {cmd : Instr} (hc : s.callOn l = some c) (running : c.endCause = none) (notDue : stepDue s l = false)
    (same : y.call = some c) (run : Completes cmd s (endCall (s.setLine l (failedOnce y)) l .noResponse)) :
    EndsCall cmd s l c .noResponse := by
  refine endCall_endsCall_same run (fun m ne => State.line_setLine_ne s _ ne) hc ?_ running notDue (.inl (by decide))
  rw [State.callOn_eq, State.line_setLine_self, hc]
  exact same

/-- The line of which a width was taken (R38). -/
def measuredWidth (x : Line) (width : Nat) : Line := { x with widthCounter := width, rxLow := false, lastWidth := width }

/-- The line of which the width counter overflowed (R38). -/
def overflowedWidth (x : Line) : Line := { x with widthCounter := 4095, lastWidth := 4096, rxLow := true, rxWait := true }

section
variable {w : Fin 4096} {v : Speed} (st : (s.line l).st = .speed) (listens : (s.line l).rxWait = false) (loud : 8 ≤ w.val)
include st listens

theorem overflow_fails : Completes (.widthCounterOverflow l) s (failAttempt (s.setLine l (overflowedWidth (s.line l))) l) :=
  congrArg Host.Outcome.next (if_pos ⟨st, listens⟩)

include loud

theorem width_taken : Completes (.widthMeasured l w) s
    (takeWidth (s.setLine l { s.line l with widthCounter := w.val, rxLow := false }) l w.val) :=
  congrArg Host.Outcome.next ((if_pos ⟨st, listens⟩).trans (if_neg (Nat.not_lt.2 loud)))

theorem width_fails (fails : classifyWidth w.val = none) :
    Completes (.widthMeasured l w) s (failAttempt (s.setLine l (measuredWidth (s.line l) w.val)) l) := by
  have taken := width_taken st listens loud
  unfold takeWidth at taken
  simp only [State.modLine_eq, State.line_setLine_self, State.setLine_setLine, fails] at taken
  exact taken

theorem width_accepted (accepts : classifyWidth w.val = some v) :
    Completes (.widthMeasured l w) s (acceptSpeed (s.setLine l (measuredWidth (s.line l) w.val)) l v) := by
  have taken := width_taken st listens loud
  unfold takeWidth at taken
  simp only [State.modLine_eq, State.line_setLine_self, State.setLine_setLine, accepts] at taken
  exact taken

end

/-- Settles O23, by the width and the attempts before it. -/
theorem speedMeasurementAcceptsOrCounts : Obligations.SpeedMeasurementAcceptsOrCounts := by
  intro s l w c hc x failed
  refine ⟨fun idle => ?idle, fun st listens => ⟨fun noise => ?noise, fun v loud accepts => ?accepted, fun loud fails few => ?failed,
    fun few => ?overflow, fun third running notDue => ⟨fun loud fails => ?last, ?lastOverflow⟩⟩, fun still => ?rise⟩
  case idle =>
    have away : ¬ ((s.line l).st = .speed ∧ (s.line l).rxWait = false) :=
      fun ⟨st, listens⟩ => idle.elim (· st) fun wait => by simp [x, listens] at wait
    exact ⟨congrArg Host.Outcome.next (if_neg away), congrArg Host.Outcome.next (if_neg away)⟩
  case rise =>
    have away : ¬ ((s.line l).st = .up ∧ (s.line l).zeroHeld = true) := fun ⟨up, held⟩ => still.elim (· up) fun clear => by simp [x, held] at clear
    exact congrArg Host.Outcome.next (if_neg away)
  case noise => exact congrArg Host.Outcome.next ((if_pos ⟨st, listens⟩).trans (if_pos noise))
  case overflow =>
    have run := overflow_fails st listens
    rw [failAttempt_setLine] at run
    exact run.trans (congrArg Host.Outcome.next (if_neg (Nat.not_le.2 few)))
  case failed =>
    have run := width_fails st listens loud fails
    rw [failAttempt_setLine] at run
    exact run.trans (congrArg Host.Outcome.next (if_neg (Nat.not_le.2 few)))
  case lastOverflow =>
    have run := overflow_fails st listens
    rw [failAttempt_setLine] at run
    exact thirdAttempt_endsCall (y := overflowedWidth x) hc running notDue hc (run.trans (congrArg Host.Outcome.next (if_pos third)))
  case last =>
    have run := width_fails st listens loud fails
    rw [failAttempt_setLine] at run
    exact thirdAttempt_endsCall (y := measuredWidth x w.val) hc running notDue hc (run.trans (congrArg Host.Outcome.next (if_pos third)))
  case accepted =>
    have run := width_accepted st listens loud accepts
    rw [acceptSpeed_setLine (y := measuredWidth x w.val) (d := c) hc] at run
    have line : (s.setLine l (atSpeed (measuredWidth x w.val) c v)).line l = atSpeed (measuredWidth x w.val) c v := State.line_setLine_self s l _
    obtain ⟨buf, drops, entered⟩ := startDialogue_placed (congrArg Line.call line)
    have after := line_placedFor (s.setLine l (atSpeed (measuredWidth x w.val) c v)) l (named s { c with speed := some v }) buf drops
    rw [line] at after
    refine ⟨_, _, run.trans (congrArg Host.Outcome.next entered), congrArg Line.call after, rfl, rfl, rfl, rfl, rfl, rfl, rfl, rfl,
      (congrArg Line.st after :), (congrArg Line.speedWait after :), (congrArg Line.lastWidth after :), (congrArg Line.attempts after :),
      (congrArg Line.ctr after :), fun m ne => ?_, rfl, rfl, rfl, rfl, rfl, rfl⟩
    exact (State.line_setLine_ne _ _ ne).trans (State.line_setLine_ne _ _ ne)

/-! ### The line of a call that loses its carrier (R49, R165) -/

theorem SameLine.dropBare (h : SameLine s t l) : SameLine (dropBare s l) (dropBare t l) l := by
  have bare (u : State) : ((Machine.dropBare u l).line l).bare = droppedLine (u.line l).bare := by
    rw [dropBare_eq, State.line_setLine_self]
    rfl
  rw [SameLine, bare, bare, show (t.line l).bare = (s.line l).bare from h]

/-- The strand of a call whose carrier is gone drops the line (R165). -/
theorem lineStrand_drops (st : (s.line l).st ≠ .drop) {was : Phase} {lost : Bool} (gone : (s.line l).st = .up → lost = true) :
    lineStrand s l was cause lost = dropLine (discardOutput s l (decide (was = .connected))) l := by
  unfold lineStrand
  dsimp only
  split
  · next up => rw [if_pos (gone up)]
  · next drop => exact absurd drop st
  · rfl

/-- A call that ends without its carrier leaves its line dropped (R49, R50). -/
theorem endCallWith_drops (he : EndsWithin endIt) (hc : s.callOn l = some c) (running : c.endCause = none) (notDue : stepDue s l = false)
    (st : (s.line l).st ≠ .drop) {lost : Bool} (gone : (s.line l).st = .up → lost = true) :
    SameLine (dropBare s l) (endCallWith endIt s l cause lost) l := by
  rw [endCallWith_eq hc running notDue]
  have worked := endingWork_sameLine he hc cause
  have same : ((endingWork endIt (markEnded s l cause) l c.phase).line l).st = (s.line l).st := (congrArg Line.st worked :)
  rw [lineStrand_drops (same ▸ st) (same ▸ gone)]
  refine SameLine.trans ?_ (dropLine_sameLine _ l)
  refine SameLine.dropBare (worked.trans ?_)
  exact .modCall _ l _

theorem dropped_st (h : SameLine (dropBare s l) t l) : (t.line l).st = .drop :=
  (congrArg Line.st h).trans (line_dropBare s l).1

/-! ### The expiries that end a call (R26, R28, R40, R48, R66, R104) -/

/-- An event that is the ending event of the call, in a state that differs from the one before in the line's own fields at most. -/
theorem ends_endsCall {cmd : Instr} (hc : s.callOn l = some c) (running : c.endCause = none) (notDue : stepDue s l = false) (hostless : cause ≠ .hostClose)
    (run : Completes cmd s (endCall s l cause)) : EndsCall cmd s l c cause :=
  endCall_endsCall_same run (fun _ _ => rfl) hc rfl running notDue (.inl hostless)

theorem ite_still {p : Prop} [Decidable p] (off : ¬ p) : (.next (if p then t else s) : Host.Outcome State Fault Refusal) = .next s :=
  congrArg Host.Outcome.next (if_neg off)

theorem isDue_of (timer : Option Nat) (due : timer = some 0) : isDue timer = true := (isDue_iff timer).2 due

theorem fieldTimerExpiry_eq (hc : s.callOn l = some c) : exec (.fieldTimerExpiry l) s =
    .next (if (c.phase = .name ∨ c.phase = .password) ∧ isDue c.fieldTimer = true then endCall s l .noResponse else s) := by
  simp [exec, execFieldTimerExpiry, hc]

theorem queueWaitExpiry_eq (hc : s.callOn l = some c) : exec (.queueWaitExpiry l) s =
    .next (if c.phase = .queued ∧ isDue c.queueWait = true then
      endCall { s with adm := { s.adm with queueTimeouts := bump s.adm.queueTimeouts } } l .queueTimeout else s) := by
  simp [exec, execQueueWaitExpiry, hc]

theorem idleTimerExpiry_eq (hc : s.callOn l = some c) : exec (.idleTimerExpiry l) s =
    .next (if c.phase = .connected ∧ (s.line l).st = .up ∧ isDue c.idle = true then endCall s l .idle else s) := by
  simp [exec, execIdleTimerExpiry, hc]

/-- The phases in which a deadline ends the call (R26). -/
abbrev Runs (c : Call) : Prop := c.phase = .queued ∨ c.phase = .opening ∨ c.phase = .connected

theorem deadlineExpiry_ends (hc : s.callOn l = some c) (due : dueCause c.pend = some cause) (runs : Runs c) :
    Completes (.deadlineExpiry l) s (endCall s l cause) := by
  rcases runs with phase | phase | phase <;> simp [Completes, exec, execDeadlineExpiry, hc, due, phase]

theorem deadlineExpiry_still (hc : s.callOn l = some c) (off : ¬ Runs c ∨ dueCause c.pend = none) : Completes (.deadlineExpiry l) s s := by
  unfold Completes
  simp only [exec, execDeadlineExpiry, hc]
  rcases off with off | none
  · split
    · rfl
    · split
      · exact absurd (.inl ‹_›) off
      · exact absurd (.inr (.inl ‹_›)) off
      · exact absurd (.inr (.inr ‹_›)) off
      · rfl
      · rfl
      · rfl
      · rfl
      · rfl
      · rfl
  · rw [none]

/-- A queue wait that runs out takes the line off its queue and counts a timeout (R104). -/
theorem queueTimeout_adm (hc : s.callOn l = some c) (running : c.endCause = none) (phase : c.phase = .queued) (notDue : stepDue s l = false) :
    (endCall s l .queueTimeout).adm =
      { s.adm with queues := Vector.ofFn fun k => s.adm.queues[k].filter fun m => decide (m ≠ l) } := by
  rw [endCall_eq hc running notDue, lineStrand_adm, phase]
  simp [endingWork, leaveQueue, markEnded]

/-- Settles O24, by the timer that runs out. -/
theorem expiredTimersEndTheCall : Obligations.ExpiredTimersEndTheCall := by
  intro s l c hc running notDue x runs
  have ends {cmd : Instr} {cause : EndCause} (hostless : cause ≠ .hostClose) (run : Completes cmd s (endCall s l cause)) :=
    ends_endsCall hc running notDue hostless run
  refine ⟨fun st due => ?speed, fun off => ?noSpeed, fun st due => ?holdover, fun off => ?noHoldover, fun phase due => ?field, fun off => ?noField,
    fun phase due => ?queue, fun off => ?noQueue, fun phase st due => ?idle, fun off => ?noIdle, fun runs due => ?allowance,
    fun runs allowance due => ?window, fun runs allowance window due => ?hours, fun off => ?noDeadline⟩
  case speed => exact ends (by decide) (congrArg Host.Outcome.next (if_pos ⟨st, isDue_of _ due⟩))
  case noSpeed => exact ite_still fun ⟨st, due⟩ => off.elim (· st) (· ((isDue_iff _).1 due))
  case noHoldover => exact ite_still fun ⟨st, due⟩ => off.elim (· st) (· ((isDue_iff _).1 due))
  case holdover =>
    let u := s.modCounters l fun k => { k with fadeExpiries := bump k.fadeExpiries }
    have run : Completes (.holdoverExpiry l) s (endCall u l .hangup) := congrArg Host.Outcome.next (if_pos ⟨st, isDue_of _ due⟩)
    have call : u.callOn l = s.callOn l := State.callOn_modCounters s l l _
    have line : u.line l = { s.line l with ctr := { (s.line l).ctr with fadeExpiries := bump (s.line l).ctr.fadeExpiries } } :=
      State.line_modCounters_self s l _
    have dropped : SameLine (dropBare u l) (endCall u l .hangup) l := by
      refine endCallWith_drops (endFuel_within 48) (call.trans hc) running ?_ ?_ ?_
      · simpa only [stepDue, call] using notDue
      · rw [line]
        exact fun drop => nomatch st.symm.trans drop
      · rw [line]
        exact fun up => nomatch st.symm.trans up
    refine ⟨endCall_endsCall_same run (fun m ne => State.line_modCounters_ne s _ ne) hc call running notDue (.inl (by decide)), _, run, dropped_st dropped, ?_⟩
    have counted := congrArg (fun x : Line => x.ctr.fadeExpiries) (show (Line.bare _ = _) from dropped)
    rw [dropBare_eq, State.line_setLine_self, line] at counted
    exact counted
  case field => exact ends (by decide) ((fieldTimerExpiry_eq hc).trans (congrArg Host.Outcome.next (if_pos ⟨phase, isDue_of _ due⟩)))
  case noField =>
    refine (fieldTimerExpiry_eq hc).trans (ite_still fun ⟨phase, due⟩ => ?_)
    exact off.elim (fun away => phase.elim away.1 away.2) (· ((isDue_iff _).1 due))
  case queue =>
    let u : State := { s with adm := { s.adm with queueTimeouts := bump s.adm.queueTimeouts } }
    have run : Completes (.queueWaitExpiry l) s (endCall u l .queueTimeout) :=
      (queueWaitExpiry_eq hc).trans (congrArg Host.Outcome.next (if_pos ⟨phase, isDue_of _ due⟩))
    have adm := queueTimeout_adm (s := u) hc running phase notDue
    refine ⟨endCall_endsCall_same run (fun _ _ => rfl) hc rfl running notDue (.inl (by decide)), _, run, by rw [adm]; rfl, fun k => ?_⟩
    rw [adm]
    simp [u]
  case noQueue => exact (queueWaitExpiry_eq hc).trans (ite_still fun ⟨phase, due⟩ => off.elim (· phase) (· ((isDue_iff _).1 due)))
  case idle => exact ends (by decide) ((idleTimerExpiry_eq hc).trans (congrArg Host.Outcome.next (if_pos ⟨phase, st, isDue_of _ due⟩)))
  case noIdle =>
    refine (idleTimerExpiry_eq hc).trans (ite_still fun ⟨phase, st, due⟩ => ?_)
    exact off.elim (· phase) fun off => off.elim (· st) (· ((isDue_iff _).1 due))
  case allowance => exact ends (by decide) (deadlineExpiry_ends hc (by simp [dueCause, isDue, due]) runs)
  case window => exact ends (by decide) (deadlineExpiry_ends hc (by simp [dueCause, isDue, due, allowance]) runs)
  case hours => exact ends (by decide) (deadlineExpiry_ends hc (by simp [dueCause, isDue, due, allowance, window]) runs)
  case noDeadline => exact deadlineExpiry_still hc (off.imp id fun ⟨allowance, window, hours⟩ => by simp [dueCause, isDue, allowance, window, hours])

end Sys2Proof.Machine
end

section
/-! SUPPORT. The loss of carrier, and its return (R46 to R49, R155). -/

namespace Sys2Proof.Machine

variable {s t u : State} {l m : LineNo} {x : Line} {c d : Call} {p : Call → Prop}

/-! ### What a dropped call's record still carries (R167, R172) -/

/-- The call record on line `l`, if there is one, is as `p` says. -/
def Record (p : Call → Prop) (s : State) (l : LineNo) : Prop := ∀ d, s.callOn l = some d → p d

theorem Record.of_removed (h : s.callOn l = none) : Record p s l := fun _ on => nomatch h.symm.trans on

theorem Record.of_callOn (h : Record p s l) (same : t.callOn l = s.callOn l) : Record p t l := fun d on => h d (same.symm.trans on)

theorem Record.modCall (h : Record p s l) {f : Call → Call} (hp : ∀ d, p d → p (f d)) : Record p (s.modCall l f) l := by
  intro d on
  rw [State.callOn_modCall_self, Option.map_eq_some_iff] at on
  obtain ⟨d, there, rfl⟩ := on
  exact hp d (h d there)

theorem callOn_placeRecord (drop : (s.line l).st = .drop) : (placeRecord s l).callOn l = none ∨ placeRecord s l = s := by
  unfold placeRecord
  split
  · exact .inr rfl
  · split
    · exact .inr rfl
    · refine .inl (callOn_removeCall ?_)
      rw [recordPins, State.line_modEntry]
      split <;> simp [drop]

theorem Record.settle (h : Record p s l) (drop : (s.line l).st = .drop) (sent : ∀ d, p d → p { d with closedSent := true })
    (held : ∀ d, p d → p { d with phase := .held }) : Record p (settle s l) l := by
  unfold Machine.settle
  split
  · exact h
  · split
    · split
      · exact .of_removed (callOn_removeCall drop)
      · split
        · split
          · exact (h.modCall sent).of_callOn (by simp only [State.callOn_eq, enqueueOrdered_line])
          · exact h
        · split
          · unfold closeOut
            split
            · rcases callOn_placeRecord drop with gone | same
              · exact .of_removed gone
              · exact same.symm ▸ h
            · unfold holdCall
              dsimp only
              split
              · next up =>
                have same : ((s.modCall l fun c => { c with phase := .held }).line l).st = .up := up
                rw [State.line_modCall_self] at same
                exact absurd (drop.symm.trans same) (by decide)
              · exact (h.modCall held).of_callOn rfl
          · exact h
    · exact h

/-- A call that has ended and whose line drops keeps its cause, and has nothing left to drain (R49, R167). -/
theorem dropLine_record (hc : s.callOn l = some c) (ended : c.endCause.isSome = true) :
    Record (fun d => d.endCause = c.endCause ∧ d.drain = none ∧ d.txBuf = [] ∧ d.emission = []) (dropLine s l) l := by
  rw [← State.setLine_line s l, dropLine_setLine (c := c) hc ended]
  refine Record.settle (fun d on => ?_) ?_ (fun _ h => h) fun _ h => h
  · rw [State.callOn_setLine_self] at on
    obtain rfl := Option.some.inj on
    exact ⟨rfl, rfl, rfl, rfl⟩
  · rw [State.line_setLine_self]
    rfl

/-! ### The loss (R46, R49) -/

/-- The line whose carrier is lost, and the loss counted (R55). -/
def lostLine (x : Line) : Line := { x with carrier := false, ctr := { x.ctr with carrierLosses := bump x.ctr.carrierLosses } }

theorem countCarrierLoss_eq (s : State) (l : LineNo) : countCarrierLoss s l = s.setLine l (lostLine (s.line l)) := by
  unfold countCarrierLoss
  rw [State.modLine_eq, State.modCounters_setLine]
  rfl

theorem carrierLoss_serving (notDue : stepDue s l = false) (st : (s.line l).st = .speed ∨ (s.line l).st = .up) :
    Completes (.carrierLoss l) s (loseCarrier (s.setLine l (lostLine (s.line l))) l) := by
  unfold Completes
  simp only [exec, execCarrierLoss, completeStep_not_due notDue, countCarrierLoss_eq]
  rcases st with st | st <;> simp [st]

/-- The line that has entered FADE (R46). -/
def fadedLine (x : Line) (holdover : Interval) : Line :=
  { x with
    st := .fade, holdover := startTimer holdover, rxWait := false, zeroHeld := false, ctr := { x.ctr with fades := bump x.ctr.fades } }

theorem enterFade_setLine (hx : x.call = some c) (s : State) (l : LineNo) (holdover : Interval) :
    enterFade (s.setLine l x) l holdover = 
      s.setLine l { fadedLine x holdover with call := some { c with meter := { c.meter with fadeSecs := 0 } } } := by
  unfold enterFade
  simp only [State.modLine_setLine, State.modCounters_setLine]
  exact State.modCall_setLine_some (x := fadedLine x holdover) hx ..

theorem carrierLoss_fades (notDue : stepDue s l = false) (hc : s.callOn l = some c) (phase : c.phase = .connected) (running : c.endCause = none)
    (up : (s.line l).st = .up) (on : 1 ≤ c.copy.holdover.count) :
    Completes (.carrierLoss l) s (enterFade (s.setLine l (lostLine (s.line l))) l c.copy.holdover) := by
  refine (carrierLoss_serving notDue (.inr up)).trans (congrArg Host.Outcome.next ?_)
  have there : (s.setLine l (lostLine (s.line l))).callOn l = some c := (State.callOn_setLine_self s l _).trans hc
  have st : ((s.setLine l (lostLine (s.line l))).line l).st = .up := (congrArg Line.st (State.line_setLine_self s l _)).trans up
  simp only [loseCarrier, there]
  rw [if_neg (by simp [running]), if_pos ⟨phase, st, on⟩]

theorem carrierLoss_ends (notDue : stepDue s l = false) (hc : s.callOn l = some c) (running : c.endCause = none)
    (serving : (s.line l).st = .speed ∨ (s.line l).st = .up)
    (drops : c.phase ≠ .connected ∨ (s.line l).st = .speed ∨ c.copy.holdover.count = 0) :
    Completes (.carrierLoss l) s (endCallLost (s.setLine l (lostLine (s.line l))) l .hangup) := by
  refine (carrierLoss_serving notDue serving).trans (congrArg Host.Outcome.next ?_)
  have there : (s.setLine l (lostLine (s.line l))).callOn l = some c := (State.callOn_setLine_self s l _).trans hc
  have same : ((s.setLine l (lostLine (s.line l))).line l).st = (s.line l).st := (congrArg Line.st (State.line_setLine_self s l _) :)
  have fades : ¬ (c.phase = .connected ∧ ((s.setLine l (lostLine (s.line l))).line l).st = .up ∧ 0 < c.copy.holdover.count) := by
    rintro ⟨phase, up, on⟩
    rcases drops with other | speed | off
    · exact other phase
    · exact nomatch (same.symm.trans up).symm.trans speed
    · omega
  simp only [loseCarrier, there]
  rw [if_neg (by simp [running]), if_neg fades]

theorem carrierLoss_drops (notDue : stepDue s l = false) (hc : s.callOn l = some c) (ended : c.endCause.isSome = true)
    (serving : (s.line l).st = .speed ∨ (s.line l).st = .up) :
    Completes (.carrierLoss l) s (dropLine (s.setLine l (lostLine (s.line l))) l) := by
  refine (carrierLoss_serving notDue serving).trans (congrArg Host.Outcome.next ?_)
  have there : (s.setLine l (lostLine (s.line l))).callOn l = some c := (State.callOn_setLine_self s l _).trans hc
  simp only [loseCarrier, there]
  rw [if_pos ended]

/-! ### The return (R47, R155) -/

/-- The line to which carrier has returned (R47). -/
def returnedLine (x : Line) (low : Bool) : Line :=
  { x with
    st := .up, carrier := true, rxLow := low, holdover := none, rxWait := false, zeroHeld := false
    ctr := { x.ctr with fadeReturns := bump x.ctr.fadeReturns } }

/-- The meter of a call whose fade seconds are charged (R155). -/
def unfaded (x : Meter) : Meter :=
  { x with
    fadeSecs := 0, connectSecs := x.connectSecs + x.fadeSecs, acc := (x.acc + x.stepRate * x.fadeSecs) % 3600
    charge := x.charge + (x.acc + x.stepRate * x.fadeSecs) / 3600 }

theorem returnCarrier_unlimited {at' : FrameNo × EntryNo} {e : Entry} (hc : s.callOn l = some c) (u : Unlimited s c at' e) (low : Bool) :
    returnCarrier s l low =
      (charged { s with mtr := { s.mtr with fadeLumps := if 1 ≤ c.meter.fadeSecs then bump s.mtr.fadeLumps else s.mtr.fadeLumps } } at'
        ((c.meter.acc + c.meter.stepRate * c.meter.fadeSecs) / 3600)).setLine l
        { returnedLine (s.line l) low with call := some { c with meter := unfaded c.meter } } := by
  have call : (returnedLine (s.line l) low).call = some c := hc
  have there : (s.setLine l (returnedLine (s.line l) low)).callOn l = some c := (State.callOn_setLine_self s l _).trans call
  have line : returnCarrier s l low = chargeFade (s.setLine l (returnedLine (s.line l) low)) l := by
    unfold returnCarrier
    simp only [State.modLine_eq, State.modCounters_setLine]
    rfl
  rw [line]
  simp only [chargeFade, there]
  rw [State.modCall_setLine_some call]
  let d : Call := { c with meter := { c.meter with fadeSecs := 0, connectSecs := c.meter.connectSecs + c.meter.fadeSecs } }
  exact chargeUnitSeconds_unlimited
    (s := { s with mtr := { s.mtr with fadeLumps := if 1 ≤ c.meter.fadeSecs then bump s.mtr.fadeLumps else s.mtr.fadeLumps } })
    (x := { returnedLine (s.line l) low with call := some d }) (c := d) rfl ⟨u.attach_eq, u.entry_eq, u.no_limit⟩ l _

/-- Settles O26, by the line's state and its call. -/
theorem carrierLossFadesOrDropsTheLine : Obligations.CarrierLossFadesOrDropsTheLine := by
  intro s l notDue x lost
  refine ⟨fun c hc phase running up on => ?fades, fun c hc running serving drops => ?ends, fun c hc ended serving => ?ended, fun fade => ?again,
    fun notSpeed notUp notFade => ?away, fun low still => ?recorded, fun low serving => ?active, fun low answer => ?answers,
    fun low c at' e hc unl fade => ?returns⟩
  case fades =>
    refine (carrierLoss_fades notDue hc phase running up on).trans (congrArg Host.Outcome.next ?_)
    have starts : startTimer c.copy.holdover = some (intervalSecs c.copy.holdover) := if_neg (Nat.one_le_iff_ne_zero.1 on)
    rw [enterFade_setLine (x := lostLine x) (c := c) hc, fadedLine, starts]
    rfl
  case ends =>
    have run := carrierLoss_ends notDue hc running serving drops
    let u := s.setLine l (lostLine (s.line l))
    have there : u.callOn l = some c := (State.callOn_setLine_self s l _).trans hc
    have still : stepDue u l = false := by simpa only [stepDue, there, hc] using notDue
    have same : (u.line l).st = (s.line l).st := (congrArg Line.st (State.line_setLine_self s l _) :)
    refine ⟨endCallWith_endsCall (u := u) (endFuel_within 48) run (fun m ne => State.line_setLine_ne s _ ne) there rfl
      (by rw [attachOf, attachOf, there, hc]) running still (.inl (by decide)), _, run, ?_⟩
    refine dropped_st (endCallWith_drops (endFuel_within 48) there running still ?_ fun _ => rfl)
    rw [same]
    exact fun drop => serving.elim (fun st => nomatch st.symm.trans drop) fun st => nomatch st.symm.trans drop
  case ended =>
    let u := s.setLine l (lostLine (s.line l))
    have there : u.callOn l = some c := (State.callOn_setLine_self s l _).trans hc
    refine ⟨_, carrierLoss_drops notDue hc ended serving, dropped_st (dropLine_sameLine u l), fun m ne => ?_, dropLine_record there ended⟩
    exact ((dropLine_local u l).others m ne).trans (State.line_setLine_ne s _ ne)
  case again =>
    unfold Completes
    simp only [exec, execCarrierLoss, completeStep_not_due notDue, countCarrierLoss_eq, show (s.line l).st = .fade from fade]
    rfl
  case away =>
    unfold Completes
    simp only [exec, execCarrierLoss, completeStep_not_due notDue]
    split
    · exact absurd ‹_› notSpeed
    · exact absurd ‹_› notUp
    · exact absurd ‹_› notFade
    · rfl
    · rfl
    · rfl
    · rfl
    · rfl
  case recorded => exact congrArg Host.Outcome.next (raiseCarrier_recorded low still)
  case active =>
    rcases serving with st | st <;> simp [Completes, exec, execCarrierReturn, raiseCarrier, show (s.line l).st = _ from st]
  case answers => exact ⟨raiseCarrier s l low, rfl, rfl⟩
  case returns =>
    have same : raiseCarrier s l low = returnCarrier s l low := by simp [raiseCarrier, show (s.line l).st = .fade from fade]
    have run := same.trans (returnCarrier_unlimited hc unl low)
    refine ⟨_, congrArg Host.Outcome.next run, congrArg Host.Outcome.next run, State.line_setLine_self _ l _,
      fun m ne => (State.line_setLine_ne _ _ ne).trans (State.line_modEntry _ _ _ m), entryAt_charged_self unl.entry_eq _,
      fun b ne => entryAt_charged_ne ne _, rfl, rfl, rfl, rfl, rfl, rfl, rfl⟩

end Sys2Proof.Machine
end

section
/-! SUPPORT. A host close (R133, R156 to R158, R168). -/

namespace Sys2Proof.Machine

variable {s : State} {l : LineNo} {x : Line} {c : Call} {at' : FrameNo × EntryNo} {e : Entry} {endIt : Ender} {tariff : Tariff}

theorem charged_charged (s : State) (at' : FrameNo × EntryNo) (m n : Nat) : charged (charged s at' m) at' n = charged s at' (m + n) := by
  simp [charged, State.modEntry, State.modFrame, Function.comp_def, add_assoc, BitVec.ofNat_add]

/-- What is charged for a final partial step (R157). -/
def partCharge (tariff : Tariff) (m : Meter) : Nat := m.stepRate * (if tariff.partStep = .full then m.stepLen else m.stepPos)

/-- A final partial step is charged (R157). -/
abbrev PartCharged (tariff : Tariff) (m : Meter) : Prop := m.stepPos ≠ 0 ∧ tariff.partStep ≠ .free

/-- What is left in the accumulator after the final partial step (R157). -/
def leftUnits (tariff : Tariff) (m : Meter) : Nat := if PartCharged tariff m then (m.acc + partCharge tariff m) % 3600 else m.acc

/-- The units that a final partial step adds (R157). -/
def partUnits (tariff : Tariff) (m : Meter) : Nat := if PartCharged tariff m then (m.acc + partCharge tariff m) / 3600 else 0

/-- The units that the close of a meter adds (R157, R158). -/
def closingUnits (tariff : Tariff) (m : Meter) : Nat := partUnits tariff m + roundingUnits tariff.rounding (leftUnits tariff m)

theorem finalStep_unlimited (h : x.call = some c) (u : Unlimited s c at' e) (current : s.ctu.current = some tariff) (l : LineNo) :
    finalStep endIt (s.setLine l x) l =
      (if PartCharged tariff c.meter then charged s at' (partUnits tariff c.meter) else s).setLine l { x with call := some { c with meter := { c.meter with
        acc := leftUnits tariff c.meter, charge := c.meter.charge + partUnits tariff c.meter } } } := by
  have there : (s.setLine l x).callOn l = some c := (State.callOn_setLine_self s l x).trans h
  have now : meterTariff (s.setLine l x) = tariff := by simp [meterTariff, current]
  simp only [finalStep, there, now]
  by_cases final : PartCharged tariff c.meter
  · have part : partialCharge tariff.partStep c.meter = partCharge tariff c.meter := by
      unfold partialCharge partCharge
      rw [if_neg final.1]
      cases rule : tariff.partStep with
      | full => rfl
      | actual => rfl
      | free => exact absurd rule final.2
    rw [if_neg fun h => h.elim final.1 final.2, part, chargeUnitSeconds_unlimited h u, leftUnits, partUnits, if_pos final, if_pos final, if_pos final]
  · rw [if_pos (by tauto), leftUnits, partUnits, if_neg final, if_neg final, if_neg final]
    exact congrArg (s.setLine l) (by cases x; cases h; rfl)

theorem endRounding_unlimited (h : x.call = some c) (u : Unlimited s c at' e) (current : s.ctu.current = some tariff) (l : LineNo) :
    endRounding endIt (s.setLine l x) l =
      (charged s at' (roundingUnits tariff.rounding c.meter.acc)).setLine l { x with call := some { c with meter := { c.meter with
        acc := 0, charge := c.meter.charge + roundingUnits tariff.rounding c.meter.acc } } } := by
  have there : (s.setLine l x).callOn l = some c := (State.callOn_setLine_self s l x).trans h
  have now : meterTariff (s.setLine l x) = tariff := by simp [meterTariff, current]
  simp only [endRounding, there, now, State.modCall_setLine_some h]
  rw [addUnits_setLine (c := { c with meter := { c.meter with acc := 0 } }) rfl u.attach_eq]
  exact evaluateCall_unlimited (State.callOn_setLine_self _ l _) ⟨u.attach_eq, entryAt_charged_self u.entry_eq _, u.no_limit⟩

/-- The meter of a call whose charges are not watched is closed (R156 to R158). -/
theorem closeMeter_unlimited (h : x.call = some c) (u : Unlimited s c at' e) (current : s.ctu.current = some tariff) (fee : c.meter.feeCharged = true)
    (l : LineNo) :
    closeMeter endIt (s.setLine l x) l =
      (charged s at' (closingUnits tariff c.meter)).setLine l { x with call := some { c with meter := { c.meter with
        acc := 0, charge := c.meter.charge + closingUnits tariff c.meter } } } := by
  have there : (s.setLine l x).callOn l = some c := (State.callOn_setLine_self s l x).trans h
  let d : Call := { c with meter := { c.meter with acc := leftUnits tariff c.meter, charge := c.meter.charge + partUnits tariff c.meter } }
  simp only [closeMeter, there]
  rw [if_pos fee, finalStep_unlimited h u current]
  by_cases final : PartCharged tariff c.meter
  · rw [if_pos final, endRounding_unlimited (c := d) (e := { e with charged := e.charged + BitVec.ofNat 32 (partUnits tariff c.meter) }) rfl
      ⟨u.attach_eq, entryAt_charged_self u.entry_eq _, u.no_limit⟩ current, charged_charged, closingUnits, ← Nat.add_assoc]
  · have none : partUnits tariff c.meter = 0 := if_neg final
    let d' : Call := { c with meter := { c.meter with acc := leftUnits tariff c.meter } }
    rw [if_neg final, closingUnits, none, Nat.add_zero, Nat.zero_add]
    exact endRounding_unlimited (c := d') rfl ⟨u.attach_eq, u.entry_eq, u.no_limit⟩ current l

/-- The record of a connected call that the host has closed, its drain to come (R134, R156, R168). -/
def hostClosed (s : State) (c : Call) (units : Nat) : Call :=
  { c with
    endCause := some .hostClose, phase := .ending, pend := ⟨none, none, none⟩, idle := none, fieldTimer := none
    pwBuf := [], genAtEnd := s.ctu.generation, closedDue := true, closedSent := false, released := false
    notices := [], outputPaused := false, credit := 0, batchGap := none
    meter := { c.meter with charge := c.meter.charge + units, acc := 0 }
    drain := some (intervalSecs s.soe.drainLimit), goodbyePending := true }

/-- The record of a connected call at its host close, its meter not yet closed (R24, R134). -/
def hostStopped (s : State) (c : Call) : Call :=
  { c with
    endCause := some .hostClose, phase := .ending, pend := ⟨none, none, none⟩, idle := none, fieldTimer := none
    pwBuf := [], genAtEnd := s.ctu.generation, closedDue := true, closedSent := false, released := false, goodbyePending := false
    notices := [], outputPaused := false, credit := 0, batchGap := none }

theorem stopCarriage_markEnded (hc : s.callOn l = some c) (connected : c.phase = .connected) :
    stopCarriage (markEnded s l .hostClose) l = s.setLine l { s.line l with call := some (hostStopped s c) } := by
  rw [stopCarriage, markEnded, State.modCall_eq hc, State.modCall_setLine_some rfl]
  simp [hostStopped, connected]

theorem endingWork_hostClose (hc : s.callOn l = some c) (u : Unlimited s c at' e) (connected : c.phase = .connected)
    (current : s.ctu.current = some tariff) (fee : c.meter.feeCharged = true) (batch : c.batch = []) :
    endingWork endIt (markEnded s l .hostClose) l .connected =
      (charged s at' (closingUnits tariff c.meter)).setLine l { s.line l with call := some { hostStopped s c with meter := { c.meter with
        acc := 0, charge := c.meter.charge + closingUnits tariff c.meter } } } := by
  simp only [endingWork]
  rw [stopCarriage_markEnded hc connected, closeMeter_unlimited (c := hostStopped s c) rfl ⟨u.attach_eq, u.entry_eq, u.no_limit⟩ current fee]
  simp only [closingFlush, State.callOn_setLine_self]
  exact if_pos batch

/-- The strand of a host close starts the drain, GOODBYE to come (R168). -/
theorem lineStrand_hostClose (up : (s.line l).st = .up) (limit : s.soe.drainLimit.count ≠ 0) :
    lineStrand s l .connected .hostClose false = drainCheck ((startDrain s l).modCall l fun c => { c with goodbyePending := true }) l := by
  simp only [lineStrand, up]
  rw [if_neg (by decide), if_neg limit, if_pos ⟨rfl, trivial⟩]

/-- A host close of a connected call closes its meter and starts its drain (R156, R168). -/
theorem endCall_hostClose (hc : s.callOn l = some c) (u : Unlimited s c at' e) (connected : c.phase = .connected) (running : c.endCause = none)
    (notDue : stepDue s l = false) (up : (s.line l).st = .up) (current : s.ctu.current = some tariff) (fee : c.meter.feeCharged = true)
    (batch : c.batch = []) (text : c.txBuf ≠ []) (limit : 1 ≤ s.soe.drainLimit.count) :
    endCall s l .hostClose = (charged s at' (closingUnits tariff c.meter)).setLine l
      { s.line l with call := some (hostClosed s c (closingUnits tariff c.meter)) } := by
  rw [endCall_eq hc running notDue, connected, endingWork_hostClose hc u connected current fee batch]
  let d : Call := { hostStopped s c with meter := { c.meter with acc := 0, charge := c.meter.charge + closingUnits tariff c.meter } }
  let v := charged s at' (closingUnits tariff c.meter)
  have limited : v.soe.drainLimit.count ≠ 0 := Nat.one_le_iff_ne_zero.1 limit
  have st : ((v.setLine l { s.line l with call := some d }).line l).st = .up := by rw [State.line_setLine_self]; exact up
  have strand : lineStrand (v.setLine l { s.line l with call := some d }) l .connected .hostClose false =
      drainCheck (v.setLine l { s.line l with call := some (hostClosed s c (closingUnits tariff c.meter)) }) l := by
    rw [lineStrand_hostClose st limited, startDrain, State.modCall_setLine_some rfl, State.modCall_setLine_some rfl]
    rfl
  refine strand.trans ?_
  have there : (v.setLine l { s.line l with call := some (hostClosed s c (closingUnits tariff c.meter)) }).callOn l =
    some (hostClosed s c (closingUnits tariff c.meter)) := State.callOn_setLine_self ..
  have quiet : placeGoodbye (v.setLine l { s.line l with call := some (hostClosed s c (closingUnits tariff c.meter)) }) l =
      v.setLine l { s.line l with call := some (hostClosed s c (closingUnits tariff c.meter)) } := by
    simp only [placeGoodbye, there]
    exact if_neg fun h => text h.2.1
  simp only [drainCheck, there, quiet]
  rw [if_pos ⟨rfl, rfl⟩, if_neg fun h => text h.1]

/-- Settles O40, by the phase of the call. -/
theorem hostCloseClosesTheMeterAndDrains : Obligations.HostCloseClosesTheMeterAndDrains := by
  have taken {s : State} {f : InFrame} {rest : List InFrame} {l : LineNo} {c : Call} (h : Addressed s 0x39 f rest l c)
      (connected : c.phase = .connected) : Completes .hostClose s (endCall (afterTake s rest) l .hostClose) :=
    congrArg Host.Outcome.next (takeSession_accepted h (by decide) _ (by simp [acceptsCarriage, connected]))
  refine ⟨fun s f rest h other => ?stale, fun s f rest l c h connected running attached notDue => ?ends,
    fun s f rest l c at' e tariff h u connected running notDue up fee batch text current limit => ?drains⟩
  case stale =>
    refine congrArg Host.Outcome.next (takeSession_stale h (by decide) _ fun c hc number => ?_)
    simpa [acceptsCarriage] using other c hc number
  case ends =>
    exact endCall_endsCall_same (taken h connected) (fun _ _ => rfl) h.call_eq rfl running notDue (.inr ⟨connected, attached⟩)
  case drains =>
    have run := taken h connected
    rw [endCall_hostClose (s := afterTake s rest) h.call_eq ⟨u.attach_eq, u.entry_eq, u.no_limit⟩ connected running notDue up current fee batch text
      limit] at run
    intro final part left extra units
    have same : closingUnits tariff c.meter = units := rfl
    rw [same] at run
    exact ⟨_, run, fun m ne => (State.line_setLine_ne _ _ ne).trans (State.line_modEntry _ _ _ m), State.line_setLine_self _ l _,
      entryAt_charged_self u.entry_eq _, rfl, rfl, rfl, rfl, rfl⟩

end Sys2Proof.Machine
end

section
/-! SUPPORT. One event that ends several calls (R24, R32, R94, R182). -/

namespace Sys2Proof.Machine

variable {s t u : State} {l m : LineNo} {c d : Call} {a : FrameNo × EntryNo} {cause : EndCause} {T : LineNo → Prop}
  {ls : List LineNo} {xs : List (LineNo × Phase)}

/-! ### The calls that one event ends, marked and then worked (R24) -/

/-- The calls of the lines that run, each with its phase. -/
def runningOf (s : State) (ls : List LineNo) : List (LineNo × Phase) :=
  ls.filterMap fun l => (s.callOn l).bind fun c => if c.endCause.isNone then some (l, c.phase) else none

/-- The calls marked as ended, none of their work done yet. -/
def markAll (cause : EndCause) (s : State) (xs : List (LineNo × Phase)) : State := xs.foldl (fun s x => markEnded s x.1 cause) s

/-- The work of one call that was marked. -/
def workOn (cause : EndCause) (s : State) (x : LineNo × Phase) : State :=
  lineStrand (endingWork endCall s x.1 x.2) x.1 x.2 cause false

theorem completeSteps_none (still : ∀ l, stepDue s l = false) (ls : List LineNo) :
    ls.foldl (fun s l => completeStep endCall s l) s = s := by
  induction ls with
  | nil => rfl
  | cons l ls ih => rw [List.foldl_cons, completeStep_not_due (still l), ih]

/-- With no step complete and uncharged, all the calls that run are marked, and then worked in their order. -/
theorem endAll_eq (still : ∀ l, stepDue s l = false) (ls : List LineNo) (cause : EndCause) :
    endAll s ls cause = (runningOf s ls).foldl (workOn cause) (markAll cause s (runningOf s ls)) := by
  unfold endAll
  rw [completeSteps_none still]
  rfl

theorem runningOf_cons_on (hc : s.callOn l = some c) (running : c.endCause = none) (ls : List LineNo) :
    runningOf s (l :: ls) = (l, c.phase) :: runningOf s ls := by
  simp [runningOf, hc, running]

theorem mem_runningOf {x : LineNo × Phase} :
    x ∈ runningOf s ls ↔ x.1 ∈ ls ∧ ∃ c, s.callOn x.1 = some c ∧ c.endCause = none ∧ c.phase = x.2 := by
  simp only [runningOf, List.mem_filterMap, Option.bind_eq_some_iff, Option.ite_none_right_eq_some, Option.isNone_iff_eq_none]
  constructor
  · rintro ⟨l, mem, c, hc, running, eq⟩
    obtain rfl := Option.some.inj eq
    exact ⟨mem, c, hc, running, rfl⟩
  · rintro ⟨mem, c, hc, running, phase⟩
    exact ⟨x.1, mem, c, hc, running, by rw [phase]⟩

/-- A call that runs stands once among those to be ended. -/
theorem runningOf_split (nodup : ls.Nodup) (mem : l ∈ ls) (hc : s.callOn l = some c) (running : c.endCause = none) :
    ∃ pre post, runningOf s ls = pre ++ (l, c.phase) :: post ∧ (∀ x ∈ pre, x.1 ≠ l) ∧ ∀ x ∈ post, x.1 ≠ l := by
  obtain ⟨before, after, rfl⟩ := List.append_of_mem mem
  obtain ⟨-, -, apart⟩ := List.nodup_append.1 nodup
  have later : l ∉ after := (List.nodup_cons.1 (List.nodup_append.1 nodup).2.1).1
  refine ⟨runningOf s before, runningOf s after, ?_, fun x h => ?_, fun x h => ?_⟩
  · rw [← runningOf_cons_on hc running, runningOf, List.filterMap_append]
    rfl
  · exact apart _ (mem_runningOf.1 h).1 _ List.mem_cons_self
  · exact fun same => later (same ▸ (mem_runningOf.1 h).1)

/-! ### How far it reaches -/

theorem Within.foldl_mem {α : Type} {f : State → α → State} (xs : List α) (step : ∀ t, Within T s t → ∀ x ∈ xs, Within T t (f t x))
    (so : Within T s t) : Within T s (xs.foldl f t) := by
  induction xs generalizing t with
  | nil => exact so
  | cons x xs ih => exact ih (fun u h y mem => step u h y (List.mem_cons_of_mem x mem)) (so.trans (step t so x List.mem_cons_self))

theorem markAll_within (s : State) (inside : ∀ x ∈ xs, T x.1) : Within T s (markAll cause s xs) :=
  Within.foldl_mem xs (fun t _ x mem => markEnded_within t x.1 cause (inside x mem)) (.refl T s)

theorem workOn_within (closed : Closed T s) {x : LineNo × Phase} (inside : T x.1) : Within T s (workOn cause s x) :=
  (endingWork_within endCall_within closed inside x.2).trans (lineStrand_within _ _ _ _ _ inside)

theorem works_within (closed : Closed T s) (inside : ∀ x ∈ xs, T x.1) : Within T s (xs.foldl (workOn cause) s) :=
  Within.foldl_mem xs (fun _ so x mem => workOn_within (closed.within so) (inside x mem)) (.refl T s)

/-- An event that ends several calls reaches those of their accounts alone. -/
theorem endAll_within (still : ∀ l, stepDue s l = false) (closed : Closed T s) (inside : ∀ l ∈ ls, s.running l = true → T l) :
    Within T s (endAll s ls cause) := by
  rw [endAll_eq still]
  have within (x : LineNo × Phase) (mem : x ∈ runningOf s ls) : T x.1 := by
    obtain ⟨there, c, hc, running, -⟩ := mem_runningOf.1 mem
    exact inside x.1 there (by simp [State.running, hc, running])
  have marked := markAll_within (cause := cause) s within
  exact marked.trans (works_within (closed.within marked) within)

/-! ### Each of the calls carries the cause -/

theorem untouched_of_carries (h : CarriesCause s l c cause) : Untouched s l := by
  intro a _
  by_contra reached
  obtain ⟨d, on, reach, -⟩ := (evaluationReaches_iff s a l).1 (Bool.not_eq_false _ ▸ reached)
  obtain ⟨-, -, phase, -⟩ := h d on
  rcases (reachable_iff d).1 reach with ⟨-, running⟩
  rcases phase with phase | phase <;> simp [phase] at running

theorem workOn_carries (hc : s.callOn l = some c) (same : t.callOn l = (markEnded s l cause).callOn l) (hostless : cause ≠ .hostClose) :
    CarriesCause (workOn cause t (l, c.phase)) l c cause := by
  by_cases connected : c.phase = .connected
  · have owing := (markEnded_owing hc connected cause).of_callOn same
    unfold workOn
    rw [connected]
    exact (endingWork_owing endCall_within owing).carries.lineStrand hostless _ _
  · exact (((markEnded_carriesCause hc cause).of_callOn_eq same).endingWork connected endCall).lineStrand hostless _ _

/-- The marks of other calls leave the one on line `l` to its own. -/
theorem callOn_markAll {pre post : List (LineNo × Phase)} {p : Phase} (before : ∀ x ∈ pre, x.1 ≠ l) (after : ∀ x ∈ post, x.1 ≠ l) :
    (markAll cause s (pre ++ (l, p) :: post)).callOn l = (markEnded s l cause).callOn l := by
  have first : Within (· ≠ l) s (markAll cause s pre) := markAll_within s before
  have last : Within (· ≠ l) (markEnded (markAll cause s pre) l cause) (markAll cause (markEnded (markAll cause s pre) l cause) post) :=
    markAll_within _ after
  have same : (markAll cause s pre).callOn l = s.callOn l := congrArg Line.call (first.lines l fun h => h rfl)
  rw [markAll, List.foldl_append, List.foldl_cons]
  refine (congrArg Line.call (last.lines l fun h => h rfl)).trans ?_
  change (markEnded (markAll cause s pre) l cause).callOn l = _
  rw [markEnded, markEnded, State.callOn_modCall_self, State.callOn_modCall_self, same, first.keeps.ctu]

/-- One event gives each of the calls that run its cause, whatever the work of the others does (R24). -/
theorem endAll_carries (still : ∀ l, stepDue s l = false) (nodup : ls.Nodup) (mem : l ∈ ls) (hc : s.callOn l = some c)
    (running : c.endCause = none) (hostless : cause ≠ .hostClose) : CarriesCause (endAll s ls cause) l c cause := by
  obtain ⟨pre, post, split, before, after⟩ := runningOf_split nodup mem hc running
  rw [endAll_eq still, split, List.foldl_append, List.foldl_cons]
  generalize hv : markAll cause s (pre ++ (l, c.phase) :: post) = v
  have marked : v.callOn l = (markEnded s l cause).callOn l := hv ▸ callOn_markAll before after
  have quiet : Untouched v l := untouched_of_carries ((markEnded_carriesCause hc cause).of_callOn_eq marked)
  have earlier : Within (· ≠ l) v (pre.foldl (workOn cause) v) := works_within quiet.closed before
  have own : CarriesCause (workOn cause (pre.foldl (workOn cause) v) (l, c.phase)) l c cause :=
    workOn_carries hc ((congrArg Line.call (earlier.lines l fun h => h rfl)).trans marked) hostless
  have later : Within (· ≠ l) _ (post.foldl (workOn cause) (workOn cause (pre.foldl (workOn cause) v) (l, c.phase))) :=
    works_within (untouched_of_carries own).closed after
  exact own.of_callOn_eq (congrArg Line.call (later.lines l fun h => h rfl))

/-! ### ACCOUNT SUSPEND (R94) -/

theorem accountBad_bucket {b : Nat} (bad : 16383 < b) (account : Nat) : accountBad b account = some 0 := by
  simp [accountBad, firstBad, bad]

theorem accountBad_account {b account : Nat} (bucket : b ≤ 16383) (bad : account = 0 ∨ 999999 < account) : accountBad b account = some 1 := by
  have out : ¬ (1 ≤ account ∧ account ≤ 999999) := by omega
  simp only [accountBad, firstBad, bucket, decide_true, ← Bool.decide_and, decide_eq_false out]
  rfl

theorem accountBad_good {b account : Nat} (bucket : b ≤ 16383) (above : 1 ≤ account) (most : account ≤ 999999) : accountBad b account = none := by
  simp [accountBad, firstBad, bucket, above, most]

section
variable {b account : Nat} {g : FrameNo} {i : EntryNo} {e : Entry} {carry : State → FrameNo × EntryNo → State × Answer}

theorem onAccount_uncached (no : ∀ g, (s.frame g).bucket ≠ some b) : onAccount s b account carry = (s, .refused .notCached .none) := by
  simp [onAccount, cachedFrame, findBucket_none no]

theorem onAccount_found (h : FindsAccount s b account g i e) : onAccount s b account carry = carry s (g, i) := by
  have frame : cachedFrame s b = some g := by
    simp only [cachedFrame, findBucket_some h.toHeldBy]
    rcases h.cached with st | st | st <;> simp [st]
  have slot : accountSlot (s.frame g) account = some i := by
    refine find?_only ?_ fun j ne => ?_
    · have entry : (s.frame g).entries[i] = some e := h.entry
      simp [entry, h.account_eq]
    · refine decide_eq_false fun same => ?_
      obtain ⟨d, there, account⟩ := Option.map_eq_some_iff.1 same
      exact h.only j d ne there account
  simp only [onAccount, frame, slot]

end

/-- The lines whose calls are attached to one entry are those that an evaluation of it reaches, and their own. -/
theorem closed_attached (s : State) (a : FrameNo × EntryNo) : Closed (fun m => attachOf s m = some a) s := by
  intro l b inside mine _ m reached
  obtain rfl := Option.some.inj (inside.symm.trans mine)
  obtain ⟨c, hc, -, attach⟩ := (evaluationReaches_iff s a m).1 reached
  rw [attachOf, hc, Option.bind_some, attach]

/-- An entry suspended, and its calls with it (R94). -/
def suspended (s : State) (a : FrameNo × EntryNo) : State :=
  endAll (s.modEntry a fun e => { e with status := .suspended }) (allLines.filter (attachedTo (s.modEntry a fun e => { e with status := .suspended }) a)) .suspended

/-- Settles O45, by the fields and by whether the account is found. -/
theorem accountSuspendEndsTheAccountsCalls : Obligations.AccountSuspendEndsTheAccountsCalls := by
  intro s f rest b account h cmd good
  refine ⟨fun bad => ?bucket, fun bucket bad => ?account, fun ⟨bucket, above, most⟩ no => ?uncached, fun g i e ⟨bucket, above, most⟩ found still => ?suspends⟩
  case bucket => exact congrArg Host.Outcome.next (takeReplied_bad h (by decide) (fun _ => accountBad b account) _ (accountBad_bucket bad account))
  case account => exact congrArg Host.Outcome.next (takeReplied_bad h (by decide) (fun _ => accountBad b account) _ (accountBad_account bucket bad))
  case uncached =>
    exact congrArg Host.Outcome.next (takeReplied_answers h (by decide) (accountBad_good bucket above most) (onAccount_uncached no))
  case suspends =>
    let u := afterReply s f rest .format
    let v := u.modEntry (g, i) fun e => { e with status := .suspended }
    have run := takeReplied_outcome h (by decide) (accountBad_good bucket above most) (carry := fun s => onAccount s b account suspendEntry)
      (onAccount_found (s := u) ⟨⟨found.holds, found.alone⟩, found.cached, found.entry, found.account_eq, found.only⟩)
    have quiet (l : LineNo) : stepDue v l = false := still l
    have within : Within (fun m => attachOf v m = some (g, i)) v (suspended u (g, i)) := by
      refine endAll_within quiet (closed_attached v (g, i)) fun l mem _ => ?_
      exact of_decide_eq_true (List.mem_filter.1 mem).2
    have entry : (v.entryAt (g, i)).map Entry.fixed = some { e with status := .suspended }.fixed := by
      rw [State.entryAt_modEntry_self, show u.entryAt (g, i) = some e from found.entry]
      rfl
    obtain ⟨e', there, fixed⟩ := Option.map_eq_some_iff.1 ((within.steady.entries (g, i)).trans entry)
    refine ⟨_, e', congrArg Host.Outcome.next run, there, ?_, (congrArg Entry.status fixed :), fun l d hd attach running => ?_, fun l apart => within.lines l apart⟩
    · exact (congrArg Entry.account fixed).trans found.account_eq
    · refine endAll_carries quiet (allLines_nodup.filter _) (List.mem_filter.2 ⟨mem_allLines l, ?_⟩) hd running (by decide)
      exact decide_eq_true (by rw [show v.callOn l = some d from hd, Option.bind_some, attach])

end Sys2Proof.Machine
end

section
/-! SUPPORT. Lines enabled, disabled and fitted (R32, R53, R54). -/

namespace Sys2Proof.Machine

variable {s t u : State} {l m : LineNo} {x : Line} {c d : Call} {f : InFrame} {rest : List InFrame} {cause : EndCause} {T : LineNo → Prop}
  {ls : List LineNo} {n : Nat}

/-! ### A line with no call goes OFF (R54) -/

theorem goOff_eq (s : State) (l : LineNo) : goOff s l = s.setLine l (offLine (s.line l)) := rfl

theorem bareOff_goes (bare : s.callOn l = none)
    (st : (s.line l).st = .idle ∨ (s.line l).st = .ring ∨ (s.line l).st = .answer ∨ (s.line l).st = .drop) : bareOff s l = goOff s l := by
  rcases st with st | st | st | st <;> simp [bareOff, bare, st]

theorem bareOff_within (s : State) (inside : T l) : Within T s (bareOff s l) := by
  refine .of_local (bareOff_local s l) ?_ inside
  unfold bareOff
  refine .ite (fun _ => ?_) fun _ => .refl s
  have goes : Steady s (goOff s l) := .modLine s l _ rfl fun h => by simp [Line.Ringing] at h
  cases (s.line l).st with
  | idle => exact goes
  | ring => exact goes
  | answer => exact goes
  | drop => exact goes
  | off => exact .refl s
  | speed => exact .refl s
  | up => exact .refl s
  | fade => exact .refl s

theorem bareOff_callOn (s : State) (l m : LineNo) : (bareOff s l).callOn m = s.callOn m := by
  have goes : (goOff s l).callOn m = s.callOn m := by
    by_cases same : m = l
    · subst same
      exact State.callOn_setLine_self s m _
    · exact congrArg Line.call (State.line_setLine_ne s _ same)
  unfold bareOff
  split
  · split
    · exact goes
    · exact goes
    · exact goes
    · exact goes
    · rfl
    · rfl
    · rfl
    · rfl
  · rfl

/-- A line with no call that is not already OFF, nor serving one, is OFF once it is past the lines fitted (R32). -/
theorem bareOff_off (bare : s.callOn l = none) (speed : (s.line l).st ≠ .speed) (up : (s.line l).st ≠ .up) (fade : (s.line l).st ≠ .fade) :
    ((bareOff s l).line l).st = .off := by
  have goes : ((goOff s l).line l).st = .off := congrArg Line.st (State.line_setLine_self s l (offLine (s.line l)))
  rw [bareOff, if_pos bare]
  split
  · exact goes
  · exact goes
  · exact goes
  · exact goes
  · assumption
  · exact absurd ‹_› speed
  · exact absurd ‹_› up
  · exact absurd ‹_› fade

theorem bareOffs_within (s : State) (inside : ∀ l ∈ ls, T l) : Within T s (ls.foldl bareOff s) :=
  Within.foldl_mem ls (fun t _ l mem => bareOff_within t (inside l mem)) (.refl T s)

theorem bareOffs_callOn (s : State) (ls : List LineNo) (m : LineNo) : (ls.foldl bareOff s).callOn m = s.callOn m := by
  induction ls generalizing s with
  | nil => rfl
  | cons l ls ih => exact (ih _).trans (bareOff_callOn s l m)

theorem bareOffs_off (nodup : ls.Nodup) (mem : l ∈ ls) (bare : s.callOn l = none) (speed : (s.line l).st ≠ .speed) (up : (s.line l).st ≠ .up)
    (fade : (s.line l).st ≠ .fade) : ((ls.foldl bareOff s).line l).st = .off := by
  obtain ⟨before, after, rfl⟩ := List.append_of_mem mem
  obtain ⟨-, tail, apart⟩ := List.nodup_append.1 nodup
  have first : Within (· ≠ l) s (before.foldl bareOff s) := bareOffs_within s fun m inside => apart m inside l List.mem_cons_self
  have line : (before.foldl bareOff s).line l = s.line l := first.lines l fun h => h rfl
  rw [List.foldl_append, List.foldl_cons]
  have last : Within (· ≠ l) (bareOff (before.foldl bareOff s) l) (after.foldl bareOff (bareOff (before.foldl bareOff s) l)) :=
    bareOffs_within _ fun m inside same => (List.nodup_cons.1 tail).1 (same ▸ inside)
  rw [last.lines l fun h => h rfl]
  refine bareOff_off ?_ ?_ ?_ ?_
  · rw [State.callOn_eq, line]
    exact bare
  · rwa [line]
  · rwa [line]
  · rwa [line]

/-! ### LINE ENABLE and LINE DISABLE (R53, R54) -/

theorem lineEnable_eq (h : Requested s 0x11 f rest) : exec .lineEnable s = .next
    (if (lineOf f).val < s.fitted then
      setPriority (enableLine (afterReply s f rest .format) (lineOf f)) s.hli.prio.length
        (replyTo f (.done (.lineState ((enableLine (afterReply s f rest .format) (lineOf f)).line (lineOf f)).st)))
    else afterReply s f rest (.refused .noLine .none)) := by
  change execLineEnable s = _
  rw [execLineEnable, takeReplied_eq h (by decide)]
  by_cases fitted : (lineOf f).val < s.fitted
  · have below : isFitted (afterReply s f rest .format) (lineOf f) = true := decide_eq_true fitted
    rw [if_pos fitted, if_pos below]
  · have past : ¬ isFitted (afterReply s f rest .format) (lineOf f) = true := fun below => fitted (of_decide_eq_true below)
    rw [if_neg fitted, if_neg past, setPriority_afterReply]

theorem lineDisable_eq (h : Requested s 0x12 f rest) (mode : DisableMode) : Completes (.lineDisable mode) s
    (setPriority (disableLine (afterReply s f rest .format) (lineOf f) mode) s.hli.prio.length
      (replyTo f (.done (.lineState ((disableLine (afterReply s f rest .format) (lineOf f) mode).line (lineOf f)).st)))) :=
  congrArg Host.Outcome.next (takeReplied_eq h (by decide) _)

/-- A replied request that changes one line alone. -/
theorem replied_setLine (s : State) (f : InFrame) (rest : List InFrame) (l : LineNo) (x : Line) (a : Answer) :
    setPriority ((afterReply s f rest .format).setLine l x) s.hli.prio.length (replyTo f a) = (afterReply s f rest a).setLine l x := by
  rw [setPriority_setLine, setPriority_afterReply]

/-! ### LINES FITTED (R32) -/

/-- The lines of a set and those that carry calls of their accounts. -/
theorem closed_accounts (S : LineNo → Prop) (s : State) : Closed (fun k => S k ∨ ∃ m, S m ∧ SameAccount s m k) s := by
  intro l a inside mine _ k reached
  obtain ⟨c, hc, -, attach⟩ := (evaluationReaches_iff s a k).1 reached
  have theirs : attachOf s k = some a := by rw [attachOf, hc, Option.bind_some, attach]
  rcases inside with own | ⟨m, own, b, first, second⟩
  · exact .inr ⟨l, own, a, mine, theirs⟩
  · obtain rfl := Option.some.inj (second.symm.trans mine)
    exact .inr ⟨m, own, b, first, theirs⟩

theorem linesFittedBad_none (least : 1 ≤ n) (most : n ≤ 48) : linesFittedBad n = none := by simp [linesFittedBad, firstBad, least, most]

theorem linesFittedBad_some (bad : n = 0 ∨ 48 < n) : linesFittedBad n = some 0 := by
  have out : ¬ (1 ≤ n ∧ n ≤ 48) := by omega
  simp only [linesFittedBad, firstBad, ← Bool.decide_and, decide_eq_false out]
  rfl

/-- The lines past the new N. -/
def pastLines (n : Nat) : List LineNo := allLines.filter fun l => decide (n ≤ l.val)

theorem mem_pastLines : l ∈ pastLines n ↔ n ≤ l.val := by simp [pastLines, mem_allLines]

/-- The state of lower N in which the lines past it that carry no call are OFF (R32). -/
def lowered (s : State) (n : Nat) : State := (pastLines n).foldl bareOff { s with fitted := n }

theorem lowered_within (s : State) (n : Nat) : Within (fun l => n ≤ l.val) { s with fitted := n } (lowered s n) :=
  bareOffs_within _ fun _ mem => mem_pastLines.1 mem

theorem callOn_lowered (s : State) (n : Nat) (l : LineNo) : (lowered s n).callOn l = s.callOn l := bareOffs_callOn _ _ l

theorem setFitted_lower (less : n < s.fitted) : setFitted s n = endAll (lowered s n) (pastLines n) .lineDisabled := if_pos less

/-- What a lower N does to the lines (R32). -/
theorem setFitted_lines (less : n < s.fitted) (still : ∀ l, stepDue s l = false) :
    (setFitted s n).fitted = n ∧
      (∀ l, n ≤ l.val → s.callOn l = none → (s.line l).st ≠ .speed → (s.line l).st ≠ .up → (s.line l).st ≠ .fade →
        ((setFitted s n).line l).st = .off) ∧
      (∀ l c, n ≤ l.val → s.callOn l = some c → c.endCause = none → CarriesCause (setFitted s n) l c .lineDisabled) ∧
      ∀ l, l.val < n → (∀ m : LineNo, n ≤ m.val → ¬ SameAccount s m l) → (setFitted s n).line l = s.line l := by
  rw [setFitted_lower less]
  have quiet (l : LineNo) : stepDue (lowered s n) l = false := by simpa only [stepDue, callOn_lowered] using still l
  have reach := endAll_within (ls := pastLines n) (cause := .lineDisabled) quiet (closed_accounts (fun k => n ≤ k.val) (lowered s n)) fun l mem _ => .inl (mem_pastLines.1 mem)
  refine ⟨reach.keeps.fitted.trans (lowered_within s n).keeps.fitted, fun l past bare speed up fade => ?off,
    fun l c past hc running => ?ended, fun l below apart => ?kept⟩
  case off =>
    have bare' : (lowered s n).callOn l = none := (callOn_lowered s n l).trans bare
    have quietLine : Untouched (lowered s n) l := untouched_of_carries (c := Call.fresh 0 .name none (s.line l).settings.toCallSettings) (cause := .idle) (.of_removed bare')
    have alone : Within (· ≠ l) (lowered s n) (endAll (lowered s n) (pastLines n) .lineDisabled) := by
      refine endAll_within quiet quietLine.closed fun m _ running same => ?_
      simp [State.running, same, bare'] at running
    rw [alone.lines l fun h => h rfl]
    exact bareOffs_off (allLines_nodup.filter _) (mem_pastLines.2 past) bare speed up fade
  case ended =>
    exact endAll_carries quiet (allLines_nodup.filter _) (mem_pastLines.2 past) ((callOn_lowered s n l).trans hc) running (by decide)
  case kept =>
    refine (reach.lines l ?_).trans ((lowered_within s n).lines l (Nat.not_le.2 below))
    rintro (past | ⟨m, past, a, first, second⟩)
    · exact absurd below (Nat.not_lt.2 past)
    · rw [callOn_lowered] at first second
      exact apart m past ⟨a, first, second⟩

theorem endedCount_same (lines : t.lines = s.lines) : endedCount s t = 0 := by
  refine List.countP_eq_zero.2 fun l _ => ?_
  have same : t.running l = s.running l := by simp only [State.running, State.callOn, State.line, lines]
  rw [same, Bool.and_not_self]
  decide

/-- Settles O19, by the request. -/
theorem linesAreEnabledDisabledAndFitted : Obligations.LinesAreEnabledDisabledAndFitted := by
  refine ⟨fun s f rest l mode line => ?line, fun s f rest n h => ⟨fun bad => ?refused, fun least most raised => ?raised, fun least most less still => ?lowered⟩⟩
  case line =>
    subst line
    refine ⟨fun h past => ?past, fun h fitted st => ?enabled, fun h fitted st => ?stays, fun h bare st => ?off, fun h there => ?after,
      fun h c hc running notDue => ?now⟩
    case past => rw [OnlyAnswers, Completes, lineEnable_eq h, if_neg (Nat.not_lt.2 past)]
    case enabled =>
      have enabled : enableLine (afterReply s f rest .format) (lineOf f) =
        (afterReply s f rest .format).setLine (lineOf f) { s.line (lineOf f) with st := .idle, ringCount := 0 } := if_pos st
      rw [Completes, lineEnable_eq h, if_pos fitted, enabled, State.line_setLine_self, replied_setLine]
    case stays =>
      have stays : enableLine (afterReply s f rest .format) (lineOf f) = afterReply s f rest .format := if_neg st
      rw [OnlyAnswers, Completes, lineEnable_eq h, if_pos fitted, stays, setPriority_afterReply, line_afterReply]
    case off =>
      have gone : disableLine (afterReply s f rest .format) (lineOf f) mode =
          (afterReply s f rest .format).setLine (lineOf f) (offLine (s.line (lineOf f))) := by
        simp only [disableLine, callOn_afterReply, bare]
        exact bareOff_goes bare st
      have run := lineDisable_eq h mode
      rw [gone, State.line_setLine_self, replied_setLine] at run
      exact run
    case after =>
      obtain ⟨c, hc⟩ := Option.isSome_iff_exists.1 there
      have marked : disableLine (afterReply s f rest .format) (lineOf f) .afterCall =
          (afterReply s f rest .format).setLine (lineOf f) { s.line (lineOf f) with disablePending := true } := by
        simp only [disableLine, callOn_afterReply, hc]
        exact State.modLine_eq ..
      have run := lineDisable_eq h .afterCall
      rw [marked, State.line_setLine_self, replied_setLine] at run
      exact run
    case now =>
      let u := (afterReply s f rest .format).setLine (lineOf f) { s.line (lineOf f) with disablePending := true }
      have ended : disableLine (afterReply s f rest .format) (lineOf f) .now = endCall u (lineOf f) .lineDisabled := by
        simp only [disableLine, callOn_afterReply, hc]
        rfl
      have run := lineDisable_eq h .now
      rw [ended] at run
      have there : u.callOn (lineOf f) = some c := (State.callOn_setLine_self _ _ _).trans hc
      have alone : EndedAlone s (endCall u (lineOf f) .lineDisabled) (lineOf f) c .lineDisabled :=
        endCallWith_alone (endFuel_within 48) (fun m ne => State.line_setLine_ne _ _ ne) there rfl (by rw [attachOf, attachOf, there, hc]) running
          (by simpa only [stepDue, there, hc] using notDue) (.inl (by decide))
      exact ⟨_, run, alone⟩
  case refused => exact congrArg Host.Outcome.next (takeReplied_bad h (by decide) (fun _ => linesFittedBad n) _ (linesFittedBad_some bad))
  all_goals have run := takeReplied_good h (by decide) (fun s => (setFitted s n, .done (.count (endedCount s (setFitted s n))))) (linesFittedBad_none least most)
  case raised =>
    have stays : setFitted (afterReply s f rest .format) n = { afterReply s f rest .format with fitted := n } := if_neg (Nat.not_lt.2 raised)
    have none : endedCount (afterReply s f rest .format) { afterReply s f rest .format with fitted := n } = 0 := endedCount_same rfl
    simp only [stays, none] at run
    refine (congrArg Host.Outcome.next run).trans (congrArg Host.Outcome.next ?_)
    exact congrArg (fun u : State => { u with fitted := n }) (setPriority_afterReply s f rest .format (.done (.count 0)))
  case lowered =>
    obtain ⟨fitted, off, ended, kept⟩ := setFitted_lines (s := afterReply s f rest .format) less still
    exact ⟨_, congrArg Host.Outcome.next run, fitted, off, ended, kept⟩

end Sys2Proof.Machine
end

section
/-! SUPPORT. The service opened and closed (R181, R182). -/

namespace Sys2Proof.Machine

variable {s t u : State} {l m : LineNo} {c d : Call} {f : InFrame} {rest : List InFrame} {cause : EndCause} {mode : CloseMode}
  {ls : List LineNo} {xs : List (LineNo × Phase)}

/-! ### SERVICE OPEN (R181) -/

theorem serviceOpen_eq (h : Requested s 0x01 f rest) : Completes .serviceOpen s
    (setPriority (openService (afterReply s f rest .format)).1 s.hli.prio.length (replyTo f (openService (afterReply s f rest .format)).2)) :=
  congrArg Host.Outcome.next (takeReplied_eq h (by decide) _)

theorem ready_iff (s : State) : ready s = true ↔ s.ctu.isSet = true ∧ s.ctu.generation ≠ 0 ∧ 1 ≤ s.acc.size := by
  simp [ready, Nat.one_le_iff_ne_zero, and_assoc]

/-- The service in state OPEN, nothing else being changed. -/
theorem openService_opens (s : State) (h : s.sfu.service = .opened ∨ (∃ m, s.sfu.service = .closing m) ∨ s.sfu.service = .halted ∧ ready s = true) :
    openService s = (s.setService .opened, .done (.service .opened)) := by
  rcases h with opened | ⟨m, closing⟩ | ⟨halted, ready⟩
  · have same : s.setService .opened = s := by rw [State.setService, ← opened]
    simp [openService, opened, same]
  · simp [openService, closing]
  · simp [openService, halted, ready]

/-! ### The lines that are not serving a call, when the service leaves OPEN (R33) -/

theorem leaveOpenLine_eq (s : State) (l : LineNo) : ∃ x, leaveOpenLine s l = s.setLine l x ∧ x.call = (s.line l).call ∧ ¬ x.Ringing := by
  unfold leaveOpenLine
  split
  · exact ⟨_, State.modLine_eq s l _, rfl, by simp [Line.Ringing]⟩
  · exact ⟨_, dropBare_eq s l, rfl, by simp [Line.Ringing, droppedLine]⟩
  · next ring answer => exact ⟨s.line l, (State.setLine_line s l).symm, rfl, fun h => h.elim ring answer⟩

theorem leaveOpenLine_callOn (s : State) (l m : LineNo) : (leaveOpenLine s l).callOn m = s.callOn m := by
  obtain ⟨x, eq, call, -⟩ := leaveOpenLine_eq s l
  rw [eq, State.callOn_eq, State.callOn_eq]
  by_cases same : m = l
  · rw [same, State.line_setLine_self, call]
  · rw [State.line_setLine_ne s x same]

theorem leaveOpenLines_callOn (s : State) (ls : List LineNo) (m : LineNo) : (ls.foldl leaveOpenLine s).callOn m = s.callOn m := by
  induction ls generalizing s with
  | nil => rfl
  | cons l ls ih => exact (ih _).trans (leaveOpenLine_callOn s l m)

/-- No line is rung or answered once the service has left OPEN (R33). -/
theorem leaveOpenLines_ringing (mem : l ∈ ls ∨ ¬ (s.line l).Ringing) : ¬ ((ls.foldl leaveOpenLine s).line l).Ringing := by
  induction ls generalizing s with
  | nil => exact mem.resolve_left (List.not_mem_nil)
  | cons k ls ih =>
    obtain ⟨x, eq, -, quiet⟩ := leaveOpenLine_eq s k
    refine ih ?_
    by_cases same : l = k
    · subst same
      exact .inr (by rwa [eq, State.line_setLine_self])
    · rw [eq, State.line_setLine_ne s x same]
      exact mem.imp (fun inside => (List.mem_cons.1 inside).resolve_left same) id

/-! ### SERVICE CLOSE (R182) -/

theorem ClosingOrDone.haltIfDone (h : ClosingOrDone mode s) : ClosingOrDone mode (haltIfDone s) := by
  rcases h with ⟨closing, there⟩ | ⟨halted, none⟩
  · rw [haltIfDone_left closing ((anyCall_iff s).2 there)]
    exact .inl ⟨closing, there⟩
  · rw [haltIfDone_done halted]
    exact .inr ⟨halted, none⟩

theorem endAll_steady (still : ∀ l, stepDue s l = false) (ls : List LineNo) (cause : EndCause) : Steady s (endAll s ls cause) :=
  (endAll_within (T := fun _ => True) still (fun _ _ _ _ _ _ _ => trivial) fun _ _ _ => trivial).steady

/-- A part that is closing has halted once no call record is left (R182). -/
theorem closing_done (still : ∀ l, stepDue s l = false) (closing : s.sfu.service = .closing mode) (ls : List LineNo) (cause : EndCause) :
    ClosingOrDone mode (haltIfDone (endAll s ls cause)) := by
  by_cases there : ∃ l, (s.callOn l).isSome = true
  · exact ((endAll_steady still ls cause).closing mode (.inl ⟨closing, there⟩)).haltIfDone
  · have none : runningOf s ls = [] := by
      refine List.eq_nil_iff_forall_not_mem.2 fun x mem => ?_
      obtain ⟨-, c, hc, -⟩ := mem_runningOf.1 mem
      exact there ⟨x.1, by rw [hc]; rfl⟩
    rw [endAll_eq still, none]
    exact haltIfDone_closing closing

theorem foldl_line {α : Type} {f : State → α → State} (as : List α) (step : ∀ t, ∀ a ∈ as, (f t a).line l = t.line l) (s : State) :
    (as.foldl f s).line l = s.line l := by
  induction as generalizing s with
  | nil => rfl
  | cons a as ih => exact (ih (fun t b mem => step t b (List.mem_cons_of_mem a mem)) _).trans (step s a List.mem_cons_self)

/-- The ending of calls that are not connected changes their own lines alone. -/
theorem endAll_elsewhere (still : ∀ l, stepDue s l = false) (out : l ∉ ls) (phases : ∀ m ∈ ls, s.phaseIs m .connected = false) (cause : EndCause) :
    (endAll s ls cause).line l = s.line l := by
  have apart (x : LineNo × Phase) (mem : x ∈ runningOf s ls) : l ≠ x.1 ∧ x.2 ≠ .connected := by
    obtain ⟨inside, c, hc, -, phase⟩ := mem_runningOf.1 mem
    refine ⟨fun same => out (same ▸ inside), fun connected => ?_⟩
    have := phases x.1 inside
    simp [State.phaseIs, hc, phase, connected] at this
  rw [endAll_eq still, foldl_line _ fun t x mem => ?works, markAll, foldl_line _ fun t x mem => ?marks]
  case works => exact ((endingWork_local _ t x.1 (apart x mem).2).trans (lineStrand_local _ _ _ _ _)).others l (apart x mem).1
  case marks => exact State.line_modCall_ne _ _ (apart x mem).1

theorem closingMode_eq (was : ServiceState) (mode : CloseMode) :
    closingMode was mode = if was = .closing .endCalls then .endCalls else mode := by
  unfold closingMode
  split
  · exact (if_pos rfl).symm
  · next other => exact (if_neg other).symm

/-- The part as it leaves OPEN, and as it starts to close (R33, R182). -/
def startClosing (s : State) (was : ServiceState) (m : CloseMode) : State :=
  (if was = .opened then allLines.foldl leaveOpenLine s else s).setService (.closing m)

theorem callOn_setService (s : State) (x : ServiceState) (l : LineNo) : (s.setService x).callOn l = s.callOn l := rfl

theorem line_setService (s : State) (x : ServiceState) (l : LineNo) : (s.setService x).line l = s.line l := rfl

theorem startClosing_callOn (s : State) (was : ServiceState) (m : CloseMode) (l : LineNo) : (startClosing s was m).callOn l = s.callOn l := by
  rw [startClosing, callOn_setService]
  split
  · exact leaveOpenLines_callOn s allLines l
  · rfl

/-- The part once its calls are ended (R182). -/
def closedTo (s : State) (was : ServiceState) (m : CloseMode) : State :=
  haltIfDone (endAll (startClosing s was m) (allLines.filter fun l => closeReaches (startClosing s was m) m l) .serviceEnd)

theorem closeFrom_eq (s : State) (was : ServiceState) (mode : CloseMode) :
    (closeFrom s was mode).1 = closedTo s was (closingMode was mode) := rfl

/-- What a close leaves of the service state, the lines and the calls (R33, R182). -/
theorem closedTo_spec (s : State) (was : ServiceState) (m : CloseMode) (still : ∀ l, stepDue s l = false) :
    ClosingOrDone m (closedTo s was m) ∧
      (was = .opened → ∀ l, ¬ ((closedTo s was m).line l).Ringing) ∧
      (∀ l c, s.callOn l = some c → c.endCause = none → (m = .endCalls ∨ c.phase = .lookup ∨ c.phase = .queued) →
        CarriesCause (closedTo s was m) l c .serviceEnd) ∧
      (m = .finish → ∀ l, s.phaseIs l .lookup = false → s.phaseIs l .queued = false → (closedTo s was m).callOn l = s.callOn l) := by
  have same := startClosing_callOn s was m
  have phase (l : LineNo) (p : Phase) : (startClosing s was m).phaseIs l p = s.phaseIs l p := by simp only [State.phaseIs, same]
  have quiet (l : LineNo) : stepDue (startClosing s was m) l = false := by simpa only [stepDue, same] using still l
  refine ⟨closing_done quiet rfl _ _, fun opened l ringing => ?ringing, fun l c hc running reached => ?ended, fun finish l lookup queued => ?kept⟩
  case ringing =>
    rw [closedTo, haltIfDone_line] at ringing
    have before := (endAll_steady quiet _ _).ringing l ringing
    rw [startClosing, line_setService, if_pos opened] at before
    exact leaveOpenLines_ringing (s := s) (.inl (mem_allLines l)) before
  case ended =>
    have reaches : closeReaches (startClosing s was m) m l = true := by
      cases m with
      | endCalls => simp [closeReaches, same, hc]
      | finish =>
        have going := reached.resolve_left (by decide)
        simpa [closeReaches, State.phaseIs, same, hc] using going
    have carries : CarriesCause (endAll (startClosing s was m) (allLines.filter fun l => closeReaches (startClosing s was m) m l) .serviceEnd)
        l c .serviceEnd :=
      endAll_carries quiet (allLines_nodup.filter _) (List.mem_filter.2 ⟨mem_allLines l, reaches⟩) ((same l).trans hc) running (by decide)
    exact carries.of_callOn_eq (haltIfDone_callOn _ l)
  case kept =>
    subst finish
    refine (haltIfDone_callOn _ l).trans ((congrArg Line.call ?_).trans (same l))
    refine endAll_elsewhere quiet (fun mem => ?_) (fun k mem => ?_) _
    · have := (List.mem_filter.1 mem).2
      simp [closeReaches, phase, lookup, queued] at this
    · have reached := (List.mem_filter.1 mem).2
      simp only [closeReaches, State.phaseIs] at reached ⊢
      cases h : (startClosing s was .finish).callOn k with
      | none => rfl
      | some c =>
        simp only [h, Bool.or_eq_true, decide_eq_true_iff] at reached
        rcases reached with p | p <;> simp [p]

theorem closeService_going (going : s.sfu.service ≠ .halted) (mode : CloseMode) : closeService s mode = closeFrom s s.sfu.service mode := by
  unfold closeService
  split
  · next halted => exact absurd halted going
  · rfl

/-- Settles O12, by the request and the service state. -/
theorem serviceIsOpenedAndClosed : Obligations.ServiceIsOpenedAndClosed := by
  refine ⟨fun s f rest h => ?opens, fun s f rest mode h => ⟨fun halted => ?halted, fun going still => ?closes⟩⟩
  case opens =>
    intro opened
    have opens (so : s.sfu.service = .opened ∨ (∃ m, s.sfu.service = .closing m) ∨ s.sfu.service = .halted ∧ ready s = true) :
        Completes .serviceOpen s opened := by
      have run := serviceOpen_eq h
      rw [openService_opens (afterReply s f rest .format) so] at run
      refine run.trans (congrArg Host.Outcome.next ?_)
      exact congrArg (fun u : State => { u with sfu := { s.sfu with service := .opened } }) (setPriority_afterReply s f rest .format _)
    refine ⟨fun so => opens (so.imp_right .inl), fun halted set tariff size => opens (.inr (.inr ⟨halted, (ready_iff s).2 ⟨set, tariff, size⟩⟩)),
      fun halted unready => ?refused⟩
    case refused =>
      have not : ready (afterReply s f rest .format) = false := by
        rw [← Bool.not_eq_true]
        intro isReady
        obtain ⟨set, tariff, size⟩ := (ready_iff s).1 isReady
        rcases unready with off | none | empty
        · exact absurd (set.symm.trans off) (by decide)
        · exact tariff none
        · omega
      have refuses : openService (afterReply s f rest .format) = (afterReply s f rest .format,
          .refused .notReady (.notReady (!s.ctu.isSet) (decide (s.ctu.generation = 0)) (decide (s.acc.size = 0)))) := by
        have halted' : (afterReply s f rest .format).sfu.service = .halted := halted
        simp only [openService, halted', not]
        rfl
      have run := serviceOpen_eq h
      rw [refuses, setPriority_afterReply] at run
      exact run
  all_goals have run : Completes (.serviceClose mode) s _ := congrArg Host.Outcome.next (takeReplied_eq h (by decide) fun _ s => closeService s mode)
  case halted =>
    have nothing : closeService (afterReply s f rest .format) mode = (afterReply s f rest .format, .done (.closed 0 .halted)) := by
      have halted' : (afterReply s f rest .format).sfu.service = .halted := halted
      simp only [closeService, halted']
    rw [nothing, setPriority_afterReply] at run
    exact run
  case closes =>
    intro m
    rw [closeService_going (s := afterReply s f rest .format) going, closeFrom_eq, closingMode_eq] at run
    obtain ⟨done, ringing, ended, kept⟩ := closedTo_spec (afterReply s f rest .format) s.sfu.service m still
    change Completes _ _ (setPriority (closedTo (afterReply s f rest .format) s.sfu.service m) _ _) at run
    generalize closedTo (afterReply s f rest .format) s.sfu.service m = v at run done ringing ended kept
    refine ⟨_, run, fun none => ?_, fun there => ?_, fun opened l => ?_, ended, kept⟩
    · rcases done with ⟨-, l, there⟩ | ⟨halted, -⟩
      · exact absurd there (by rw [show v.callOn l = _ from none l]; decide)
      · exact halted
    · rcases done with ⟨closing, -⟩ | ⟨-, none⟩
      · exact closing
      · obtain ⟨l, on⟩ := there
        have on' : (v.callOn l).isSome = true := on
        exact absurd on' (by rw [none l]; decide)
    · exact not_or.1 (ringing opened l)

end Sys2Proof.Machine
end

section
/-! SUPPORT. Pending end causes and their texts, and the passes that reach every call (R25, R27, R143). -/

namespace Sys2Proof.Machine

variable {s t u : State} {l m : LineNo} {x : Line} {c d : Call} {e : Entry} {at' : FrameNo × EntryNo} {kind : PendingKind} {grace : Interval}
  {endIt : Ender} {texts more : List (List Byte)} {T : LineNo → Prop} {f : State → LineNo → State}

/-! ### Texts sent to a call (R25, R59, R130) -/

/-- The phases in which a rule's texts reach a call. -/
def Hearing (c : Call) : Prop := c.phase = .queued ∨ c.phase = .opening ∨ c.phase = .connected

theorem hearing_of_reachable (h : reachable c = true) : Hearing c := ((reachable_iff c).1 h).2

/-- The state in which the call on line `l` is `d`, and texts were dropped or not. -/
def textedTo (s : State) (l : LineNo) (d : Call) (drops : Nat) : State :=
  { s.setLine l { s.line l with call := some d } with soe := { s.soe with textDrops := drops } }

/-- Text that came to a call, or was dropped, leaves the call as it was but for the text. -/
def Texted (c d : Call) : Prop := ∃ buf notices, d = { c with txBuf := buf, notices := notices }

theorem Texted.refl (c : Call) : Texted c c := ⟨c.txBuf, c.notices, rfl⟩

theorem Texted.trans {a b c : Call} (h : Texted a b) (k : Texted b c) : Texted a c := by
  obtain ⟨_, _, rfl⟩ := h
  obtain ⟨buf, notices, rfl⟩ := k
  exact ⟨buf, notices, rfl⟩

theorem textedTo_self (hc : s.callOn l = some c) : textedTo s l c s.soe.textDrops = s := by
  rw [textedTo, ← show (s.line l).call = some c from hc, State.setLine_line]

theorem sendText_texted (hc : s.callOn l = some c) (slot : Fin 24) (n : Option Nat) :
    ∃ d drops, Texted c d ∧ sendText s l slot n = textedTo s l d drops := by
  have same : ∃ d drops, Texted c d ∧ s = textedTo s l d drops := ⟨c, _, .refl c, (textedTo_self hc).symm⟩
  unfold sendText
  rw [hc]
  dsimp only
  split
  · unfold queueNotice
    rw [hc]
    split
    · exact same
    · dsimp only
      split
      · exact ⟨_, s.soe.textDrops, ⟨c.txBuf, _, rfl⟩, State.modCall_eq hc _⟩
      · exact ⟨c, bump s.soe.textDrops, .refl c, congrArg (fun u : State => { u with soe := { s.soe with textDrops := bump s.soe.textDrops } }) (textedTo_self hc).symm⟩
  · obtain ⟨buf, drops, eq⟩ := placeText_placed hc slot n
    exact ⟨_, drops, ⟨buf, c.notices, rfl⟩, eq⟩
  · obtain ⟨buf, drops, eq⟩ := placeText_placed hc slot n
    exact ⟨_, drops, ⟨buf, c.notices, rfl⟩, eq⟩
  · exact same

theorem sentTexts_phase (d : Call) (texts : List (List Byte)) : (sentTexts d texts).phase = d.phase := by
  unfold sentTexts
  split
  · rfl
  · rfl

/-- A text that finds room reaches the call (R59, R130). -/
theorem sendText_room (hc : s.callOn l = some c) (hears : Hearing c) (slot : Fin 24) (n : Option Nat)
    (room : HasRoom c [textChars s slot n]) :
    sendText s l slot n = s.setLine l { s.line l with call := some (sentTexts c [textChars s slot n]) } := by
  have self : s.setLine l { s.line l with call := some c } = s := by rw [← show (s.line l).call = some c from hc, State.setLine_line]
  by_cases connected : c.phase = .connected
  · rw [HasRoom, if_pos connected] at room
    rw [sentTexts, if_pos connected]
    have queue : sendText s l slot n = queueNotice s l slot n := by simp only [sendText, hc, connected]
    rw [queue]
    simp only [queueNotice, hc]
    by_cases empty : textChars s slot n = []
    · rw [if_pos empty, empty]
      simpa using self.symm
    · have few : c.notices.length < Config.noticeDepth := by simpa [empty, Config.noticeDepth] using room
      rw [if_neg empty, if_pos few, State.modCall_eq hc]
      simp [empty]
  · rw [HasRoom, if_neg connected] at room
    rw [sentTexts, if_neg connected]
    have place : sendText s l slot n = placeText s l slot n := by
      rcases hears with phase | phase | phase
      · simp only [sendText, hc, phase]
      · simp only [sendText, hc, phase]
      · exact absurd phase connected
    rw [place, placeText]
    by_cases empty : textChars s slot n = []
    · rw [if_pos empty, empty]
      simpa [placed] using self.symm
    · simp only [List.map_cons, List.map_nil, List.flatten_cons, List.flatten_nil, List.append_nil, placed, if_neg empty] at room ⊢
      exact placeChars_room _ hc room

/-! ### A pending cause added or removed (R25, R27) -/

theorem Pending.set_get (p : Pending) (kind : PendingKind) {n : Nat} (h : p.get kind = some n) : p.set kind (some n) = p := by
  cases kind <;> simp_all [Pending.get, Pending.set, ← h]

/-- The seconds that a call keeps, or is given, before a cause ends it (R25). -/
def leftOf (c : Call) (kind : PendingKind) (grace : Interval) : Nat := (c.pend.get kind).getD (intervalSecs grace)

/-- The call that has taken a pending cause (R25). -/
def givenCause (c : Call) (kind : PendingKind) (grace : Interval) : Call :=
  { c with pend := c.pend.set kind (some (leftOf c kind grace)), graceEntered := c.graceEntered || (c.pend.get kind).isNone }

theorem addCause_eq (hc : s.callOn l = some c) (reach : reachable c = true) (on : 1 ≤ grace.count) :
    addCause endIt s l kind grace =
      sendText (s.setLine l { s.line l with call := some (givenCause c kind grace) }) l (pendingText kind)
        (some (wholeMinutes (leftOf c kind grace))) := by
  unfold addCause
  rw [hc]
  dsimp only
  rw [if_neg (by simp [reach]), if_neg (Nat.one_le_iff_ne_zero.1 on)]
  split
  · next n there =>
    have given : givenCause c kind grace = c := by
      rw [givenCause, leftOf, there, Option.getD_some, Pending.set_get _ _ there]
      simp
    have left : leftOf c kind grace = n := by rw [leftOf, there, Option.getD_some]
    rw [given, left, ← show (s.line l).call = some c from hc, State.setLine_line]
    rfl
  · next there =>
    have given : givenCause c kind grace = { c with pend := c.pend.set kind (some (intervalSecs grace)), graceEntered := true } := by
      simp [givenCause, leftOf, there]
    have left : leftOf c kind grace = intervalSecs grace := by rw [leftOf, there, Option.getD_none]
    rw [given, left, State.modCall_eq hc]
    rfl

theorem addCause_room (hc : s.callOn l = some c) (reach : reachable c = true) (on : 1 ≤ grace.count)
    (room : HasRoom (givenCause c kind grace) [numbered s (pendingText kind) (wholeMinutes (leftOf c kind grace))]) :
    addCause endIt s l kind grace = s.setLine l { s.line l with
      call := some (sentTexts (givenCause c kind grace) [numbered s (pendingText kind) (wholeMinutes (leftOf c kind grace))]) } := by
  have sent := sendText_room (s := s.setLine l { s.line l with call := some (givenCause c kind grace) }) (State.callOn_setLine_self s l _)
    (hearing_of_reachable reach : Hearing (givenCause c kind grace)) (pendingText kind) (some (wholeMinutes (leftOf c kind grace))) room
  rw [State.line_setLine_self, State.setLine_setLine] at sent
  exact (addCause_eq hc reach on).trans sent

theorem addCause_texted (hc : s.callOn l = some c) (reach : reachable c = true) (on : 1 ≤ grace.count) :
    ∃ d drops, Texted (givenCause c kind grace) d ∧ addCause endIt s l kind grace = textedTo s l d drops := by
  obtain ⟨d, drops, texted, eq⟩ := sendText_texted (State.callOn_setLine_self s l { s.line l with call := some (givenCause c kind grace) })
    (pendingText kind) (some (wholeMinutes (leftOf c kind grace)))
  refine ⟨d, drops, texted, (addCause_eq hc reach on).trans (eq.trans ?_)⟩
  rw [textedTo, State.line_setLine_self, State.setLine_setLine]
  rfl

theorem addCause_ends (hc : s.callOn l = some c) (reach : reachable c = true) (off : grace.count = 0) :
    addCause endIt s l kind grace = endIt s l (pendingCause kind) := by
  simp [addCause, hc, reach, off]

theorem removeCause_eq (hc : s.callOn l = some c) :
    removeCause s l kind = s.setLine l { s.line l with call := some { c with pend := c.pend.set kind none } } := State.modCall_eq hc _

/-! ### Calls that no evaluation reaches (R159) -/

/-- The call on line `l` is attached to no entry with a limit. -/
def Free (s : State) (l : LineNo) : Prop := ∀ a, attachOf s l = some a → ¬ Limited s a

theorem Free.steady (h : Free s l) (steady : Steady s t) : Free t l :=
  fun a on limited => h a (steady.attached l a on) (Limited.of_steady steady limited)

theorem Free.untouched (h : Free s l) : Untouched s l := by
  intro a limited
  by_contra reached
  obtain ⟨c, hc, -, attach⟩ := (evaluationReaches_iff s a l).1 (Bool.not_eq_false _ ▸ reached)
  exact h a (by rw [attachOf, hc, Option.bind_some, attach]) limited

theorem Unlimited.free (hc : s.callOn l = some c) (h : Unlimited s c at' e) : Free s l := by
  rintro a on ⟨e', there, some⟩
  rw [attachOf, hc, Option.bind_some, h.attach_eq] at on
  obtain rfl := Option.some.inj on
  exact some (Option.some.inj (there.symm.trans h.entry_eq) ▸ h.no_limit)

/-- An operation on a line that touches no line beyond the accounts it starts from. -/
def Contained (f : State → LineNo → State) : Prop := ∀ T s m, Closed T s → T m → Within T s (f s m)

/-- A pass over every line leaves a call that no evaluation reaches to its own step. -/
theorem pass_split (contained : Contained f) (free : Free s l) :
    ∃ u, Within (· ≠ l) s u ∧ Within (· ≠ l) (f u l) (allLines.foldl f s) := by
  obtain ⟨before, after, split⟩ := List.append_of_mem (mem_allLines l)
  have nodup := allLines_nodup
  rw [split] at nodup
  obtain ⟨-, tail, apart⟩ := List.nodup_append.1 nodup
  have others {v : State} (free : Free v l) (ls : List LineNo) (out : ∀ m ∈ ls, m ≠ l) : Within (· ≠ l) v (ls.foldl f v) :=
    Within.foldl_mem ls (fun w so m mem => contained _ w m (free.steady so.steady).untouched.closed (out m mem)) (.refl _ v)
  have first := others free before fun m mem => apart m mem l List.mem_cons_self
  have own : Within (fun _ => True) (before.foldl f s) (f (before.foldl f s) l) := contained _ _ l (fun _ _ _ _ _ _ _ => trivial) trivial
  refine ⟨before.foldl f s, first, ?_⟩
  rw [split, List.foldl_append, List.foldl_cons]
  exact others ((free.steady first.steady).steady own.steady) after fun m mem same => (List.nodup_cons.1 tail).1 (same ▸ mem)

theorem pass_within (contained : Contained f) (closed : Closed T s) (all : ∀ m, T m) : Within T s (allLines.foldl f s) :=
  Within.foldl (fun u so m => contained T u m (closed.within so) (all m)) allLines (.refl T s)

/-- What a pass leaves untouched of the other lines' calls alone is seen in the state before it. -/
theorem Within.entryOf (h : Within T s t) {a : FrameNo × EntryNo} (he : s.entryAt a = some e) : ∃ e', t.entryAt a = some e' ∧ e'.fixed = e.fixed := by
  have fixed := h.steady.entries a
  rw [he, Option.map_some, Option.map_eq_some_iff] at fixed
  exact fixed

end Sys2Proof.Machine
end

section
/-! SUPPORT. The band, its evaluation, and the tariff switch (R141 to R143). -/

namespace Sys2Proof.Machine

variable {s t u v : State} {l m : LineNo} {c d : Call} {e : Entry} {at' : FrameNo × EntryNo} {b : BandNo} {T : LineNo → Prop}

/-! ### What a band change does to one call (R143) -/

theorem bandChangeCall_contained (b : BandNo) : Contained fun s l => bandChangeCall s b l := by
  intro T s m closed inside
  dsimp only
  unfold bandChangeCall
  split
  · exact .refl T s
  · refine .ite (fun _ => .refl T s) fun _ => ?_
    split
    · exact .refl T s
    · exact .ite (fun _ => removeCause_within s m .hours inside) fun _ => addCause_within endCall_within closed inside .hours _

theorem bandChangeCall_eq (hc : s.callOn l = some c) (reach : reachable c = true) (attach : c.attach = some at') (he : s.entryAt at' = some e)
    (b : BandNo) : bandChangeCall s b l =
      if e.bandMask.getLsbD b.val = true then removeCause s l .hours else addCause endCall s l .hours (hoursGraceOf s c) := by
  have entry : s.entryOfCall l = some e := by simp [State.entryOfCall, hc, attach, he]
  unfold bandChangeCall
  rw [hc]
  dsimp only
  rw [if_neg (by simp [reach]), entry]

theorem Reached.reachable (h : Reached s l d at') : reachable d = true :=
  (reachable_iff d).2 ⟨by rw [h.attach_eq]; rfl, h.phase⟩

/-! ### The evaluation of the band (R142) -/

theorem evaluateBand_same (same : evaluatedBand s.ctu = s.ctu.band) : evaluateBand s = s := if_pos same

/-- The part under the band that its clock and tariff give (R142). -/
def rebanded (s : State) : State := { s with ctu := { s.ctu with band := evaluatedBand s.ctu, bandChanges := bump s.ctu.bandChanges } }

theorem evaluateBand_none (none : evaluatedBand s.ctu = none) (changed : evaluatedBand s.ctu ≠ s.ctu.band) : evaluateBand s = rebanded s := by
  refine (if_neg changed).trans ?_
  rw [none]
  exact congrArg (fun b => { s with ctu := { s.ctu with band := b, bandChanges := bump s.ctu.bandChanges } }) none.symm

theorem evaluateBand_some (some : evaluatedBand s.ctu = some b) (changed : evaluatedBand s.ctu ≠ s.ctu.band) :
    evaluateBand s = allLines.foldl (fun s l => bandChangeCall s b l) (rebanded s) := by
  refine (if_neg changed).trans ?_
  rw [rebanded]
  simp only [some]

/-- The clock and the tariff once the band is evaluated (R142). -/
def bandedCtu (c : Ctu) : Ctu :=
  { c with band := evaluatedBand c, bandChanges := if evaluatedBand c = c.band then c.bandChanges else bump c.bandChanges }

theorem evaluateBand_within (s : State) : Within (fun _ => True) { s with ctu := bandedCtu s.ctu } (evaluateBand s) := by
  by_cases same : evaluatedBand s.ctu = s.ctu.band
  · have stays : bandedCtu s.ctu = s.ctu := by rw [bandedCtu, if_pos same, same]
    rw [evaluateBand_same same, stays]
    exact .refl _ s
  · have moves : ({ s with ctu := bandedCtu s.ctu } : State) = rebanded s := by rw [bandedCtu, if_neg same, rebanded]
    rw [moves]
    cases band : evaluatedBand s.ctu with
    | none =>
      rw [evaluateBand_none band same]
      exact .refl _ _
    | some b =>
      rw [evaluateBand_some band same]
      exact pass_within (bandChangeCall_contained b) (fun _ _ _ _ _ _ _ => trivial) fun _ => trivial

theorem evaluateBand_ctu (s : State) : (evaluateBand s).ctu = bandedCtu s.ctu := (evaluateBand_within s).keeps.ctu

theorem hoursGraceOf_eq {k : ClassNo} (cls : c.cls = some k) : hoursGraceOf s c = s.adm.classes[k].hoursGrace := by
  have own : c.classNow = k := by simp [Call.classNow, cls]
  simp only [hoursGraceOf, own]

/-- A band change acts on each call whose charges are not watched as R143 says. -/
theorem evaluateBand_hours (s : State) : HoursFollowBand s (evaluateBand s) := by
  intro l d at' e k reached unlimited cls running notDue grace left text
  have band : (evaluateBand s).ctu.band = evaluatedBand s.ctu := by rw [evaluateBand_ctu, bandedCtu]
  rw [band]
  refine ⟨fun stands => ?stands, fun b now changed => ?moves⟩
  case stands =>
    by_cases same : evaluatedBand s.ctu = s.ctu.band
    · rw [evaluateBand_same same]
    · rw [evaluateBand_none (stands.resolve_left same) same]
      rfl
  case moves =>
    rw [evaluateBand_some now fun same => changed (same.symm.trans now)]
    obtain ⟨u, before, after⟩ := pass_split (f := fun s l => bandChangeCall s b l) (s := rebanded s) (bandChangeCall_contained b)
      (Unlimited.free (l := l) reached.call_eq ⟨unlimited.attach_eq, unlimited.entry_eq, unlimited.no_limit⟩)
    have line : u.line l = s.line l := before.lines l fun h => h rfl
    have hu : u.callOn l = some d := (congrArg Line.call line).trans reached.call_eq
    obtain ⟨e', he', fixed⟩ := before.entryOf (s := rebanded s) (a := at') unlimited.entry_eq
    have mask : e'.bandMask = e.bandMask := (congrArg Entry.bandMask fixed :)
    have own := bandChangeCall_eq hu reached.reachable reached.attach_eq he' b
    have graced : hoursGraceOf u d = grace := by
      rw [hoursGraceOf_eq cls, before.keeps.classes]
      rfl
    have final : (allLines.foldl (fun s l => bandChangeCall s b l) (rebanded s)).line l = (bandChangeCall u b l).line l := after.lines l fun h => h rfl
    rw [mask, graced] at own
    refine ⟨fun admits => ?admits, fun excludes ends => ?ends, fun excludes graces room => ?graces⟩
    case admits =>
      rw [final, own, if_pos admits, removeCause_eq hu, State.line_setLine_self, line]
      rfl
    case ends =>
      rw [if_neg (by rw [excludes]; decide), addCause_ends hu reached.reachable ends] at own
      have notDue' : stepDue u l = false := by simpa only [stepDue, State.callOn, line] using notDue
      have carries : CarriesCause (endCall u l .hours) l d .hours :=
        endCallWith_carries (endFuel_within 48) hu running notDue' (.inl (by decide)) false
      exact (own ▸ carries : CarriesCause (bandChangeCall u b l) l d .hours).of_callOn_eq (congrArg Line.call final)
    case graces =>
      have words : numbered u 13 (wholeMinutes left) = numbered s 13 (wholeMinutes left) := by
        rw [numbered, before.keeps.texts]
        rfl
      have room' : HasRoom (givenCause d .hours grace) [numbered u 13 (wholeMinutes left)] := by
        rw [words]
        exact room
      rw [if_neg (by rw [excludes]; decide), addCause_room hu reached.reachable graces room'] at own
      rw [final, own, State.line_setLine_self, line]
      change _ = { s.line l with call := some (sentTexts (givenCause d .hours grace) [numbered s 13 (wholeMinutes left)]) }
      rw [← words]
      rfl

/-- What the statement speaks of before the event is the lines, the accounts, the classes, the texts and the band, and after it
the lines and the band. -/
theorem HoursFollowBand.of_same (h : HoursFollowBand u v) (lines : u.lines = s.lines) (acc : u.acc = s.acc) (adm : u.adm = s.adm) (soe : u.soe = s.soe)
    (band : u.ctu.band = s.ctu.band) (lines' : t.lines = v.lines) (band' : t.ctu.band = v.ctu.band) : HoursFollowBand s t := by
  have line (l : LineNo) : u.line l = s.line l := by rw [State.line, lines, State.line]
  have line' (l : LineNo) : t.line l = v.line l := by rw [State.line, lines', State.line]
  have call (l : LineNo) : u.callOn l = s.callOn l := by rw [State.callOn, line, State.callOn]
  intro l d at' e k reached unlimited cls running notDue
  have entry : u.entryAt at' = some e := by
    rw [State.entryAt, State.frame, acc]
    exact unlimited.entry_eq
  have out := h l d at' e k ⟨(call l).trans reached.call_eq, reached.attach_eq, reached.phase⟩ ⟨unlimited.attach_eq, entry, unlimited.no_limit⟩
    cls running (by rw [stepDue, call, ← stepDue]; exact notDue)
  have words (n : Nat) : numbered u 13 n = numbered s 13 n := by rw [numbered, soe, numbered]
  have same : t.callOn l = v.callOn l := congrArg Line.call (line' l)
  simp only [adm, band, line, words] at out
  intro grace left text
  rw [line', band']
  refine ⟨out.1, fun b now changed => ?_⟩
  obtain ⟨admits, ends, graces⟩ := out.2 b now changed
  exact ⟨admits, fun excludes off => (ends excludes off).of_callOn_eq same, graces⟩

end Sys2Proof.Machine
end

section
/-! SUPPORT. Tariffs loaded and switched (R139 to R141). -/

namespace Sys2Proof.Machine

variable {s t u v : State} {f : InFrame} {rest : List InFrame} {i : Nat}

/-! ### TARIFF LOAD (R139, R140) -/

theorem ratesOk_iff (t : Tariff) : ratesOk t = true ↔ ∀ k : BandNo, k.val < t.bandCount → t.rates[k] ≤ 4095 := by
  simp [ratesOk, imp_iff_not_or]

theorem startsOk_iff (t : Tariff) : startsOk t = true ↔ t.starts[0] = 0 ∧ ∀ k : BandNo, k.val < t.bandCount →
    t.starts[k] ≤ 1439 ∧ ∀ j : BandNo, j < k → t.starts[j] < t.starts[k] := by
  have step : startsOk t = true ↔ t.starts[0] = 0 ∧ ∀ k : BandNo, k.val < t.bandCount →
      t.starts[k] ≤ 1439 ∧ (k.val = 0 ∨ t.starts[k.val - 1] < t.starts[k]) := by
    simp only [startsOk, Bool.and_eq_true, decide_eq_true_iff, List.all_eq_true, Bool.or_eq_true, Bool.not_eq_true', decide_eq_false_iff_not,
      beq_iff_eq, List.mem_finRange, true_implies, ← imp_iff_not_or]
  rw [step]
  refine and_congr_right fun _ => ⟨fun each k fitted => ⟨(each k fitted).1, ?_⟩, fun all k fitted => ⟨(all k fitted).1, ?_⟩⟩
  · have rises (n : Nat) (h : n < 8) (fitted : n < t.bandCount) (j : Nat) (less : j < n) : t.starts[j] < t.starts[n] := by
      induction n with
      | zero => exact absurd less (Nat.not_lt_zero j)
      | succ n ih =>
        have last : t.starts[n] < t.starts[n + 1] := (each ⟨n + 1, h⟩ fitted).2.resolve_left (Nat.succ_ne_zero n)
        rcases Nat.lt_succ_iff_lt_or_eq.1 less with earlier | rfl
        · exact (ih (by omega) (by omega) earlier).trans last
        · exact last
    exact fun j less => rises k.val k.isLt fitted j.val less
  · by_cases first : k.val = 0
    · exact .inl first
    · exact .inr ((all k fitted).2 ⟨k.val - 1, by omega⟩ (show k.val - 1 < k.val by omega))

/-- The ranges and combinations of a tariff's fields (Table 8.1). -/
def tariffGood (t : Tariff) (i : Nat) : Prop :=
  match i with
  | 0 => 1 ≤ t.bandCount ∧ t.bandCount ≤ 8
  | 1 => t.starts[0] = 0 ∧ ∀ k : BandNo, k.val < t.bandCount →
      t.starts[k] ≤ 1439 ∧ ∀ j : BandNo, j < k → t.starts[j] < t.starts[k]
  | 2 => ∀ k : BandNo, k.val < t.bandCount → t.rates[k] ≤ 4095
  | 3 => t.multS ≤ 1023
  | 4 => t.multM ≤ 1023
  | 5 => t.multF ≤ 1023
  | 6 => t.tier1 ≤ 65535
  | 7 => t.tier2 ≤ 65535 ∧ (1 ≤ t.tier1 → 1 ≤ t.tier2 → t.tier1 < t.tier2)
  | 8 => t.factor0 ≤ 1023
  | 9 => t.factor1 ≤ 1023
  | 10 => t.factor2 ≤ 1023
  | 11 => t.floor ≤ 4095
  | 13 => t.ceiling ≤ 4095 ∧ (t.floorOn = true → t.ceilingOn = true → t.floor ≤ t.ceiling)
  | 15 => 1 ≤ t.stepLength ∧ t.stepLength ≤ 60
  | 19 => t.activation = .timed → t.actDay ≤ 6
  | 20 => t.activation = .timed → t.actMinute ≤ 1439
  | _ => True

theorem untimed_iff (a : Activation) (p : Prop) [Decidable p] : (decide (a = .untimed) || decide p) = true ↔ (a = .timed → p) := by
  cases a <;> simp

theorem tiers_iff (a b : Nat) : (decide (a = 0) || decide (b = 0) || decide (a < b)) = true ↔ (1 ≤ a → 1 ≤ b → a < b) := by
  simp only [Bool.or_eq_true, decide_eq_true_iff]
  omega

theorem limits_iff (on on' : Bool) (p : Prop) [Decidable p] : (!(on && on') || decide p) = true ↔ (on = true → on' = true → p) := by
  cases on <;> cases on' <;> simp

theorem tariff_ranges (t : Tariff) : Ranges [(0, decide (1 ≤ t.bandCount) && decide (t.bandCount ≤ 8)), (1, startsOk t), (2, ratesOk t),
    (3, decide (t.multS ≤ 1023)), (4, decide (t.multM ≤ 1023)), (5, decide (t.multF ≤ 1023)),
    (6, decide (t.tier1 ≤ 65535)),
    (7, decide (t.tier2 ≤ 65535) && (decide (t.tier1 = 0) || decide (t.tier2 = 0) || decide (t.tier1 < t.tier2))),
    (8, decide (t.factor0 ≤ 1023)), (9, decide (t.factor1 ≤ 1023)), (10, decide (t.factor2 ≤ 1023)),
    (11, decide (t.floor ≤ 4095)),
    (13, decide (t.ceiling ≤ 4095) && (!(t.floorOn && t.ceilingOn) || decide (t.floor ≤ t.ceiling))),
    (15, decide (1 ≤ t.stepLength) && decide (t.stepLength ≤ 60)),
    (19, decide (t.activation = .untimed) || decide (t.actDay ≤ 6)),
    (20, decide (t.activation = .untimed) || decide (t.actMinute ≤ 1439))] (tariffGood t) := by
  refine ⟨?_, ?_⟩
  · simp only [List.map_cons, List.map_nil]
    decide
  · simp only [List.forall_mem_cons, Bool.and_eq_true, startsOk_iff, ratesOk_iff, untimed_iff, tiers_iff, limits_iff, decide_eq_true_iff, tariffGood]
    simp

theorem tariffGood_elsewhere (t : Tariff) (h : i ∉ [0, 1, 2, 3, 4, 5, 6, 7, 8, 9, 10, 11, 13, 15, 19, 20]) : tariffGood t i := by
  unfold tariffGood
  split <;> simp at h ⊢

theorem tariffBad_none (t : Tariff) (all : ∀ i, tariffGood t i) : tariffBad t = none := (tariff_ranges t).none all

theorem tariffBad_first (t : Tariff) (bad : ¬ tariffGood t i) (before : ∀ j, j < i → tariffGood t j) : tariffBad t = some i :=
  (tariff_ranges t).first (by_contra fun no => bad (tariffGood_elsewhere t no)) bad before

/-! ### TARIFF SWITCH (R141) -/

/-- The REPLY stands in the place that the take gave it, whatever frames come after it (R9). -/
theorem reply_stands (kept : (afterReply s f rest .format).hli.prio <+: u.hli.prio) (a : Answer) :
    (setPriority u s.hli.prio.length (replyTo f a)).hli.prio[s.hli.prio.length]? = some (replyTo f a) := by
  have longer := kept.length_le
  have inside : s.hli.prio.length < u.hli.prio.length := by
    rw [show (afterReply s f rest .format).hli.prio = s.hli.prio ++ [replyTo f .format] from rfl, List.length_append] at longer
    exact longer
  exact List.getElem?_set_self inside

/-- The clock and the tariffs once the pending tariff is current (R141). -/
def switchedCtu (c : Ctu) (p : Tariff) : Ctu :=
  { c with current := some p, waiting := none, generation := advanceNumber c.generation, switches := bump c.switches }

theorem switchTariff_eq {p : Tariff} (waiting : s.ctu.waiting = some p) :
    switchTariff s = evaluateBand { s with ctu := switchedCtu s.ctu p } := by
  simp only [switchTariff, waiting]
  rfl

/-- Settles O52, by the request. -/
theorem tariffsAreLoadedAndSwitched : Obligations.TariffsAreLoadedAndSwitched := by
  refine ⟨fun s f rest t h => ?load, fun s f rest h => ⟨fun none => ?none, fun p waiting => ?switch⟩⟩
  case load =>
    intro good
    refine ⟨fun all => ?_, fun i bad before => ?_⟩
    · have run := takeReplied_outcome h (by decide) (tariffBad_none t all)
        (carry := fun s => ({ s with ctu := { s.ctu with waiting := some t } }, .done (.replaced s.ctu.waiting.isSome))) rfl
      refine (congrArg Host.Outcome.next run).trans (congrArg Host.Outcome.next ?_)
      exact congrArg (fun u : State => { u with ctu := { s.ctu with waiting := some t } })
        (setPriority_afterReply s f rest .format (.done (.replaced s.ctu.waiting.isSome)))
    · exact congrArg Host.Outcome.next (takeReplied_bad h (by decide) (fun _ => tariffBad t) _ (tariffBad_first t bad before))
  all_goals have run := takeReplied_eq h (by decide) fun _ s => takeSwitch s
  case none =>
    have refuses : takeSwitch (afterReply s f rest .format) = (afterReply s f rest .format, .refused .notReady .none) :=
      if_neg (by rw [show (afterReply s f rest .format).ctu.waiting = Option.none from none]; decide)
    rw [refuses, setPriority_afterReply] at run
    exact congrArg Host.Outcome.next run
  case switch =>
    let u : State := { afterReply s f rest .format with ctu := switchedCtu s.ctu p }
    have switched : takeSwitch (afterReply s f rest .format) = (evaluateBand u, .done (.generation (advanceNumber s.ctu.generation))) := by
      have there : (afterReply s f rest .format).ctu.waiting = some p := waiting
      refine (if_pos (by rw [there]; rfl)).trans ?_
      rw [switchTariff_eq there]
      refine congrArg (fun n => (evaluateBand u, Answer.done (.generation n))) ?_
      rw [evaluateBand_ctu]
      rfl
    rw [switched] at run
    have ctu := evaluateBand_ctu u
    refine ⟨_, congrArg Host.Outcome.next run, ?ctu, ?band, ?reply, fun stands => ?still, ?hours, ?classes⟩
    case ctu =>
      refine ctu.trans ?_
      have band : (evaluateBand u).ctu.band = evaluatedBand u.ctu := congrArg Ctu.band ctu
      change bandedCtu u.ctu = { s.ctu with
        current := some p, waiting := Option.none, generation := advanceNumber s.ctu.generation
        switches := oneMore s.ctu.switches, band := (evaluateBand u).ctu.band
        bandChanges := if (evaluateBand u).ctu.band = s.ctu.band then s.ctu.bandChanges else oneMore s.ctu.bandChanges }
      rw [band]
      rfl
    case band => 
      change (evaluateBand u).ctu.band = evaluatedBand (evaluateBand u).ctu
      rw [ctu]
      rfl
    case reply =>
      exact reply_stands (evaluateBand_within u).keeps.prio _
    case still =>
      have same : evaluatedBand u.ctu = u.ctu.band := (congrArg Ctu.band ctu).symm.trans stands
      change (evaluateBand u).lines = s.lines ∧ (evaluateBand u).acc = s.acc
      rw [evaluateBand_same same]
      exact ⟨rfl, rfl⟩
    case hours => exact (evaluateBand_hours u).of_same rfl rfl rfl rfl rfl rfl rfl
    case classes => exact (evaluateBand_within u).keeps.classes

end Sys2Proof.Machine
end

section
/-! SUPPORT. The windows and the barred class set, and the minute evaluation (R137, R144, R146). -/

namespace Sys2Proof.Machine

variable {s t u v : State} {f : InFrame} {rest : List InFrame} {l : LineNo} {c c' : Ctu} {k : ClassNo} {T : LineNo → Prop}

/-! ### The states of the windows (R144) -/

/-- A window evaluated under the clock (R144). -/
def evaluatedWindow (c : Ctu) (i : Fin 4) : Window := { c.windows[i] with isOpen := windowState c c.windows[i] }

/-- The windows of a list are evaluated, and nothing else but the openings counter is changed. -/
structure WindowsStand (c c' : Ctu) (is : List (Fin 4)) : Prop where
  rest : { c' with windows := c.windows, openings := c.openings } = c
  windows : ∀ i : Fin 4, c'.windows[i] = if i ∈ is then evaluatedWindow c i else c.windows[i]

theorem evaluateWindow_one (c : Ctu) (i : Fin 4) : WindowsStand c (evaluateWindow c i) [i] := by
  refine ⟨rfl, fun j => ?_⟩
  by_cases same : j = i
  · subst same
    simp [evaluateWindow, evaluatedWindow]
  · have ne : i.val ≠ j.val := fun h => same (Fin.ext h.symm)
    simp [evaluateWindow, same, ne]

theorem windowState_clock (rest : { c' with windows := c.windows, openings := c.openings } = c) (w : Window) : windowState c' w = windowState c w := by
  rw [← rest]
  rfl

theorem foldl_evaluateWindow_stand (is : List (Fin 4)) (nodup : is.Nodup) (c : Ctu) : WindowsStand c (is.foldl evaluateWindow c) is := by
  induction is generalizing c with
  | nil => exact ⟨rfl, fun i => (if_neg List.not_mem_nil).symm⟩
  | cons i is ih =>
    obtain ⟨out, nodup⟩ := List.nodup_cons.1 nodup
    have first := evaluateWindow_one c i
    have next := ih nodup (evaluateWindow c i)
    refine ⟨?_, fun j => ?_⟩
    · rw [← first.rest]
      conv_rhs => rw [← next.rest]
      rfl
    · rw [List.foldl_cons, next.windows j, evaluatedWindow, first.windows j, windowState_clock first.rest]
      by_cases same : j = i
      · subst same
        simp [out]
      · simp [same, evaluatedWindow]

theorem evaluateWindows_ctu (s : State) : WindowsStand s.ctu (evaluateWindows s).ctu (List.finRange 4) :=
  foldl_evaluateWindow_stand _ (List.nodup_finRange 4) s.ctu

/-! ### The barred class set (R144, R146) -/

theorem barCall_contained (k : ClassNo) : Contained fun s l => barCall s k l := by
  intro T s m closed inside
  dsimp only
  unfold barCall
  split
  · exact .refl T s
  · exact .ite (fun _ => .ite (fun _ => endCall_within T s m .window closed inside) fun _ => addCause_within endCall_within closed inside .window _)
      fun _ => .refl T s

theorem releaseCall_contained (k : ClassNo) : Contained fun s l => releaseCall s k l := by
  intro T s m _ inside
  dsimp only
  unfold releaseCall
  split
  · exact .refl T s
  · exact .ite (fun _ => removeCause_within s m .window inside) fun _ => .refl T s

/-- What the change of the barred class set does to the calls of class `k` (R146). -/
def barClass (old new : BitVec 4) (s : State) (k : ClassNo) : State :=
  if new.getLsbD k.val = true ∧ old.getLsbD k.val = false then allLines.foldl (fun s l => barCall s k l) s
  else if new.getLsbD k.val = false ∧ old.getLsbD k.val = true then allLines.foldl (fun s l => releaseCall s k l) s
  else s

/-- The clock and the barred class set once that is evaluated (R144). -/
def barredCtu (c : Ctu) : Ctu := { c with barred := barredSet c.windows }

theorem evaluateBarred_eq (s : State) : evaluateBarred s =
    (List.finRange 4).foldl (barClass s.ctu.barred (barredSet s.ctu.windows)) { s with ctu := barredCtu s.ctu } := rfl

theorem barClass_within (old new : BitVec 4) (closed : Closed T s) (all : ∀ m, T m) (k : ClassNo) : Within T s (barClass old new s k) :=
  .ite (fun _ => pass_within (barCall_contained k) closed all) fun _ =>
    .ite (fun _ => pass_within (releaseCall_contained k) closed all) fun _ => .refl T s

theorem evaluateBarred_within (s : State) : Within (fun _ => True) { s with ctu := barredCtu s.ctu } (evaluateBarred s) := by
  rw [evaluateBarred_eq]
  exact Within.foldl (fun u _ k => barClass_within _ _ (fun _ _ _ _ _ _ _ => trivial) (fun _ => trivial) k) _ (.refl _ _)

theorem evaluateBarred_ctu (s : State) : (evaluateBarred s).ctu = barredCtu s.ctu := (evaluateBarred_within s).keeps.ctu

theorem barClass_stands {old new : BitVec 4} (same : new.getLsbD k.val = old.getLsbD k.val) (s : State) : barClass old new s k = s := by
  rw [barClass, if_neg fun h => ?_, if_neg fun h => ?_]
  · exact absurd (h.1.symm.trans (same.trans h.2)) (by decide)
  · exact absurd (h.1.symm.trans (same.trans h.2)) (by decide)

theorem evaluateBarred_same (same : barredSet s.ctu.windows = s.ctu.barred) : evaluateBarred s = s := by
  have stays : barredCtu s.ctu = s.ctu := by rw [barredCtu, same]
  rw [evaluateBarred_eq, stays, same]
  generalize List.finRange 4 = ks
  induction ks with
  | nil => rfl
  | cons k ks ih => rw [List.foldl_cons, barClass_stands rfl, ih]

end Sys2Proof.Machine
end

section
/-! SUPPORT. The minute evaluation (R137, R138). -/

namespace Sys2Proof.Machine

variable {s t u v : State} {f : InFrame} {rest : List InFrame} {l : LineNo} {c c' : Ctu}

theorem WindowsStand.eq {is : List (Fin 4)} (h : WindowsStand c c' is) : c' = { c with windows := c'.windows, openings := c'.openings } := by
  conv_rhs => rw [← h.rest]

theorem evaluateBand_again (s : State) : evaluateBand (evaluateBand s) = evaluateBand s := by
  refine evaluateBand_same ?_
  rw [evaluateBand_ctu]
  rfl

/-! ### The activation (R137, R141) -/

theorem activationReached_iff (c : Ctu) : activationReached c = true ↔
    ∃ p, c.waiting = some p ∧ p.activation = .timed ∧ p.actDay = c.day ∧ p.actMinute = c.hour * 60 + c.minute := by
  unfold activationReached
  cases c.waiting with
  | none => simp
  | some p =>
    simp only [Bool.and_eq_true, and_assoc, Option.some.injEq, exists_eq_left']
    exact and_congr decide_eq_true_iff (and_congr decide_eq_true_iff decide_eq_true_iff)

/-- The tariffs as the activation step leaves them (R141). -/
def activatedCtu (c : Ctu) (p : Tariff) : Ctu := switchedCtu { c with activations := bump c.activations } p

/-- The activation step switches the tariff exactly if its time has come. -/
inductive Activates (c : Ctu) : Ctu → Prop
  | reached {p : Tariff} (waiting : c.waiting = some p) (come : activationReached c = true) : Activates c (activatedCtu c p)
  | waits (come : activationReached c = false) : Activates c c

/-- The band that the activation step evaluates stands at the band's own evaluation, which finds it unchanged. -/
theorem evaluateBand_activate (s : State) : ∃ c, Activates s.ctu c ∧ evaluateBand (activate s) = evaluateBand { s with ctu := c } := by
  cases come : activationReached s.ctu with
  | false =>
    have waits : activate s = s := if_neg (by rw [come]; decide)
    exact ⟨s.ctu, .waits come, by rw [waits]⟩
  | true =>
    obtain ⟨p, waiting, -⟩ := (activationReached_iff s.ctu).1 come
    have switches : activate s = evaluateBand { s with ctu := activatedCtu s.ctu p } :=
      (if_pos come).trans (switchTariff_eq (s := { s with ctu := { s.ctu with activations := bump s.ctu.activations } }) waiting)
    exact ⟨_, .reached waiting come, by rw [switches, evaluateBand_again]⟩

theorem Activates.band (h : Activates c c') : c'.band = c.band ∧ c'.barred = c.barred ∧ c'.windows = c.windows := by
  cases h with
  | reached => exact ⟨rfl, rfl, rfl⟩
  | waits => exact ⟨rfl, rfl, rfl⟩

/-! ### What the minute evaluation leaves (R137) -/

/-- The clock, the tariffs, the band and the windows as the minute evaluation leaves them, `w` and `n` being the windows and the openings
counter. -/
def evaluatedCtu (c : Ctu) (w : Vector Window 4) (n : Nat) : Ctu := barredCtu { bandedCtu c with windows := w, openings := n }

theorem minuteEvaluation_ctu (s : State) : ∃ c w n, Activates s.ctu c ∧ (minuteEvaluation s).ctu = evaluatedCtu c w n ∧
    (∀ i : Fin 4, w[i] = evaluatedWindow (bandedCtu c) i) ∧
    minuteEvaluation s = evaluateBarred (evaluateWindows (evaluateBand { s with ctu := c })) := by
  obtain ⟨c, activation, eq⟩ := evaluateBand_activate s
  have whole : minuteEvaluation s = evaluateBarred (evaluateWindows (evaluateBand { s with ctu := c })) := by rw [minuteEvaluation, eq]
  have windows := evaluateWindows_ctu (evaluateBand { s with ctu := c })
  rw [evaluateBand_ctu] at windows
  refine ⟨c, _, (evaluateWindows (evaluateBand { s with ctu := c })).ctu.openings, activation, ?_, fun i => (windows.windows i).trans (if_pos (List.mem_finRange i)), whole⟩
  rw [whole, evaluateBarred_ctu]
  exact congrArg barredCtu windows.eq

theorem minuteEvaluation_keeps (s : State) : s.hli.prio <+: (minuteEvaluation s).hli.prio ∧ (minuteEvaluation s).adm.classes = s.adm.classes ∧
    (minuteEvaluation s).soe.texts = s.soe.texts := by
  obtain ⟨c, w, n, -, -, -, whole⟩ := minuteEvaluation_ctu s
  rw [whole]
  have first := (evaluateBand_within { s with ctu := c }).keeps
  have last := (evaluateBarred_within (evaluateWindows (evaluateBand { s with ctu := c }))).keeps
  exact ⟨first.prio.trans last.prio, last.classes.trans first.classes, last.texts.trans first.texts⟩

/-- An evaluation that leaves the barred class set as it was acts on the calls by its band alone (R143, R146). -/
theorem minuteEvaluation_hours (s : State) (stands : (minuteEvaluation s).ctu.barred = s.ctu.barred) : HoursFollowBand s (minuteEvaluation s) := by
  obtain ⟨c, w, n, activation, ctu, -, whole⟩ := minuteEvaluation_ctu s
  obtain ⟨band, barred, -⟩ := activation.band
  have hours := evaluateBand_hours { s with ctu := c }
  have banded := evaluateBand_ctu { s with ctu := c }
  generalize evaluateBand { s with ctu := c } = y at hours banded whole
  let x := evaluateWindows y
  have windows := (evaluateWindows_ctu y).eq
  have before : x.ctu.barred = s.ctu.barred := by
    rw [windows, banded]
    exact barred
  have same : evaluateBarred x = x := by
    refine evaluateBarred_same ?_
    rw [before, ← stands, whole, evaluateBarred_ctu]
    rfl
  have final : minuteEvaluation s = x := whole.trans same
  rw [final]
  refine hours.of_same rfl rfl rfl rfl band rfl ?_
  rw [windows]

/-! ### CLOCK SET and MINUTE_CHANGE (R137, R138) -/

/-- The part at the evaluation of a minute, its clock set or not. -/
def atMinute (s : State) (h : Hli) (day hour minute second : Nat) (isSet : Bool) : State :=
  { s with hli := h, ctu := { s.ctu with
      day := day, hour := hour, minute := minute, second := second, isSet := isSet, minuteDue := false } }

/-- The activation time of the pending tariff has come at the clock of `t` (R137). -/
def Hit (s t : State) : Prop := ∃ p, s.ctu.waiting = some p ∧ p.activation = .timed ∧ p.actDay = t.ctu.day ∧
  p.actMinute = t.ctu.hour * 60 + t.ctu.minute

/-- What an evaluation does to the tariffs, the band, the windows and the barred class set (R137, R141 to R144). -/
def MinuteEvaluated (s t : State) : Prop :=
  (Hit s t → t.ctu.current = s.ctu.waiting ∧ t.ctu.waiting = none ∧ t.ctu.generation = advanceNumber s.ctu.generation ∧
    t.ctu.activations = oneMore s.ctu.activations ∧ t.ctu.switches = oneMore s.ctu.switches) ∧
  (¬ Hit s t → t.ctu.current = s.ctu.current ∧ t.ctu.waiting = s.ctu.waiting ∧ t.ctu.generation = s.ctu.generation ∧
    t.ctu.activations = s.ctu.activations ∧ t.ctu.switches = s.ctu.switches) ∧
  (t.ctu.barred = s.ctu.barred → HoursFollowBand s t) ∧ t.ctu.minuteDue = false ∧
  t.ctu.band = evaluatedBand t.ctu ∧ t.ctu.barred = barredSet t.ctu.windows ∧
  ∀ i : Fin 4, t.ctu.windows[i] = { s.ctu.windows[i] with isOpen := windowState t.ctu s.ctu.windows[i] }

/-- The clock after the evaluation is the clock before it (R137). -/
structure ClockStands (t : State) (day hour minute second : Nat) (isSet : Bool) : Prop where
  day_eq : t.ctu.day = day
  hour_eq : t.ctu.hour = hour
  minute_eq : t.ctu.minute = minute
  second_eq : t.ctu.second = second
  set_eq : t.ctu.isSet = isSet

theorem minuteEvaluation_evaluated (s : State) (h : Hli) (day hour minute second : Nat) (isSet : Bool) :
    MinuteEvaluated s (minuteEvaluation (atMinute s h day hour minute second isSet)) ∧
      ClockStands (minuteEvaluation (atMinute s h day hour minute second isSet)) day hour minute second isSet := by
  have hours := minuteEvaluation_hours (atMinute s h day hour minute second isSet)
  obtain ⟨c, w, n, activation, ctu, windows, -⟩ := minuteEvaluation_ctu (atMinute s h day hour minute second isSet)
  generalize minuteEvaluation (atMinute s h day hour minute second isSet) = t at hours ctu
  have follows (stands : t.ctu.barred = s.ctu.barred) : HoursFollowBand s t := (hours stands).of_same rfl rfl rfl rfl rfl rfl rfl
  have standing (i : Fin 4) (still : c.windows = s.ctu.windows) : t.ctu.windows[i] = { s.ctu.windows[i] with isOpen := windowState t.ctu s.ctu.windows[i] } := by
    have at' : t.ctu.windows[i] = evaluatedWindow (bandedCtu c) i := by
      rw [← windows i, ctu]
      rfl
    rw [at', evaluatedWindow, ctu, show (bandedCtu c).windows = s.ctu.windows from still]
    rfl
  have band : t.ctu.band = evaluatedBand t.ctu := by rw [ctu]; rfl
  have barred : t.ctu.barred = barredSet t.ctu.windows := by rw [ctu]; rfl
  cases activation with
  | @reached p waiting come =>
    have hit : Hit s t := by
      obtain ⟨p, there, timed, day, minute⟩ := (activationReached_iff _).1 come
      rw [Hit, ctu]
      exact ⟨p, there, timed, day, minute⟩
    refine ⟨⟨fun _ => ?_, fun no => absurd hit no, follows, by rw [ctu]; rfl, band, barred, fun i => standing i rfl⟩, ?_⟩
    · rw [ctu, show s.ctu.waiting = some p from waiting]
      exact ⟨rfl, rfl, rfl, rfl, rfl⟩
    · exact ⟨by rw [ctu]; rfl, by rw [ctu]; rfl, by rw [ctu]; rfl, by rw [ctu]; rfl, by rw [ctu]; rfl⟩
  | waits come =>
    have no : ¬ Hit s t := by
      intro ⟨p, there, timed, day, minute⟩
      rw [ctu] at day minute
      refine absurd ?_ (Bool.eq_false_iff.1 come)
      exact (activationReached_iff _).2 ⟨p, there, timed, day, minute⟩
    refine ⟨⟨fun hit => absurd hit no, fun _ => ?_, follows, by rw [ctu]; rfl, band, barred, fun i => standing i rfl⟩, ?_⟩
    · rw [ctu]
      exact ⟨rfl, rfl, rfl, rfl, rfl⟩
    · exact ⟨by rw [ctu]; rfl, by rw [ctu]; rfl, by rw [ctu]; rfl, by rw [ctu]; rfl, by rw [ctu]; rfl⟩

theorem now_of_clock (day : c.day = c'.day) (hour : c.hour = c'.hour) (minute : c.minute = c'.minute) (second : c.second = c'.second) :
    c.now = c'.now := by
  simp only [Ctu.now, day, hour, minute, second]

theorem clockSetBad_eq (day hour minute second : Nat) : clockSetBad day hour minute second =
    if 6 < day then some 0 else if 23 < hour then some 1 else if 59 < minute then some 2 else if 59 < second then some 3 else none := by
  simp only [clockSetBad, firstBad, decide_eq_true_iff, ← Nat.not_lt, ite_not]

/-- Settles O50, by the command and whether a minute change is due. -/
theorem clockSetAndMinuteChangeEvaluate : Obligations.ClockSetAndMinuteChangeEvaluate := by
  unfold Obligations.ClockSetAndMinuteChangeEvaluate
  intro evaluated
  refine ⟨fun s f rest day hour minute second h => ?clock, fun s due => ?change, fun s no => congrArg Host.Outcome.next (if_neg (by rw [no]; decide))⟩
  case clock =>
    have bad {i : Nat} (field : clockSetBad day hour minute second = some i) :
        OnlyAnswers (.clockSet day hour minute second) s f rest (.refused .badValue (.index i)) :=
      congrArg Host.Outcome.next (takeReplied_bad h (by decide) (fun _ => clockSetBad day hour minute second) (fun _ s => setClock s day hour minute second) field)
    refine ⟨fun past => bad ?day, fun day past => bad ?hour, fun day hour past => bad ?minute, fun day hour minute past => bad ?second,
      fun inDay inHour inMinute inSecond => ?good⟩
    case day => rw [clockSetBad_eq, if_pos past]
    case hour => rw [clockSetBad_eq, if_neg (by omega), if_pos past]
    case minute => rw [clockSetBad_eq, if_neg (by omega), if_neg (by omega), if_pos past]
    case second => rw [clockSetBad_eq, if_neg (by omega), if_neg (by omega), if_neg (by omega), if_pos past]
    case good =>
      have fields : clockSetBad day hour minute second = none := by
        rw [clockSetBad_eq, if_neg (by omega), if_neg (by omega), if_neg (by omega), if_neg (by omega)]
      have run := takeReplied_outcome h (by decide) fields (carry := fun s => setClock s day hour minute second) rfl
      obtain ⟨all, clock⟩ := minuteEvaluation_evaluated s (afterReply s f rest .format).hli day hour minute second true
      obtain ⟨kept, classes, texts⟩ := minuteEvaluation_keeps (atMinute s (afterReply s f rest .format).hli day hour minute second true)
      exact ⟨_, congrArg Host.Outcome.next run, clock.day_eq, clock.hour_eq, clock.minute_eq, clock.second_eq, clock.set_eq, all,
        reply_stands kept _, classes, texts⟩
  case change =>
    obtain ⟨all, clock⟩ := minuteEvaluation_evaluated s s.hli s.ctu.day s.ctu.hour s.ctu.minute s.ctu.second s.ctu.isSet
    refine ⟨_, congrArg Host.Outcome.next (if_pos due), all, ?_, clock.set_eq⟩
    exact now_of_clock clock.day_eq clock.hour_eq clock.minute_eq clock.second_eq

end Sys2Proof.Machine
end

section
/-! SUPPORT. WINDOW SET, and the calls of a class that it bars or releases (R145, R146). -/

namespace Sys2Proof.Machine

variable {s t u v : State} {f : InFrame} {rest : List InFrame} {l : LineNo} {c d : Call} {e : Entry} {at' : FrameNo × EntryNo} {k k' : ClassNo}
  {old new : BitVec 4}

/-! ### What the change of the barred class set does to one call (R146) -/

/-- What the change of the set does to the call on line `l`, if it is of class `k`. -/
def barStep (old new : BitVec 4) (s : State) (k : ClassNo) (l : LineNo) : State :=
  if new.getLsbD k.val = true ∧ old.getLsbD k.val = false then barCall s k l
  else if new.getLsbD k.val = false ∧ old.getLsbD k.val = true then releaseCall s k l
  else s

theorem barClass_eq (old new : BitVec 4) (s : State) (k : ClassNo) :
    barClass old new s k = allLines.foldl (fun s l => barStep old new s k l) s := by
  unfold barClass barStep
  split
  · rfl
  · split
    · rfl
    · generalize allLines = ls
      induction ls with
      | nil => rfl
      | cons l ls ih => exact ih

theorem barStep_contained (old new : BitVec 4) (k : ClassNo) : Contained fun s l => barStep old new s k l := fun T s m closed inside =>
  .ite (fun _ => barCall_contained k T s m closed inside) fun _ => .ite (fun _ => releaseCall_contained k T s m closed inside) fun _ => .refl T s

/-- The call on line `l` is of class `k`, or beyond the reach of the change. -/
def OfClass (s : State) (l : LineNo) (k : ClassNo) : Prop := ∀ d, s.callOn l = some d → d.cls = some k ∨ reachable d = false

theorem OfClass.of_line (h : OfClass s l k) (same : t.line l = s.line l) : OfClass t l k :=
  fun d on => h d ((congrArg Line.call same).symm.trans on)

theorem barStep_other (h : OfClass s l k) (ne : k' ≠ k) : barStep old new s k' l = s := by
  have not (d : Call) (on : s.callOn l = some d) : ¬ (d.cls = some k' ∧ reachable d = true) := by
    rintro ⟨cls, reach⟩
    rcases h d on with mine | beyond
    · exact ne (Option.some.inj (cls.symm.trans mine))
    · exact absurd (reach.symm.trans beyond) (by decide)
  have bar : barCall s k' l = s := by
    unfold barCall
    split
    · rfl
    · next d on => exact if_neg (not d on)
  have release : releaseCall s k' l = s := by
    unfold releaseCall
    split
    · rfl
    · next d on => exact if_neg (not d on)
  rw [barStep, bar, release, ite_self, ite_self]

/-- The change for another class leaves the call alone. -/
theorem barClass_apart (free : Free s l) (own : OfClass s l k) (ne : k' ≠ k) : Within (· ≠ l) s (barClass old new s k') := by
  rw [barClass_eq]
  obtain ⟨u, before, after⟩ := pass_split (barStep_contained old new k') free
  rw [barStep_other (own.of_line (before.lines l fun h => h rfl)) ne] at after
  exact before.trans after

theorem barClasses_apart (free : Free s l) (own : OfClass s l k) {ks : List ClassNo} (out : k ∉ ks) :
    Within (· ≠ l) s (ks.foldl (barClass old new) s) :=
  Within.foldl_mem ks (fun _ so _ mem => barClass_apart (free.steady so.steady) (own.of_line (so.lines l fun h => h rfl)) fun same => out (same ▸ mem))
    (.refl _ s)

/-- A call whose charges are not watched sees of the change the step of its own class alone. -/
theorem evaluateBarred_split (free : Free s l) (own : OfClass s l k) : ∃ u, Within (· ≠ l) { s with ctu := barredCtu s.ctu } u ∧
    (OfClass (barStep s.ctu.barred (barredSet s.ctu.windows) u k l) l k →
      (evaluateBarred s).line l = (barStep s.ctu.barred (barredSet s.ctu.windows) u k l).line l) := by
  generalize hn : barredSet s.ctu.windows = new
  obtain ⟨before, after, split⟩ := List.append_of_mem (List.mem_finRange k)
  have nodup := List.nodup_finRange 4
  rw [split] at nodup
  obtain ⟨-, tail, apart⟩ := List.nodup_append.1 nodup
  let w : State := { s with ctu := barredCtu s.ctu }
  have freeW : Free w l := free
  have ownW : OfClass w l k := own
  have first : Within (· ≠ l) w (before.foldl (barClass s.ctu.barred new) w) :=
    barClasses_apart freeW ownW fun mem => apart k mem k List.mem_cons_self rfl
  obtain ⟨u, early, late⟩ := pass_split (barStep_contained s.ctu.barred new k) (freeW.steady first.steady)
  rw [← barClass_eq] at late
  have freeU : Free u l := freeW.steady (first.steady.trans early.steady)
  refine ⟨u, first.trans early, fun passed => ?_⟩
  have stepped : Within (fun _ => True) u (barStep s.ctu.barred new u k l) :=
    barStep_contained _ _ k _ u l (fun _ _ _ _ _ _ _ => trivial) trivial
  have line := late.lines l fun h => h rfl
  have last := barClasses_apart (old := s.ctu.barred) (new := new) (freeU.steady (stepped.steady.trans late.steady)) (passed.of_line line)
    (List.nodup_cons.1 tail).1
  rw [evaluateBarred_eq, split, List.foldl_append, List.foldl_cons, hn]
  exact (last.lines l fun h => h rfl).trans line

/-- What the change does to a call in reach, by its class's place in the set (R146). -/
theorem evaluateBarred_call (reached : Reached s l d at') (unlimited : Unlimited s d at' e) (cls : d.cls = some k) (running : d.endCause = none) :
    let grace := s.adm.classes[k].hoursGrace
    let text := [numbered s 13 (wholeMinutes (leftOf d .window grace))]
    let new := barredSet s.ctu.windows
    (s.ctu.barred.getLsbD k.val = new.getLsbD k.val → (evaluateBarred s).line l = s.line l) ∧
    (s.ctu.barred.getLsbD k.val = true → new.getLsbD k.val = false →
      (evaluateBarred s).line l = { s.line l with call := some { d with pend := { d.pend with window := none } } }) ∧
    (s.ctu.barred.getLsbD k.val = false → new.getLsbD k.val = true →
      (d.phase = .queued → CarriesCause (evaluateBarred s) l d .window) ∧
      (d.phase ≠ .queued → grace.count = 0 → stepDue s l = false → CarriesCause (evaluateBarred s) l d .window) ∧
      (d.phase ≠ .queued → 1 ≤ grace.count →
        (∃ d', Texted (givenCause d .window grace) d' ∧ (evaluateBarred s).callOn l = some d') ∧
        (HasRoom d text → (evaluateBarred s).line l = { s.line l with call := some (sentTexts (givenCause d .window grace) text) }))) := by
  intro grace text new
  have own : OfClass s l k := fun d' on => .inl (Option.some.inj (reached.call_eq.symm.trans on) ▸ cls)
  obtain ⟨u, within, final⟩ := evaluateBarred_split (Unlimited.free reached.call_eq unlimited) own
  have line : u.line l = s.line l := within.lines l fun h => h rfl
  have hu : u.callOn l = some d := (congrArg Line.call line).trans reached.call_eq
  have fits : d.cls = some k ∧ reachable d = true := ⟨cls, reached.reachable⟩
  have graced : hoursGraceOf u d = grace := by
    rw [hoursGraceOf_eq cls, within.keeps.classes]
  change OfClass (barStep s.ctu.barred new u k l) l k → _ = (barStep s.ctu.barred new u k l).line l at final
  have stays {x : Call} {t : State} (on : t.callOn l = some x) (of : x.cls = some k) : OfClass t l k :=
    fun d' on' => .inl (Option.some.inj (on.symm.trans on') ▸ of)
  refine ⟨fun same => ?same, fun was now => ?released, fun was now => ?barred⟩
  case same =>
    have still : barStep s.ctu.barred new u k l = u := by
      rw [barStep, if_neg fun h => ?_, if_neg fun h => ?_]
      · exact absurd (h.2.symm.trans (same.trans h.1)) (by decide)
      · exact absurd (h.2.symm.trans (same.trans h.1)) (by decide)
    rw [still] at final
    exact (final (stays hu cls)).trans line
  case released =>
    have step : barStep s.ctu.barred new u k l = removeCause u l .window := by
      rw [barStep, if_neg fun h => absurd (h.1.symm.trans now) (by decide), if_pos ⟨now, was⟩]
      simp only [releaseCall, hu]
      exact if_pos fits
    rw [step, removeCause_eq hu] at final
    rw [final (stays (State.callOn_setLine_self u l _) cls), State.line_setLine_self, line]
    rfl
  case barred =>
    have step : barStep s.ctu.barred new u k l = if d.phase = .queued then endCall u l .window else addCause endCall u l .window grace := by
      rw [barStep, if_pos ⟨now, was⟩]
      simp only [barCall, hu]
      rw [if_pos fits, graced]
    have ends (stepped : barStep s.ctu.barred new u k l = endCall u l .window) (notDue : stepDue s l = false) : CarriesCause (evaluateBarred s) l d .window := by
      have notDue' : stepDue u l = false := by simpa only [stepDue, State.callOn, line] using notDue
      have carries : CarriesCause (endCall u l .window) l d .window := endCallWith_carries (endFuel_within 48) hu running notDue' (.inl (by decide)) false
      rw [stepped] at final
      refine carries.of_callOn_eq (congrArg Line.call (final fun d' on => .inr ?_))
      obtain ⟨-, -, phase, -⟩ := carries d' on
      exact Bool.eq_false_iff.2 fun reach => by rcases hearing_of_reachable reach with p | p | p <;> simp [p] at phase
    refine ⟨fun queued => ?queued, fun other off notDue => ?ends, fun other on => ?graces⟩
    case queued => exact ends (step.trans (if_pos queued)) (by simp [stepDue, reached.call_eq, queued])
    case ends => exact ends (step.trans ((if_neg other).trans (addCause_ends hu fits.2 off))) notDue
    case graces =>
      have given : barStep s.ctu.barred new u k l = addCause endCall u l .window grace := step.trans (if_neg other)
      refine ⟨?_, fun room => ?_⟩
      · obtain ⟨d', drops, texted, eq⟩ := addCause_texted (endIt := endCall) (kind := .window) hu fits.2 on
        have there : (textedTo u l d' drops).callOn l = some d' := State.callOn_setLine_self u l _
        have of : d'.cls = some k := by
          obtain ⟨_, _, rfl⟩ := texted
          exact cls
        rw [given, eq] at final
        exact ⟨d', texted, (congrArg Line.call (final (stays there of))).trans there⟩
      · have words : numbered u 13 (wholeMinutes (leftOf d .window grace)) = numbered s 13 (wholeMinutes (leftOf d .window grace)) := by
          rw [numbered, within.keeps.texts]
          rfl
        have room' : HasRoom (givenCause d .window grace) [numbered u 13 (wholeMinutes (leftOf d .window grace))] := by
          rw [words]
          exact room
        have eq := addCause_room (endIt := endCall) (kind := .window) hu fits.2 on room'
        have of : (sentTexts (givenCause d .window grace) [numbered u 13 (wholeMinutes (leftOf d .window grace))]).cls = some k := by
          unfold sentTexts
          split
          · exact cls
          · exact cls
        rw [given, eq] at final
        rw [final (stays (State.callOn_setLine_self u l _) of), State.line_setLine_self, line]
        change _ = { s.line l with call := some (sentTexts (givenCause d .window grace) [numbered s 13 (wholeMinutes (leftOf d .window grace))]) }
        rw [← words]
        rfl

/-! ### WINDOW SET (R145) -/

theorem windowSetBad_eq (window start length : Nat) : windowSetBad window start length =
    if 3 < window then some 0 else if 1439 < start then some 2 else if 1440 < length then some 3 else none := by
  simp only [windowSetBad, firstBad, decide_eq_true_iff, ← Nat.not_lt, ite_not]

/-- The settings of a window that WINDOW SET gives (R145). -/
def windowOf (old : Window) (dayMask : Byte) (start length : Nat) (classMask : Byte) : Window :=
  { old with dayMask := dayMask.setWidth 7, start := start, length := length, classMask := classMask.setWidth 4 }

/-- The windows once one is replaced and evaluated (R145). -/
def windowedCtu (c : Ctu) (i : Fin 4) (w : Window) : Ctu := evaluateWindow { c with windows := c.windows.set i w } i

theorem windowedCtu_windows (c : Ctu) (i : Fin 4) (w : Window) :
    (windowedCtu c i w).windows = c.windows.set i { w with isOpen := windowState c w } := by
  have state : windowState { c with windows := c.windows.set i w } w = windowState c w := rfl
  simp [windowedCtu, evaluateWindow, state]

theorem windowSet_eq (h : Requested s 0x43 f rest) (i : Fin 4) (dayMask : Byte) (start length : Nat) (classMask : Byte)
    (good : windowSetBad i.val start length = none) :
    let u : State := { afterReply s f rest .format with ctu := windowedCtu s.ctu i (windowOf s.ctu.windows[i] dayMask start length classMask) }
    Completes (.windowSet i.val dayMask start length classMask) s (setPriority (evaluateBarred u) s.hli.prio.length
      (replyTo f (.done (.window (evaluateBarred u).ctu.windows[i].isOpen (evaluateBarred u).ctu.barred)))) := by
  have same : Fin.ofNat 4 i.val = i := Fin.ext (Nat.mod_eq_of_lt i.isLt)
  have carried : setWindow (afterReply s f rest .format) (Fin.ofNat 4 i.val) dayMask start length classMask =
      setWindow (afterReply s f rest .format) i dayMask start length classMask := by rw [same]
  exact congrArg Host.Outcome.next (takeReplied_outcome h (by decide) good carried)

/-- Settles O53, by the fields and by the class's place in the barred set. -/
theorem windowSetBarsItsClasses : Obligations.WindowSetBarsItsClasses := by
  intro s f rest i dayMask start length classMask h cmd w
  have bad {n i : Nat} (field : windowSetBad n start length = some i) :
      OnlyAnswers (.windowSet n dayMask start length classMask) s f rest (.refused .badValue (.index i)) :=
    congrArg Host.Outcome.next (takeReplied_bad h (by decide) (fun _ => windowSetBad n start length)
      (fun _ s => setWindow s (Fin.ofNat 4 n) dayMask start length classMask) field)
  refine ⟨fun n past => bad ?window, fun past => bad ?start, fun inDay past => bad ?length, fun inDay inLength => ?good⟩
  case window => rw [windowSetBad_eq, if_pos past]
  case start => rw [windowSetBad_eq, if_neg (by omega), if_pos past]
  case length => rw [windowSetBad_eq, if_neg (by omega), if_neg (by omega), if_pos past]
  case good =>
    have run := windowSet_eq h i dayMask start length classMask (by rw [windowSetBad_eq, if_neg (by omega), if_neg (by omega), if_neg (by omega)])
    let u : State := { afterReply s f rest .format with ctu := windowedCtu s.ctu i w }
    change Completes cmd s (setPriority (evaluateBarred u) s.hli.prio.length
      (replyTo f (.done (.window (evaluateBarred u).ctu.windows[i].isOpen (evaluateBarred u).ctu.barred)))) at run
    have ctu := evaluateBarred_ctu u
    have windows : (evaluateBarred u).ctu.windows = s.ctu.windows.set i { w with isOpen := windowState s.ctu w } := by
      rw [ctu]
      exact windowedCtu_windows s.ctu i w
    have barred : (evaluateBarred u).ctu.barred = barredSet u.ctu.windows := by rw [ctu]; rfl
    have isOpen : (evaluateBarred u).ctu.windows[i].isOpen = windowState s.ctu w := by rw [windows]; simp
    rw [isOpen] at run
    refine ⟨_, run, windows, ?barred, ?now, ?band, ?reply, fun stands => ?still, fun l d at' e k reached unlimited cls running => ?calls⟩
    case barred =>
      change (evaluateBarred u).ctu.barred = barredSet (evaluateBarred u).ctu.windows
      rw [ctu]
      rfl
    case now =>
      change (evaluateBarred u).ctu.now = s.ctu.now
      rw [ctu]
      rfl
    case band =>
      change (evaluateBarred u).ctu.band = s.ctu.band
      rw [ctu]
      rfl
    case reply => exact reply_stands (evaluateBarred_within u).keeps.prio _
    case still =>
      have same : barredSet u.ctu.windows = u.ctu.barred := barred.symm.trans stands
      change (evaluateBarred u).lines = s.lines ∧ (evaluateBarred u).acc = s.acc ∧ (evaluateBarred u).adm = s.adm
      rw [evaluateBarred_same same]
      exact ⟨rfl, rfl, rfl⟩
    case calls =>
      intro grace left text warned
      obtain ⟨same, released, bars⟩ := evaluateBarred_call (s := u) (l := l) ⟨reached.call_eq, reached.attach_eq, reached.phase⟩
        ⟨unlimited.attach_eq, unlimited.entry_eq, unlimited.no_limit⟩ cls running
      rw [← barred] at same released bars
      refine ⟨same, released, fun was now => ?_⟩
      obtain ⟨queued, ends, graces⟩ := bars was now
      refine ⟨queued, ends, fun other on => ?_, fun other on room => (graces other on).2 room⟩
      obtain ⟨d', ⟨buf, notices, rfl⟩, there⟩ := (graces other on).1
      exact ⟨_, there, rfl, running, rfl, rfl⟩

end Sys2Proof.Machine
end

section
/-! SUPPORT. An exhausted allowance under a grace of 0 ends every call of the account (R161). -/

namespace Sys2Proof.Machine

variable {s t u : State} {l m : LineNo} {c d d' : Call} {a : FrameNo × EntryNo} {cause : EndCause} {endIt : Ender} {e : Entry}

/-! ### Calls that run on, or have ended with ALLOWANCE -/

/-- The call `d` is `c` running on: attached as it was, in reach, its step not complete. -/
structure RunsOn (c d : Call) : Prop where
  number : d.number = c.number
  attach : d.attach = c.attach
  running : d.endCause = none
  reach : reachable d = true
  notDue : ¬ (d.phase = .connected ∧ 0 < d.meter.stepLen ∧ d.meter.stepLen ≤ d.meter.stepPos)

/-- The call that was `c` runs on, or carries ALLOWANCE (R24, R161). -/
def RunsOrEnded (c : Call) (l : LineNo) (s : State) : Prop := (∃ d, s.callOn l = some d ∧ RunsOn c d) ∨ CarriesCause s l c .allowance

theorem RunsOrEnded.of_callOn (h : RunsOrEnded c l s) (same : t.callOn l = s.callOn l) : RunsOrEnded c l t := by
  rcases h with ⟨d, on, runs⟩ | carries
  · exact .inl ⟨d, same.trans on, runs⟩
  · exact .inr (carries.of_callOn_eq same)

theorem RunsOrEnded.of_local (h : RunsOrEnded c l s) (local' : Local m s t) (ne : l ≠ m) : RunsOrEnded c l t :=
  h.of_callOn (congrArg Line.call (local'.others l ne))

theorem RunsOn.not_due (h : RunsOn c d) (on : s.callOn l = some d) : stepDue s l = false :=
  Bool.eq_false_iff.2 fun due => h.notDue ((stepDue_iff on).1 due)

theorem not_due_of_carries (h : CarriesCause s l c cause) : stepDue s l = false := by
  refine Bool.eq_false_iff.2 fun due => ?_
  cases on : s.callOn l with
  | none => simp [stepDue, on] at due
  | some d =>
    obtain ⟨-, -, phase, -⟩ := h d on
    have connected := ((stepDue_iff on).1 due).1
    rcases phase with p | p <;> simp [p] at connected

theorem RunsOrEnded.not_due (h : RunsOrEnded c l s) : stepDue s l = false := by
  rcases h with ⟨d, on, runs⟩ | carries
  · exact runs.not_due on
  · exact not_due_of_carries carries

/-- An evaluation reaches such a call only while it runs on. -/
theorem RunsOrEnded.of_reached (h : RunsOrEnded c l s) (reached : evaluationReaches s a l = true) : ∃ d, s.callOn l = some d ∧ RunsOn c d := by
  rcases h with runs | carries
  · exact runs
  · obtain ⟨d, on, reach, -⟩ := (evaluationReaches_iff s a l).1 reached
    obtain ⟨-, -, phase, -⟩ := carries d on
    rcases phase with p | p <;> simp [reachable, p] at reach

theorem RunsOn.texted (h : RunsOn c d) (texted : Texted d d') : RunsOn c d' := by
  obtain ⟨_, _, rfl⟩ := texted
  exact ⟨h.number, h.attach, h.running, h.reach, h.notDue⟩

theorem RunsOn.sendText (h : RunsOn c d) (on : s.callOn l = some d) (slot : Fin 24) (n : Option Nat) : RunsOrEnded c l (sendText s l slot n) := by
  obtain ⟨d', drops, texted, eq⟩ := sendText_texted on slot n
  exact .inl ⟨d', eq ▸ State.callOn_setLine_self s l _, h.texted texted⟩

theorem RunsOn.warnCall (h : RunsOn c d) (on : s.callOn l = some d) : RunsOrEnded c l (warnCall s l) := by
  unfold Machine.warnCall
  rw [on]
  dsimp only
  split
  · exact .inl ⟨d, on, h⟩
  · have warned : RunsOn c { d with meter := { d.meter with warned := true } } := ⟨h.number, h.attach, h.running, h.reach, h.notDue⟩
    exact warned.sendText (by rw [State.callOn_modCall_self, on]; rfl) 11 none

theorem RunsOn.restored (h : RunsOn c d) (on : s.callOn l = some d) : RunsOrEnded c l (Machine.sendText (removeCause s l .allowance) l 19) := by
  have removed : RunsOn c { d with pend := d.pend.set .allowance none } := ⟨h.number, h.attach, h.running, h.reach, h.notDue⟩
  rw [removeCause_eq on]
  exact removed.sendText (State.callOn_setLine_self s l _) 19 none

/-! ### The three tests, each by its cases (R160 to R162) -/

/-- An operation on a line, if an evaluation of the entry reaches it. -/
def stepOver (a : FrameNo × EntryNo) (f : State → LineNo → State) (s : State) (m : LineNo) : State :=
  if evaluationReaches s a m then f s m else s

/-- An operation on every line that an evaluation of the entry reaches, in their order. -/
def passOver (a : FrameNo × EntryNo) (f : State → LineNo → State) (s : State) : State := allLines.foldl (stepOver a f) s

theorem stepOver_reached {f : State → LineNo → State} (h : evaluationReaches s a m = true) : stepOver a f s m = f s m := if_pos h

theorem stepOver_apart {f : State → LineNo → State} (h : evaluationReaches s a m = false) : stepOver a f s m = s := if_neg (by rw [h]; decide)

/-- An entry marked, with the counter of the mark. -/
def markedEntry (a : FrameNo × EntryNo) (f : Entry → Entry) (m : Mtr) (s : State) : State := { s.modEntry a f with mtr := m }

/-- The remaining allowance is at or below a warning level that is not 0 (R160). -/
abbrev Low (s : State) (e : Entry) (r : Int) : Prop := s.adm.classes[e.cls].warningLevel ≠ 0 ∧ r ≤ (s.adm.classes[e.cls].warningLevel : Int)

theorem warningTest_above (r : Int) (h : ¬ Low s e r) : warningTest s a e r = s.modEntry a fun e => { e with warnedAtLevel := false } :=
  if_pos (by unfold Low at h; omega)

theorem warningTest_again (r : Int) (low : Low s e r) (before : e.warnedAtLevel = true) : warningTest s a e r = s :=
  (if_neg (by unfold Low at low; omega)).trans (if_pos before)

theorem warningTest_warns (r : Int) (low : Low s e r) (first : e.warnedAtLevel = false) : warningTest s a e r =
    passOver a warnCall (markedEntry a (fun e => { e with warnedAtLevel := true }) { s.mtr with warnings := bump s.mtr.warnings } s) :=
  (if_neg (by unfold Low at low; omega)).trans (if_neg (by rw [first]; decide))

theorem exhaustionTest_still (r : Int) (h : 0 < r ∨ e.exhausted = true) : exhaustionTest endIt s a e r = s := if_pos h

theorem exhaustionTest_exhausts (r : Int) (left : r ≤ 0) (fresh : e.exhausted = false) : exhaustionTest endIt s a e r =
    passOver a (fun s l => addCause endIt s l .allowance s.adm.classes[e.cls].allowanceGrace)
      (markedEntry a (fun e => { e with exhausted := true }) { s.mtr with exhaustions := bump s.mtr.exhaustions } s) :=
  if_neg (by rintro (above | ended); exacts [absurd left (Int.not_le.2 above), absurd ended (by rw [fresh]; decide)])

theorem restorationTest_still (r : Int) (h : r ≤ 0 ∨ e.exhausted = false) : restorationTest s a e r = s := if_pos h

theorem restorationTest_restores (r : Int) (left : 0 < r) (before : e.exhausted = true) : restorationTest s a e r =
    passOver a (fun s l => sendText (removeCause s l .allowance) l 19)
      (markedEntry a (fun e => { e with exhausted := false }) { s.mtr with restorations := bump s.mtr.restorations } s) :=
  if_neg (by rintro (none | fresh); exacts [absurd left (Int.not_lt.2 none), absurd fresh (by rw [before]; decide)])

/-! ### What keeps them so: every evaluation, and every end with ALLOWANCE -/

/-- An ender that keeps such calls so. -/
def KeepsRunsOrEnded (endIt : Ender) : Prop := ∀ (c : Call) l s m, RunsOrEnded c l s → RunsOrEnded c l (endIt s m .allowance)

theorem RunsOrEnded.addCause (ke : KeepsRunsOrEnded endIt) (h : RunsOrEnded c l s) (reached : evaluationReaches s a m = true) (grace : Interval) :
    RunsOrEnded c l (addCause endIt s m .allowance grace) := by
  obtain ⟨d, on, reach, -⟩ := (evaluationReaches_iff s a m).1 reached
  by_cases off : grace.count = 0
  · rw [addCause_ends on reach off]
    exact ke c l s m h
  · have on' : 1 ≤ grace.count := Nat.one_le_iff_ne_zero.2 off
    obtain ⟨d', drops, texted, eq⟩ := addCause_texted (endIt := endIt) (kind := .allowance) on reach on'
    rw [eq]
    by_cases own : l = m
    · subst own
      obtain ⟨d₀, on₀, runs⟩ := h.of_reached reached
      obtain rfl := Option.some.inj (on.symm.trans on₀)
      have given : RunsOn c (givenCause d .allowance grace) := ⟨runs.number, runs.attach, runs.running, runs.reach, runs.notDue⟩
      exact .inl ⟨d', State.callOn_setLine_self s l _, given.texted texted⟩
    · exact h.of_callOn (congrArg Line.call (State.line_setLine_ne s _ own))

theorem RunsOrEnded.fold {f : State → LineNo → State} (step : ∀ u m, RunsOrEnded c l u → evaluationReaches u a m = true → RunsOrEnded c l (f u m))
    (h : RunsOrEnded c l s) (ls : List LineNo) :
    RunsOrEnded c l (ls.foldl (stepOver a f) s) := by
  induction ls generalizing s with
  | nil => exact h
  | cons m ls ih =>
    refine ih ?_
    cases reached : evaluationReaches s a m with
    | true => exact (stepOver_reached reached (f := f)).symm ▸ step s m h reached
    | false => rwa [stepOver_apart reached]

theorem RunsOrEnded.markedEntry (h : RunsOrEnded c l s) (f : Entry → Entry) (m : Mtr) : RunsOrEnded c l (markedEntry a f m s) := h.of_callOn rfl

theorem RunsOrEnded.warningTest (h : RunsOrEnded c l s) (e : Entry) (r : Int) : RunsOrEnded c l (warningTest s a e r) := by
  by_cases low : Low s e r
  · cases first : e.warnedAtLevel with
    | true => rwa [warningTest_again r low first]
    | false =>
      rw [warningTest_warns r low first]
      refine RunsOrEnded.fold (fun u m now reached => ?_) (h.markedEntry _ _) allLines
      by_cases own : l = m
      · subst own
        obtain ⟨d, on, runs⟩ := now.of_reached reached
        exact runs.warnCall on
      · exact now.of_local (warnCall_local u m) own
  · rw [warningTest_above r low]
    exact h.of_callOn rfl

theorem RunsOrEnded.exhaustionTest (ke : KeepsRunsOrEnded endIt) (h : RunsOrEnded c l s) (e : Entry) (r : Int) :
    RunsOrEnded c l (exhaustionTest endIt s a e r) := by
  by_cases still : 0 < r ∨ e.exhausted = true
  · rwa [exhaustionTest_still r still]
  · obtain ⟨left, fresh⟩ := not_or.1 still
    rw [exhaustionTest_exhausts r (Int.not_lt.1 left) (Bool.not_eq_true _ ▸ fresh)]
    exact RunsOrEnded.fold (fun u m now reached => now.addCause ke reached _) (h.markedEntry _ _) allLines

theorem RunsOrEnded.restorationTest (h : RunsOrEnded c l s) (e : Entry) (r : Int) : RunsOrEnded c l (restorationTest s a e r) := by
  by_cases still : r ≤ 0 ∨ e.exhausted = false
  · rwa [restorationTest_still r still]
  · obtain ⟨left, before⟩ := not_or.1 still
    rw [restorationTest_restores r (Int.not_le.1 left) (Bool.not_eq_false _ ▸ before)]
    refine RunsOrEnded.fold (fun u m now reached => ?_) (h.markedEntry _ _) allLines
    by_cases own : l = m
    · subst own
      obtain ⟨d, on, runs⟩ := now.of_reached reached
      exact runs.restored on
    · exact now.of_local ((removeCause_local u m .allowance).trans (sendText_local _ m _ _)) own

theorem RunsOrEnded.evaluateAllowance (ke : KeepsRunsOrEnded endIt) (h : RunsOrEnded c l s) (a : FrameNo × EntryNo) :
    RunsOrEnded c l (evaluateAllowance endIt s a) := by
  unfold Machine.evaluateAllowance
  split
  · exact h
  · split
    · exact h
    · exact ((h.warningTest _ _).exhaustionTest ke _ _).restorationTest _ _

theorem RunsOrEnded.evaluateCall (ke : KeepsRunsOrEnded endIt) (h : RunsOrEnded c l s) (m : LineNo) : RunsOrEnded c l (evaluateCall endIt s m) := by
  unfold Machine.evaluateCall
  split
  · exact h
  · exact h.evaluateAllowance ke _

/-! ### The end of another call of the account -/

theorem RunsOrEnded.modCall (h : RunsOrEnded c l s) (ne : l ≠ m) (f : Call → Call) : RunsOrEnded c l (s.modCall m f) :=
  h.of_callOn (congrArg Line.call (State.line_modCall_ne _ _ ne))

theorem RunsOrEnded.addUnits (h : RunsOrEnded c l s) (ne : l ≠ m) (n : Nat) : RunsOrEnded c l (addUnits s m n) := by
  unfold Machine.addUnits
  split
  · exact h
  · dsimp only
    split
    · exact h.modCall ne _
    · exact (h.modCall ne _).of_callOn rfl

theorem RunsOrEnded.chargeUnitSeconds (ke : KeepsRunsOrEnded endIt) (h : RunsOrEnded c l s) (ne : l ≠ m) (n : Nat) :
    RunsOrEnded c l (chargeUnitSeconds endIt s m n) := by
  unfold Machine.chargeUnitSeconds
  split
  · exact h
  · exact ((h.modCall ne _).addUnits ne _).evaluateCall ke m

theorem RunsOrEnded.completeStep (ke : KeepsRunsOrEnded endIt) (h : RunsOrEnded c l s) (m : LineNo) : RunsOrEnded c l (completeStep endIt s m) := by
  by_cases own : l = m
  · subst own
    rwa [completeStep_not_due h.not_due]
  · unfold Machine.completeStep
    split
    · exact h
    · split
      · exact h
      · have charged := (h.modCall own fun c => { c with meter := { c.meter with stepPos := 0 } }).chargeUnitSeconds ke own
        dsimp only
        split
        · exact (charged _).modCall own _
        · exact charged _

theorem RunsOrEnded.closeMeter (ke : KeepsRunsOrEnded endIt) (h : RunsOrEnded c l s) (ne : l ≠ m) : RunsOrEnded c l (closeMeter endIt s m) := by
  have final : RunsOrEnded c l (finalStep endIt s m) := by
    unfold finalStep
    split
    · exact h
    · split
      · exact h
      · exact h.chargeUnitSeconds ke ne _
  unfold Machine.closeMeter
  split
  · exact h
  · split
    · unfold endRounding
      split
      · exact final
      · exact ((final.modCall ne _).addUnits ne _).evaluateCall ke m
    · exact h

theorem RunsOrEnded.endingWork (ke : KeepsRunsOrEnded endIt) (h : RunsOrEnded c l s) (ne : l ≠ m) (was : Phase) :
    RunsOrEnded c l (endingWork endIt s m was) := by
  by_cases connected : was = .connected
  · rw [connected]
    exact ((h.modCall ne _).closeMeter ke ne).of_local (closingFlush_local _ m) ne
  · exact h.of_local (endingWork_local endIt s m connected) ne

theorem endCallWith_keepsRunsOrEnded (he : EndsWithin endIt) (ke : KeepsRunsOrEnded endIt) (h : RunsOrEnded c l s) (m : LineNo) (lost : Bool) :
    RunsOrEnded c l (endCallWith endIt s m .allowance lost) := by
  by_cases own : l = m
  · subst own
    rcases h with ⟨d, on, runs⟩ | carries
    · have ends := endCallWith_carries he on runs.running (runs.not_due on) (.inl (by decide : EndCause.allowance ≠ .hostClose)) lost
      exact .inr fun d' on' => runs.number ▸ ends d' on'
    · have same : endCallWith endIt s l .allowance lost = s := by
        unfold endCallWith
        rw [completeStep_not_due (not_due_of_carries carries)]
        dsimp only
        split
        · rfl
        · next d on =>
          obtain ⟨-, ended, -⟩ := carries d on
          exact if_pos (by rw [ended]; rfl)
      rw [same]
      exact .inr carries
  · have stepped := h.completeStep ke m
    unfold endCallWith
    dsimp only
    split
    · exact stepped
    · split
      · exact stepped
      · exact ((stepped.modCall own _).endingWork ke own _).of_local (lineStrand_local _ _ _ _ _) own

theorem endFuel_keepsRunsOrEnded (n : Nat) : KeepsRunsOrEnded (endFuel n) := by
  induction n with
  | zero => exact fun _ _ _ _ h => h
  | succ n ih => exact fun _ _ _ m h => endCallWith_keepsRunsOrEnded (endFuel_within n) ih h m false

/-! ### The pass that ends them -/

/-- An exhaustion under a grace of 0 ends each call of the account (R161). -/
theorem exhaustionTest_ends {r : Int} (left : r ≤ 0) (fresh : e.exhausted = false) (grace : s.adm.classes[e.cls].allowanceGrace.count = 0)
    (attach : c.attach = some a) (runs : RunsOrEnded c l s) : CarriesCause (exhaustionTest endCall s a e r) l c .allowance := by
  rw [exhaustionTest_exhausts r left fresh]
  generalize hv : markedEntry a (fun e => { e with exhausted := true }) { s.mtr with exhaustions := bump s.mtr.exhaustions } s = v
  have runsV : RunsOrEnded c l v := hv ▸ runs.markedEntry _ _
  have graceV : v.adm.classes[e.cls].allowanceGrace.count = 0 := by rw [← hv]; exact grace
  let f := stepOver a fun s m => addCause endCall s m .allowance s.adm.classes[e.cls].allowanceGrace
  have contained : Contained f := fun T s m closed inside =>
    .ite (fun _ => addCause_within endCall_within closed inside .allowance _) fun _ => .refl T s
  obtain ⟨before, after, split⟩ := List.append_of_mem (mem_allLines l)
  have nodup := allLines_nodup
  rw [split] at nodup
  obtain ⟨-, tail, -⟩ := List.nodup_append.1 nodup
  have early : RunsOrEnded c l (before.foldl f v) :=
    RunsOrEnded.fold (fun u m now reached => now.addCause (endFuel_keepsRunsOrEnded 49) reached _) runsV before
  have within : Within (fun _ => True) v (before.foldl f v) :=
    Within.foldl (fun u _ m => contained _ u m (fun _ _ _ _ _ _ _ => trivial) trivial) before (.refl _ v)
  generalize hu : before.foldl f v = u at early within
  have graceU : u.adm.classes[e.cls].allowanceGrace.count = 0 := by rw [within.keeps.classes]; exact graceV
  have own : CarriesCause (f u l) l c .allowance := by
    rcases early with ⟨d, on, runs⟩ | carries
    · have reached : evaluationReaches u a l = true := (evaluationReaches_iff u a l).2 ⟨d, on, runs.reach, runs.attach.trans attach⟩
      have step : f u l = endCall u l .allowance := (stepOver_reached reached).trans (addCause_ends on runs.reach graceU)
      rw [step]
      have ends : CarriesCause (endCall u l .allowance) l d .allowance :=
        endCallWith_carries (endFuel_within 48) on runs.running (runs.not_due on) (.inl (by decide)) false
      exact fun d' on' => runs.number ▸ ends d' on'
    · have apart : evaluationReaches u a l = false := by
        refine Bool.eq_false_iff.2 fun reached => ?_
        obtain ⟨d, on, reach, -⟩ := (evaluationReaches_iff u a l).1 reached
        obtain ⟨-, -, phase, -⟩ := carries d on
        rcases phase with p | p <;> simp [reachable, p] at reach
      have step : f u l = u := stepOver_apart apart
      exact step.symm ▸ carries
  have late : Within (· ≠ l) (f u l) (after.foldl f (f u l)) := by
    have quiet := (untouched_of_carries own).closed
    exact Within.foldl_mem after (fun w so m mem => contained _ w m (quiet.within so) fun same => (List.nodup_cons.1 tail).1 (same ▸ mem)) (.refl _ _)
  change CarriesCause (allLines.foldl f v) l c .allowance
  rw [split, List.foldl_append, List.foldl_cons, hu]
  exact own.of_callOn_eq (congrArg Line.call (late.lines l fun h => h rfl))

end Sys2Proof.Machine
end

section
/-! SUPPORT. An evaluation that ends no call: what stands after its three passes (R160 to R162). -/

namespace Sys2Proof.Machine

variable {s t u : State} {l m : LineNo} {c d d' : Call} {a : FrameNo × EntryNo} {e e' x : Entry} {r : Int} {f : State → LineNo → State}
  {g h : Call → Call} {X Y : Call → List (List Byte)} {texts more : List (List Byte)} {told told' : Call → Call → Prop}

/-! ### Texts one after another -/

theorem HasRoom.left (room : HasRoom d (texts ++ more)) : HasRoom d texts := by
  unfold HasRoom at room ⊢
  split at room
  · next connected =>
    rw [if_pos connected]
    rw [List.filter_append, List.length_append] at room
    omega
  · next other =>
    rw [if_neg other]
    rw [List.map_append, List.flatten_append, List.length_append] at room
    omega

theorem HasRoom.right (room : HasRoom d (texts ++ more)) : HasRoom (sentTexts d texts) more := by
  by_cases connected : d.phase = .connected
  · rw [HasRoom, if_pos connected, List.filter_append, List.length_append] at room
    rw [HasRoom, if_pos ((sentTexts_phase d texts).trans connected), sentTexts, if_pos connected, List.length_append]
    omega
  · rw [HasRoom, if_neg connected, List.map_append, List.flatten_append, List.length_append] at room
    rw [HasRoom, if_neg fun same => connected ((sentTexts_phase d texts).symm.trans same), sentTexts, if_neg connected, List.length_append]
    omega

theorem sentTexts_append (d : Call) (texts more : List (List Byte)) : sentTexts (sentTexts d texts) more = sentTexts d (texts ++ more) := by
  by_cases connected : d.phase = .connected
  · simp [sentTexts, connected]
  · simp [sentTexts, connected]

theorem sentTexts_nil (d : Call) : sentTexts d [] = d := by
  unfold sentTexts
  split
  · simp
  · simp

theorem sentTexts_texted (d : Call) (texts : List (List Byte)) : Texted d (sentTexts d texts) := by
  unfold sentTexts
  split
  · exact ⟨d.txBuf, _, rfl⟩
  · exact ⟨_, d.notices, rfl⟩

/-- A change to a call that stands beside its texts, its phase and its attachment. -/
structure Aside (g : Call → Call) : Prop where
  phase : ∀ d, (g d).phase = d.phase
  attach : ∀ d, (g d).attach = d.attach
  texted : ∀ d buf notices, g { d with txBuf := buf, notices := notices } = { g d with txBuf := buf, notices := notices }

theorem Aside.txBuf (ag : Aside g) (d : Call) : (g d).txBuf = d.txBuf := (congrArg Call.txBuf (ag.texted d d.txBuf d.notices) :)

theorem Aside.notices (ag : Aside g) (d : Call) : (g d).notices = d.notices := (congrArg Call.notices (ag.texted d d.txBuf d.notices) :)

theorem Aside.hasRoom (ag : Aside g) (d : Call) (texts : List (List Byte)) : HasRoom (g d) texts ↔ HasRoom d texts := by
  rw [HasRoom, HasRoom, ag.phase, ag.txBuf, ag.notices]

theorem Aside.sentTexts (ag : Aside g) (d : Call) (texts : List (List Byte)) : g (sentTexts d texts) = Machine.sentTexts (g d) texts := by
  by_cases connected : d.phase = .connected
  · have connected' : (g d).phase = .connected := (ag.phase d).trans connected
    rw [Machine.sentTexts, Machine.sentTexts, if_pos connected, if_pos connected', ag.notices]
    exact (ag.texted d d.txBuf _).trans (by rw [← ag.txBuf d])
  · have connected' : (g d).phase ≠ .connected := fun same => connected ((ag.phase d).symm.trans same)
    rw [Machine.sentTexts, Machine.sentTexts, if_neg connected, if_neg connected', ag.txBuf]
    exact (ag.texted d _ d.notices).trans (by rw [← ag.notices d])

theorem Aside.comp (ag : Aside g) (ah : Aside h) : Aside fun d => h (g d) where
  phase d := (ah.phase (g d)).trans (ag.phase d)
  attach d := (ah.attach (g d)).trans (ag.attach d)
  texted d buf notices := by rw [ag.texted, ah.texted]

theorem aside_id : Aside id := ⟨fun _ => rfl, fun _ => rfl, fun _ _ _ => rfl⟩

/-- The call that was `d` is changed as `g` says, and told the texts, all of them if it has room. -/
structure Told (g : Call → Call) (X : Call → List (List Byte)) (d d' : Call) : Prop where
  texted : Texted (g d) d'
  heard : HasRoom d (X d) → d' = sentTexts (g d) (X d)

theorem Told.nothing (d : Call) : Told id (fun _ => []) d d := ⟨.refl d, fun _ => (sentTexts_nil d).symm⟩

theorem Told.trans (ag : Aside g) (ah : Aside h) (first : Told g X d d') (second : Told h Y d' c)
    (same : ∀ d', Texted (g d) d' → Y d' = Y d) : Told (fun d => h (g d)) (fun d => X d ++ Y d) d c where
  texted := by
    obtain ⟨buf, notices, eq⟩ := first.texted
    obtain ⟨buf', notices', eq'⟩ := second.texted
    refine ⟨buf', notices', eq'.trans ?_⟩
    rw [eq, ah.texted]
  heard room := by
    have d'_eq := first.heard room.left
    have next := second.heard
    rw [same d' first.texted, d'_eq, ah.sentTexts, sentTexts_append] at next
    refine next ?_
    have room' : HasRoom (g d) (X d ++ Y d) := (ag.hasRoom d _).2 room
    exact room'.right

/-! ### One pass over the calls of an entry -/

/-- The part with its lines as given, and texts dropped or not. -/
def heardBy (s : State) (lines : Vector Line 48) (drops : Nat) : State :=
  { s with lines := lines, soe := { s.soe with textDrops := drops } }

/-- The part with the entry as given, and the meter's counters. -/
def entryNow (a : FrameNo × EntryNo) (e : Entry) (m : Mtr) (s : State) : State := markedEntry a (fun _ => e) m s

/-- What a pass leaves on a line: nothing new where it reaches no call, and else the call it told. -/
structure Passed (a : FrameNo × EntryNo) (told : Call → Call → Prop) (s t : State) (l : LineNo) : Prop where
  apart : evaluationReaches s a l = false → t.line l = s.line l
  own : ∀ d, s.callOn l = some d → reachable d = true → d.attach = some a → ∃ d', t.line l = { s.line l with call := some d' } ∧ told d d'

/-- An operation on one line that tells its call, among states that hear texts alone. -/
def Tells (a : FrameNo × EntryNo) (told : Call → Call → Prop) (s : State) (f : State → LineNo → State) : Prop :=
  ∀ lines drops m d, (heardBy s lines drops).callOn m = some d → reachable d = true → d.attach = some a →
    ∃ d' drops', f (heardBy s lines drops) m = textedTo (heardBy s lines drops) m d' drops' ∧ told d d'

theorem Passed.of_line (h : Passed a told u t l) (same : u.line l = s.line l) : Passed a told s t l where
  apart no := (h.apart (by simpa only [evaluationReaches, State.callOn, same] using no)).trans same
  own d on reach attach := by
    obtain ⟨d', line, now⟩ := h.own d ((congrArg Line.call same).trans on) reach attach
    exact ⟨d', line.trans (by rw [same]), now⟩

theorem Passed.to_line (h : Passed a told s u l) (same : t.line l = u.line l) : Passed a told s t l where
  apart no := same.trans (h.apart no)
  own d on reach attach := by
    obtain ⟨d', line, now⟩ := h.own d on reach attach
    exact ⟨d', same.trans line, now⟩

theorem stepOver_tells (tells : Tells a told s f) (lines : Vector Line 48) (drops : Nat) (m : LineNo) :
    (∃ lines' drops', stepOver a f (heardBy s lines drops) m = heardBy s lines' drops') ∧
      Passed a told (heardBy s lines drops) (stepOver a f (heardBy s lines drops) m) m ∧
      ∀ l, l ≠ m → (stepOver a f (heardBy s lines drops) m).line l = (heardBy s lines drops).line l := by
  generalize hu : heardBy s lines drops = u
  cases reached : evaluationReaches u a m with
  | false =>
    rw [stepOver_apart reached]
    refine ⟨⟨lines, drops, hu.symm⟩, ⟨fun _ => rfl, fun d on reach attach => ?_⟩, fun _ _ => rfl⟩
    exact absurd ((evaluationReaches_iff u a m).2 ⟨d, on, reach, attach⟩) (by rw [reached]; decide)
  | true =>
    obtain ⟨d, on, reach, attach⟩ := (evaluationReaches_iff u a m).1 reached
    obtain ⟨d', drops', eq, now⟩ := tells lines drops m d (by rwa [hu]) reach attach
    rw [stepOver_reached reached]
    rw [hu] at eq
    rw [eq]
    refine ⟨⟨(u.setLine m { u.line m with call := some d' }).lines, drops', by rw [← hu]; rfl⟩, ⟨fun no => ?_, fun d₀ on₀ _ _ => ?_⟩, fun l ne => ?_⟩
    · exact absurd reached (by rw [no]; decide)
    · obtain rfl := Option.some.inj (on.symm.trans on₀)
      exact ⟨d', State.line_setLine_self u m _, now⟩
    · exact State.line_setLine_ne u _ ne

theorem steps_tell (tells : Tells a told s f) (ls : List LineNo) (nodup : ls.Nodup) (lines : Vector Line 48) (drops : Nat) :
    (∃ lines' drops', ls.foldl (stepOver a f) (heardBy s lines drops) = heardBy s lines' drops') ∧
      (∀ l ∈ ls, Passed a told (heardBy s lines drops) (ls.foldl (stepOver a f) (heardBy s lines drops)) l) ∧
      ∀ l, l ∉ ls → (ls.foldl (stepOver a f) (heardBy s lines drops)).line l = (heardBy s lines drops).line l := by
  induction ls generalizing lines drops with
  | nil => exact ⟨⟨lines, drops, rfl⟩, fun l mem => (List.not_mem_nil mem).elim, fun _ _ => rfl⟩
  | cons m ls ih =>
    obtain ⟨fresh, tail⟩ := List.nodup_cons.1 nodup
    obtain ⟨⟨lines', drops', eq⟩, own, others⟩ := stepOver_tells tells lines drops m
    obtain ⟨form, rest, untouched⟩ := ih tail lines' drops'
    rw [List.foldl_cons]
    rw [← eq] at form rest untouched
    refine ⟨form, fun l mem => ?_, fun l out => ?_⟩
    · rcases List.mem_cons.1 mem with rfl | later
      · exact own.to_line (untouched l fresh)
      · exact (rest l later).of_line (others l fun same => fresh (same ▸ later))
    · obtain ⟨ne, later⟩ := not_or.1 fun mem => out (List.mem_cons.2 mem)
      exact (untouched l later).trans (others l ne)

/-! ### The stages of an evaluation -/

/-- A stage: the entry and the counters as given, each call of the entry told, and nothing else. -/
structure Staged (a : FrameNo × EntryNo) (e : Entry) (m : Mtr) (told : Call → Call → Prop) (s t : State) : Prop where
  rest : ∃ lines drops, t = heardBy (entryNow a e m s) lines drops
  lines : ∀ l, Passed a told s t l

theorem passOver_staged {mtr : Mtr} (tells : Tells a told (entryNow a e mtr s) f) : Staged a e mtr told s (passOver a f (entryNow a e mtr s)) := by
  obtain ⟨form, all, -⟩ := steps_tell tells allLines allLines_nodup s.lines s.soe.textDrops
  exact ⟨form, fun l => (all l (mem_allLines l)).of_line rfl⟩

theorem passOver_alone (no : ∀ l, evaluationReaches s a l = false) : passOver a f s = s := by
  unfold passOver
  induction allLines with
  | nil => rfl
  | cons l ls ih => rw [List.foldl_cons, stepOver_apart (no l), ih]

theorem passOver_skip (a : FrameNo × EntryNo) (s : State) : passOver a (fun s _ => s) s = s := by
  unfold passOver
  induction allLines with
  | nil => rfl
  | cons l ls ih => rw [List.foldl_cons, show stepOver a (fun s _ => s) s l = s from ite_self s, ih]

/-- The part with an entry slot as given. -/
def slotNow (s : State) (a : FrameNo × EntryNo) (o : Option Entry) : State :=
  s.modFrame a.1 fun x => { x with entries := x.entries.set a.2 o }

theorem modEntry_slotNow (he : s.entryAt a = some e) (k : Entry → Entry) : s.modEntry a k = slotNow s a (some (k e)) :=
  congrArg (fun o => slotNow s a (Option.map k o)) he

theorem slotNow_same (he : s.entryAt a = some e) : slotNow s a (some e) = s := by
  have entries : (s.frame a.1).entries.set a.2 (some e) = (s.frame a.1).entries := by
    rw [← he]
    exact Vector.set_getElem_self a.2.isLt
  have frames : s.acc.frames.set a.1 (s.frame a.1) = s.acc.frames := Vector.set_getElem_self a.1.isLt
  calc slotNow s a (some e)
      = { s with acc := { s.acc with frames := s.acc.frames.set a.1 { s.frame a.1 with entries := (s.frame a.1).entries.set a.2 (some e) } } } := rfl
    _ = s := by rw [entries, frames]

theorem modEntry_eq (he : s.entryAt a = some e) (k : Entry → Entry) : s.modEntry a k = s.modEntry a fun _ => k e :=
  (modEntry_slotNow he k).trans (modEntry_slotNow he fun _ => k e).symm

theorem modEntry_same (he : s.entryAt a = some e) : (s.modEntry a fun _ => e) = s := (modEntry_slotNow he _).trans (slotNow_same he)

theorem entryNow_entryAt (he : s.entryAt a = some x) (e : Entry) (mtr : Mtr) : (entryNow a e mtr s).entryAt a = some e :=
  (State.entryAt_modEntry_self s a _).trans (by rw [he]; rfl)

theorem entryNow_again (e e' : Entry) (m m' : Mtr) (s : State) (lines : Vector Line 48) (drops : Nat) :
    entryNow a e' m' (heardBy (entryNow a e m s) lines drops) = heardBy (entryNow a e' m' s) lines drops := by
  simp [entryNow, markedEntry, heardBy, State.modEntry, State.modFrame, Function.comp_def]

theorem Told.kept (ag : Aside g) (told : Told g X d d') : d'.phase = d.phase ∧ d'.attach = d.attach := by
  obtain ⟨_, _, eq⟩ := told.texted
  rw [eq]
  exact ⟨ag.phase d, ag.attach d⟩

theorem Staged.trans {mtr mtr' : Mtr} (first : Staged a e mtr (Told g X) s t) (second : Staged a e' mtr' (Told h Y) t u) (ag : Aside g) (ah : Aside h)
    (same : ∀ d d', Texted (g d) d' → Y d' = Y d) : Staged a e' mtr' (Told (fun d => h (g d)) fun d => X d ++ Y d) s u where
  rest := by
    obtain ⟨lines, drops, rfl⟩ := first.rest
    obtain ⟨lines', drops', rfl⟩ := second.rest
    exact ⟨lines', drops', by rw [entryNow_again]; rfl⟩
  lines l := {
    apart no := by
      have line := (first.lines l).apart no
      exact ((second.lines l).apart (by simpa only [evaluationReaches, State.callOn, line] using no)).trans line
    own d on reach attach := by
      obtain ⟨d', line, now⟩ := (first.lines l).own d on reach attach
      obtain ⟨phase, held⟩ := now.kept ag
      have reach' : reachable d' = true := by simpa only [reachable, phase, held] using reach
      obtain ⟨c, line', later⟩ := (second.lines l).own d' (congrArg Line.call line) reach' (held.trans attach)
      exact ⟨c, line'.trans (by rw [line]), now.trans ag ah later (same d)⟩ }

end Sys2Proof.Machine
end

section
/-! SUPPORT. The three tests of an evaluation as stages, and the whole of it (R159 to R162). -/

namespace Sys2Proof.Machine

variable {s t u : State} {l m : LineNo} {c d d' : Call} {a : FrameNo × EntryNo} {e x : Entry} {r : Int} {f : State → LineNo → State}
  {g : Call → Call} {X : Call → List (List Byte)} {told : Call → Call → Prop} {endIt : Ender} {p : Prop} [Decidable p]
  {grace : Interval} {txt : List Byte}

/-! ### What each test does to a call, and tells it -/

/-- The call that a warning reaches has been warned, from then on (R160). -/
def warnedIf (p : Prop) [Decidable p] (d : Call) : Call := { d with meter := { d.meter with warned := if p then true else d.meter.warned } }

/-- A call is warned once in its life (R160). -/
def warningWords (p : Prop) [Decidable p] (txt : List Byte) (d : Call) : List (List Byte) := if p ∧ d.meter.warned = false then [txt] else []

/-- The call that an exhaustion reaches takes ALLOWANCE (R161). -/
def givenIf (p : Prop) [Decidable p] (grace : Interval) (d : Call) : Call := if p then givenCause d .allowance grace else d

/-- The grace that is left is told to it (R25). -/
def graceWords (p : Prop) [Decidable p] (txt : List Byte) (grace : Interval) (d : Call) : List (List Byte) :=
  if p then [substituteHash (decimal (wholeMinutes (leftOf d .allowance grace))) txt] else []

/-- The call that a restoration reaches loses ALLOWANCE (R162). -/
def freedIf (p : Prop) [Decidable p] (d : Call) : Call := if p then { d with pend := d.pend.set .allowance none } else d

/-- A restoration is told to it (R162). -/
def freedWords (p : Prop) [Decidable p] (txt : List Byte) (_ : Call) : List (List Byte) := if p then [txt] else []

theorem warnedIf_aside : Aside (warnedIf p) := ⟨fun _ => rfl, fun _ => rfl, fun _ _ _ => rfl⟩

theorem givenIf_aside : Aside (givenIf p grace) := by
  by_cases h : p
  · rw [show givenIf p grace = fun d => givenCause d .allowance grace from funext fun _ => if_pos h]
    exact ⟨fun _ => rfl, fun _ => rfl, fun _ _ _ => rfl⟩
  · rw [show givenIf p grace = id from funext fun _ => if_neg h]
    exact aside_id

theorem freedIf_aside : Aside (freedIf p) := by
  by_cases h : p
  · rw [show freedIf p = fun d => { d with pend := d.pend.set .allowance none } from funext fun _ => if_pos h]
    exact ⟨fun _ => rfl, fun _ => rfl, fun _ _ _ => rfl⟩
  · rw [show freedIf p = id from funext fun _ => if_neg h]
    exact aside_id

/-! ### The operations of the passes -/

/-- The operation of a pass that is not made. -/
def noOp (s : State) (_ : LineNo) : State := s

theorem sendText_told (on : s.callOn l = some d) (hears : Hearing d) (slot : Fin 24) (n : Option Nat) :
    ∃ d' drops, sendText s l slot n = textedTo s l d' drops ∧ Told id (fun _ => [textChars s slot n]) d d' := by
  by_cases room : HasRoom d [textChars s slot n]
  · exact ⟨_, s.soe.textDrops, sendText_room on hears slot n room, sentTexts_texted d _, fun _ => rfl⟩
  · obtain ⟨d', drops, texted, eq⟩ := sendText_texted on slot n
    exact ⟨d', drops, eq, texted, fun h => absurd h room⟩

/-- A call is changed, and told a text. -/
theorem sendText_tells (ag : Aside g) (reach : reachable d = true) (slot : Fin 24) (n : Option Nat) (words : X d = [textChars s slot n]) :
    ∃ d' drops, sendText (s.setLine l { s.line l with call := some (g d) }) l slot n = textedTo s l d' drops ∧ Told g X d d' := by
  have hears : Hearing (g d) := by
    rw [Hearing, ag.phase]
    exact hearing_of_reachable reach
  obtain ⟨d', drops, eq, told⟩ := sendText_told (State.callOn_setLine_self s l { s.line l with call := some (g d) }) hears slot n
  refine ⟨d', drops, eq.trans ?_, told.texted, fun room => ?_⟩
  · rw [textedTo, State.line_setLine_self, State.setLine_setLine]
    rfl
  · rw [words] at room ⊢
    exact told.heard ((ag.hasRoom d _).2 room)

theorem tells_noOp (nothing : ∀ d, told d d) : Tells a told s noOp := by
  intro lines drops m d on _ _
  exact ⟨d, drops, (textedTo_self on).symm, nothing d⟩

theorem Told.still (g_eq : g d = d) (silent : X d = []) : Told g X d d where
  texted := by
    rw [g_eq]
    exact .refl d
  heard _ := by rw [g_eq, silent, sentTexts_nil]

theorem warnCall_tells : Tells a (Told (warnedIf p) (warningWords p s.soe.texts[11])) s (if p then warnCall else noOp) := by
  by_cases h : p
  · rw [if_pos h]
    intro lines drops m d on reach _
    cases before : d.meter.warned with
    | true =>
      refine ⟨d, drops, ?_, Told.still ?_ ?_⟩
      · rw [warnCall, on]
        dsimp only
        rw [if_pos before]
        exact (textedTo_self on).symm
      · rw [warnedIf, if_pos h, ← before]
      · rw [warningWords, if_neg (by simp [before])]
    | false =>
      have warns : warnCall (heardBy s lines drops) m =
          sendText ((heardBy s lines drops).setLine m { (heardBy s lines drops).line m with call := some (warnedIf p d) }) m 11 none := by
        rw [warnCall, on]
        dsimp only
        rw [if_neg (by rw [before]; decide), State.modCall_eq on, warnedIf, if_pos h]
      rw [warns]
      exact sendText_tells warnedIf_aside reach 11 none (if_pos ⟨h, before⟩)
  · rw [if_neg h]
    exact tells_noOp fun d => Told.still (by rw [warnedIf, if_neg h]) (if_neg fun both => h both.1)

theorem addCause_tells (on : p → 1 ≤ grace.count) (still : f = if p then fun s l => addCause endIt s l .allowance s.adm.classes[e.cls].allowanceGrace else noOp)
    (gracious : s.adm.classes[e.cls].allowanceGrace = grace) :
    Tells a (Told (givenIf p grace) (graceWords p s.soe.texts[12] grace)) s f := by
  subst still
  by_cases h : p
  · rw [if_pos h]
    intro lines drops m d there reach _
    have graced : (heardBy s lines drops).adm.classes[e.cls].allowanceGrace = grace := gracious
    have given : givenIf p grace d = givenCause d .allowance grace := if_pos h
    dsimp only
    rw [graced, addCause_eq there reach (on h), ← given]
    exact sendText_tells givenIf_aside reach 12 _ (if_pos h)
  · rw [if_neg h]
    exact tells_noOp fun d => Told.still (if_neg h) (if_neg h)

theorem removeCause_tells : Tells a (Told (freedIf p) (freedWords p s.soe.texts[19])) s
    (if p then fun s l => sendText (removeCause s l .allowance) l 19 else noOp) := by
  by_cases h : p
  · rw [if_pos h]
    intro lines drops m d on reach _
    have freed : freedIf p d = { d with pend := d.pend.set .allowance none } := if_pos h
    dsimp only
    rw [removeCause_eq on, ← freed]
    exact sendText_tells freedIf_aside reach 19 none (if_pos h)
  · rw [if_neg h]
    exact tells_noOp fun d => Told.still (if_neg h) (if_neg h)

/-! ### The tests as passes, made or not -/

theorem passOver_noOp (a : FrameNo × EntryNo) (s : State) : passOver a noOp s = s := passOver_skip a s

theorem entryNow_same (he : s.entryAt a = some e) : entryNow a e s.mtr s = s := modEntry_same he

theorem markedEntry_eq (he : s.entryAt a = some e) (k : Entry → Entry) (mtr : Mtr) : markedEntry a k mtr s = entryNow a (k e) mtr s :=
  congrArg (fun t : State => { t with mtr := mtr }) (modEntry_eq he k)

/-- The low entry is one that was not warned (R160). -/
abbrev Warns (s : State) (e : Entry) (r : Int) : Prop := Low s e r ∧ e.warnedAtLevel = false

/-- The exhaustion is new (R161). -/
abbrev Exhausts (e : Entry) (r : Int) : Prop := r ≤ 0 ∧ e.exhausted = false

/-- The exhaustion is over (R162). -/
abbrev Restores (e : Entry) (r : Int) : Prop := 0 < r ∧ e.exhausted = true

theorem warningTest_pass (he : s.entryAt a = some e) (r : Int) : warningTest s a e r =
    passOver a (if Warns s e r then warnCall else noOp) (entryNow a { e with warnedAtLevel := decide (Low s e r) }
      { s.mtr with warnings := if Warns s e r then oneMore s.mtr.warnings else s.mtr.warnings } s) := by
  by_cases low : Low s e r
  · rw [decide_eq_true low]
    by_cases first : e.warnedAtLevel = false
    · have yes : Warns s e r := ⟨low, first⟩
      rw [if_pos yes, if_pos yes, warningTest_warns r low first, markedEntry_eq he]
      rfl
    · have before : e.warnedAtLevel = true := Bool.not_eq_false _ ▸ first
      have no : ¬ Warns s e r := fun warns => first warns.2
      have same : { e with warnedAtLevel := true } = e := by rw [← before]
      rw [if_neg no, if_neg no, same, passOver_noOp, warningTest_again r low before]
      exact (entryNow_same he).symm
  · have no : ¬ Warns s e r := fun warns => low warns.1
    rw [decide_eq_false low, if_neg no, if_neg no, passOver_noOp, warningTest_above r low, modEntry_eq he]
    rfl

theorem exhaustionTest_pass (he : s.entryAt a = some x) (same : x.exhausted = e.exhausted) (r : Int) : exhaustionTest endIt s a e r =
    passOver a (if Exhausts e r then fun s l => addCause endIt s l .allowance s.adm.classes[e.cls].allowanceGrace else noOp)
      (entryNow a { x with exhausted := e.exhausted || decide (r ≤ 0) }
        { s.mtr with exhaustions := if Exhausts e r then oneMore s.mtr.exhaustions else s.mtr.exhaustions } s) := by
  by_cases yes : Exhausts e r
  · rw [if_pos yes, if_pos yes, exhaustionTest_exhausts r yes.1 yes.2, markedEntry_eq he, decide_eq_true yes.1, Bool.or_true]
    rfl
  · have still : 0 < r ∨ e.exhausted = true := by
      by_contra no
      obtain ⟨left, fresh⟩ := not_or.1 no
      exact yes ⟨Int.not_lt.1 left, Bool.not_eq_true _ ▸ fresh⟩
    have stays : (e.exhausted || decide (r ≤ 0)) = x.exhausted := by
      rw [same]
      rcases still with above | ended
      · rw [decide_eq_false (Int.not_le.2 above), Bool.or_false]
      · rw [ended, Bool.true_or]
    rw [if_neg yes, if_neg yes, stays, exhaustionTest_still r still, passOver_noOp]
    exact (entryNow_same he).symm

theorem restorationTest_pass (he : s.entryAt a = some x) (same : x.exhausted = (e.exhausted || decide (r ≤ 0))) : restorationTest s a e r =
    passOver a (if Restores e r then fun s l => sendText (removeCause s l .allowance) l 19 else noOp)
      (entryNow a { x with exhausted := decide (r ≤ 0) }
        { s.mtr with restorations := if Restores e r then oneMore s.mtr.restorations else s.mtr.restorations } s) := by
  by_cases yes : Restores e r
  · rw [if_pos yes, if_pos yes, restorationTest_restores r yes.1 yes.2, markedEntry_eq he, decide_eq_false (Int.not_le.2 yes.1)]
    rfl
  · have still : r ≤ 0 ∨ e.exhausted = false := by
      by_contra no
      obtain ⟨left, before⟩ := not_or.1 no
      exact yes ⟨Int.not_le.1 left, Bool.not_eq_false _ ▸ before⟩
    have stays : decide (r ≤ 0) = x.exhausted := by
      rw [same]
      rcases still with left | fresh
      · rw [decide_eq_true left, Bool.or_true]
      · rw [fresh, Bool.false_or]
    rw [if_neg yes, if_neg yes, stays, restorationTest_still r still, passOver_noOp]
    exact (entryNow_same he).symm

/-! ### The whole evaluation -/

/-- The entry after its evaluation. -/
def evaluated (s : State) (e : Entry) (r : Int) : Entry := { e with warnedAtLevel := decide (Low s e r), exhausted := decide (r ≤ 0) }

/-- The counters after its evaluation. -/
def counted (s : State) (e : Entry) (r : Int) : Mtr :=
  { s.mtr with
    warnings := if Warns s e r then oneMore s.mtr.warnings else s.mtr.warnings
    exhaustions := if Exhausts e r then oneMore s.mtr.exhaustions else s.mtr.exhaustions
    restorations := if Restores e r then oneMore s.mtr.restorations else s.mtr.restorations }

/-- The call after an evaluation of its entry that ends no call. -/
def toldCall (s : State) (e : Entry) (r : Int) (d : Call) : Call :=
  freedIf (Restores e r) (givenIf (Exhausts e r) s.adm.classes[e.cls].allowanceGrace (warnedIf (Warns s e r) d))

/-- What the evaluation tells it. -/
def toldWords (s : State) (e : Entry) (r : Int) (d : Call) : List (List Byte) :=
  (warningWords (Warns s e r) s.soe.texts[11] d ++ graceWords (Exhausts e r) s.soe.texts[12] s.adm.classes[e.cls].allowanceGrace d) ++
    freedWords (Restores e r) s.soe.texts[19] d

/-- The three tests, one after another, and the places they leave standing (R159). -/
theorem evaluateAllowance_tests {n : Nat} (he : s.entryAt a = some e) (limit : e.allowance = some n) (r_eq : r = remainingOf n e.charged) :
    evaluateAllowance endIt s a = restorationTest (exhaustionTest endIt (warningTest s a e r) a e r) a e r := by
  subst r_eq
  simp only [evaluateAllowance, he, limit]

theorem evaluateAllowance_alone {n : Nat} (he : s.entryAt a = some e) (limit : e.allowance = some n) (r_eq : r = remainingOf n e.charged)
    (no : ∀ l, evaluationReaches s a l = false) : evaluateAllowance endIt s a = entryNow a (evaluated s e r) (counted s e r) s := by
  have again (e' e'' : Entry) (m m' : Mtr) : entryNow a e'' m' (entryNow a e' m s) = entryNow a e'' m' s := entryNow_again e' e'' m m' s s.lines s.soe.textDrops
  have quiet (f : State → LineNo → State) (e' : Entry) (m : Mtr) : passOver a f (entryNow a e' m s) = entryNow a e' m s := passOver_alone no
  rw [evaluateAllowance_tests he limit r_eq, warningTest_pass he, quiet]
  rw [exhaustionTest_pass (x := { e with warnedAtLevel := decide (Low s e r) }) (e := e) (entryNow_entryAt he _ _) rfl, again, quiet]
  rw [restorationTest_pass (x := { e with warnedAtLevel := decide (Low s e r), exhausted := e.exhausted || decide (r ≤ 0) }) (e := e)
    (entryNow_entryAt he _ _) rfl, again, quiet]
  rfl

theorem warningTest_staged (he : s.entryAt a = some e) (r : Int) : Staged a { e with warnedAtLevel := decide (Low s e r) }
    { s.mtr with warnings := if Warns s e r then oneMore s.mtr.warnings else s.mtr.warnings }
    (Told (warnedIf (Warns s e r)) (warningWords (Warns s e r) s.soe.texts[11])) s (warningTest s a e r) := by
  rw [warningTest_pass he]
  exact passOver_staged (warnCall_tells (s := entryNow a _ _ s))

theorem exhaustionTest_staged (he : s.entryAt a = some x) (same : x.exhausted = e.exhausted) (r : Int)
    (gracious : Exhausts e r → 1 ≤ s.adm.classes[e.cls].allowanceGrace.count) : Staged a { x with exhausted := e.exhausted || decide (r ≤ 0) }
    { s.mtr with exhaustions := if Exhausts e r then oneMore s.mtr.exhaustions else s.mtr.exhaustions }
    (Told (givenIf (Exhausts e r) s.adm.classes[e.cls].allowanceGrace) (graceWords (Exhausts e r) s.soe.texts[12] s.adm.classes[e.cls].allowanceGrace))
    s (exhaustionTest endIt s a e r) := by
  rw [exhaustionTest_pass he same]
  exact passOver_staged (addCause_tells (s := entryNow a _ _ s) gracious rfl rfl)

theorem restorationTest_staged (he : s.entryAt a = some x) (same : x.exhausted = (e.exhausted || decide (r ≤ 0))) :
    Staged a { x with exhausted := decide (r ≤ 0) }
    { s.mtr with restorations := if Restores e r then oneMore s.mtr.restorations else s.mtr.restorations }
    (Told (freedIf (Restores e r)) (freedWords (Restores e r) s.soe.texts[19])) s (restorationTest s a e r) := by
  rw [restorationTest_pass he same]
  exact passOver_staged (removeCause_tells (s := entryNow a _ _ s))

/-- What a stage leaves of its entry, the counters, the classes and the texts. -/
theorem Staged.stands {mtr : Mtr} (h : Staged a e mtr told s t) (he : s.entryAt a = some x) :
    t.entryAt a = some e ∧ t.mtr = mtr ∧ t.adm = s.adm ∧ t.soe.texts = s.soe.texts := by
  obtain ⟨lines, drops, rfl⟩ := h.rest
  exact ⟨entryNow_entryAt he e mtr, rfl, rfl, rfl⟩

/-- An evaluation that ends no call leaves the entry and the counters evaluated, tells each call of the entry, and nothing else. -/
theorem evaluateAllowance_staged {n : Nat} (he : s.entryAt a = some e) (limit : e.allowance = some n) (r_eq : r = remainingOf n e.charged)
    (gracious : Exhausts e r → 1 ≤ s.adm.classes[e.cls].allowanceGrace.count) :
    Staged a (evaluated s e r) (counted s e r) (Told (toldCall s e r) (toldWords s e r)) s (evaluateAllowance endIt s a) := by
  rw [evaluateAllowance_tests he limit r_eq]
  have first := warningTest_staged he r
  obtain ⟨he', mtr, adm, texts⟩ := first.stands he
  generalize warningTest s a e r = t at first he' mtr adm texts
  have second := exhaustionTest_staged (endIt := endIt) (e := e) he' rfl r (by rwa [adm])
  obtain ⟨he'', mtr', adm', texts'⟩ := second.stands he'
  generalize exhaustionTest endIt t a e r = u at second he'' mtr' adm' texts'
  have third := restorationTest_staged (e := e) (r := r) he'' rfl
  rw [mtr, adm, texts] at second
  rw [mtr', mtr, texts', texts] at third
  have both := first.trans second warnedIf_aside givenIf_aside fun d d' texted => by
    obtain ⟨_, _, rfl⟩ := texted
    rfl
  exact both.trans third (warnedIf_aside.comp givenIf_aside) freedIf_aside fun _ _ _ => rfl

end Sys2Proof.Machine
end

section
/-! SUPPORT. ALLOWANCE ADJUST (R93). -/

namespace Sys2Proof.Machine

variable {s t u v : State} {l m : LineNo} {c d d' : Call} {a : FrameNo × EntryNo} {e x : Entry} {r : Int} {f : InFrame} {rest : List InFrame}
  {b account : Nat} {delta : Int} {g : FrameNo} {i : EntryNo} {carry : State → FrameNo × EntryNo → State × Answer}

/-! ### Its fields, and its search for the account (R93) -/

theorem adjustBad_eq (b account : Nat) (delta : Int) : adjustBad b account delta =
    if 16383 < b then some 0 else if account = 0 ∨ 999999 < account then some 1
    else if delta < -16777215 ∨ 16777215 < delta then some 2 else none := by
  have bucket : (b ≤ 16383) ↔ ¬ 16383 < b := Nat.not_lt.symm
  have above : (1 ≤ account ∧ account ≤ 999999) ↔ ¬ (account = 0 ∨ 999999 < account) := by omega
  have within : (-16777215 ≤ delta ∧ delta ≤ 16777215) ↔ ¬ (delta < -16777215 ∨ 16777215 < delta) := by omega
  simp only [adjustBad, firstBad, ← Bool.decide_and, above, within, bucket, decide_eq_true_iff, ite_not]

theorem onAccount_load (held : HeldBy s b g) (st : (s.frame g).st = .empty ∨ (s.frame g).st = .fetching .load) :
    onAccount s b account carry = (s, .refused .notCached .none) := by
  have frame : cachedFrame s b = none := by
    simp only [cachedFrame, findBucket_some held]
    rcases st with st | st
    · simp [st]
    · simp [st]
  simp only [onAccount, frame]

theorem cachedFrame_some (held : HeldBy s b g) (used : (s.frame g).st ≠ .empty) (loaded : (s.frame g).st ≠ .fetching .load) : cachedFrame s b = some g := by
  simp only [cachedFrame, findBucket_some held]
  split
  · next st => exact absurd st used
  · next st => exact absurd st loaded
  · rfl
  · rfl
  · rfl

theorem onAccount_unknown (held : HeldBy s b g) (used : (s.frame g).st ≠ .empty) (loaded : (s.frame g).st ≠ .fetching .load)
    (no : ∀ i e, s.entryAt (g, i) = some e → e.account ≠ account) : onAccount s b account carry = (s, .refused .notFound .none) := by
  have slot : accountSlot (s.frame g) account = none := by
    refine find?_nowhere fun j => decide_eq_false fun same => ?_
    obtain ⟨d, there, own⟩ := Option.map_eq_some_iff.1 same
    exact no j d there own
  simp only [onAccount, cachedFrame_some held used loaded, slot]

/-! ### The allowance moved (R93) -/

theorem adjustEntry_unlimited (he : s.entryAt a = some e) (limit : e.allowance = none) : adjustEntry delta s a = (s, .done (.adjusted none 0)) := by
  have same : (s.modEntry a fun e => { e with allowance := adjustedAllowance e.allowance delta }) = s := by
    have none' : adjustedAllowance e.allowance delta = e.allowance := by
      rw [limit]
      rfl
    rw [modEntry_eq he, none', modEntry_same he]
  simp only [adjustEntry, same, evaluateAllowance_unlimited he limit, adjustDetail, he, limit]

/-- The part with the allowance of an entry moved, not yet evaluated. -/
def moved (a : FrameNo × EntryNo) (e : Entry) (n : Nat) (s : State) : State := entryNow a { e with allowance := some n } s.mtr s

theorem adjustEntry_limited {n : Nat} (he : s.entryAt a = some e) (limit : e.allowance = some n) : adjustEntry delta s a =
    (evaluateAllowance endCall (moved a e (min ((n : Int) + delta).toNat 16777214) s) a,
      .done (adjustDetail (evaluateAllowance endCall (moved a e (min ((n : Int) + delta).toNat 16777214) s) a) a)) := by
  have now : (s.modEntry a fun e => { e with allowance := adjustedAllowance e.allowance delta }) = moved a e (min ((n : Int) + delta).toNat 16777214) s := by
    rw [modEntry_eq he, limit]
    rfl
  simp only [adjustEntry, now]

theorem adjustDetail_limited {n : Nat} (he : s.entryAt a = some e) (limit : e.allowance = some n) :
    adjustDetail s a = .adjusted (some n) (remainingOf n e.charged) := by
  simp only [adjustDetail, he, limit]

theorem reaches_of_reached (h : Reached s l d a) (same : u.callOn l = s.callOn l) : evaluationReaches u a l = true :=
  (evaluationReaches_iff u a l).2 ⟨d, same.trans h.call_eq, h.reachable, h.attach_eq⟩

theorem apart_of_unreached (no : ∀ d, ¬ Reached s l d a) (same : u.callOn l = s.callOn l) : evaluationReaches u a l = false := by
  refine Bool.eq_false_iff.2 fun reached => ?_
  obtain ⟨d, on, reach, attach⟩ := (evaluationReaches_iff u a l).1 reached
  exact no d ⟨same.symm.trans on, attach, ((reachable_iff d).1 reach).2⟩

/-- The call that an evaluation told, its fields written out. -/
theorem toldCall_eq (s : State) (e : Entry) (r : Int) (d : Call) : toldCall s e r d = { d with
    meter := { d.meter with warned := if Warns s e r then true else d.meter.warned }
    pend := { d.pend with
      allowance := if Exhausts e r then some (leftOf d .allowance s.adm.classes[e.cls].allowanceGrace) else if Restores e r then none else d.pend.allowance }
    graceEntered := if Exhausts e r ∧ d.pend.allowance = none then true else d.graceEntered } := by
  unfold toldCall
  by_cases exhausts : Exhausts e r
  · have no : ¬ Restores e r := fun restores => Int.not_lt.2 exhausts.1 restores.1
    rw [freedIf, if_neg no, givenIf, if_pos exhausts, if_pos exhausts]
    cases before : d.pend.allowance with
    | none => simp [givenCause, leftOf, warnedIf, Pending.get, Pending.set, before, exhausts]
    | some n => simp [givenCause, leftOf, warnedIf, Pending.get, Pending.set, before]
  · have first : ¬ (Exhausts e r ∧ d.pend.allowance = none) := fun both => exhausts both.1
    rw [givenIf, if_neg exhausts, if_neg exhausts, if_neg first, freedIf]
    by_cases restores : Restores e r
    · rw [if_pos restores, if_pos restores]
      rfl
    · rw [if_neg restores, if_neg restores]
      rfl

/-- The part once ALLOWANCE ADJUST is answered, its allowance moved and evaluated. -/
def adjusted (s : State) (f : InFrame) (rest : List InFrame) (a : FrameNo × EntryNo) (e : Entry) (r : Int) (n : Nat) : State :=
  entryNow a (evaluated s { e with allowance := some n } r) (counted s e r) (afterReply s f rest (.done (.adjusted (some n) r)))

/-- The REPLY of the adjustment tells the allowance and what remains of it (R93). -/
theorem adjusted_replies {n : Nat} (he : s.entryAt a = some e) (r_eq : r = remainingOf n e.charged) (lines : Vector Line 48) (drops : Nat)
    (t_eq : t = heardBy (entryNow a (evaluated s { e with allowance := some n } r) (counted s e r) (afterReply s f rest .format)) lines drops) :
    setPriority t s.hli.prio.length (replyTo f (.done (adjustDetail t a))) = heardBy (adjusted s f rest a e r n) lines drops := by
  have entry : t.entryAt a = some (evaluated s { e with allowance := some n } r) := by
    rw [t_eq]
    exact entryNow_entryAt (s := afterReply s f rest .format) he _ (counted s e r)
  have replied := setPriority_afterReply s f rest .format (.done (.adjusted (some n) r))
  rw [adjustDetail_limited (n := n) entry rfl, show remainingOf n (evaluated s { e with allowance := some n } r).charged = r from r_eq.symm, t_eq, adjusted,
    ← replied]
  rfl

/-- Settles O44, by the fields, by whether the account is found, and by whether its calls end. -/
theorem allowanceAdjustMovesTheAllowance : Obligations.AllowanceAdjustMovesTheAllowance := by
  intro s f rest b account delta h cmd good
  have bad {k : Nat} (field : adjustBad b account delta = some k) : OnlyAnswers cmd s f rest (.refused .badValue (.index k)) :=
    congrArg Host.Outcome.next (takeReplied_bad h (by decide) (fun _ => adjustBad b account delta) (fun _ s => onAccount s b account (adjustEntry delta)) field)
  have fields : good → adjustBad b account delta = none := by
    rintro ⟨bucket, above, most, low, high⟩
    rw [adjustBad_eq, if_neg (by omega), if_neg (by omega), if_neg (by omega)]
  have answers {ans : Answer} (ok : good)
      (eq : onAccount (afterReply s f rest .format) b account (adjustEntry delta) = (afterReply s f rest .format, ans)) : OnlyAnswers cmd s f rest ans :=
    congrArg Host.Outcome.next (takeReplied_answers h (by decide) (fields ok) (carry := fun s => onAccount s b account (adjustEntry delta)) eq)
  refine ⟨fun past => bad ?badBucket, fun bucket past => bad ?badAccount, fun bucket above most past => bad ?badDelta, fun ok no => answers ok ?uncached,
    fun g ok held used loaded no => answers ok (onAccount_unknown ⟨held.holds, held.alone⟩ used loaded no), fun g i e ok found => ?found⟩
  case badBucket => rw [adjustBad_eq, if_pos past]
  case badAccount => rw [adjustBad_eq, if_neg (by omega), if_pos past]
  case badDelta => rw [adjustBad_eq, if_neg (by omega), if_neg (by omega), if_pos past]
  case uncached =>
    rcases no with no | ⟨g, held, st⟩
    · exact onAccount_uncached no
    · exact onAccount_load (g := g) ⟨held.holds, held.alone⟩ st
  case found =>
    have found' : FindsAccount (afterReply s f rest .format) b account g i e :=
      ⟨⟨found.holds, found.alone⟩, found.cached, found.entry, found.account_eq, found.only⟩
    refine ⟨fun limit => answers ok ((onAccount_found found').trans (adjustEntry_unlimited found.entry limit)), fun n limit => ?_⟩
    let u := afterReply s f rest .format
    let n' := min ((n : Int) + delta).toNat 16777214
    let e' := { e with allowance := some n' }
    let v := moved (g, i) e n' u
    let r := remainingOf n' e.charged
    have he : v.entryAt (g, i) = some e' := entryNow_entryAt (s := u) found.entry _ _
    have run := takeReplied_outcome h (by decide) (fields ok) (carry := fun s => onAccount s b account (adjustEntry delta))
      ((onAccount_found found').trans (adjustEntry_limited found.entry limit))
    have form : entryNow (g, i) (evaluated v e' r) (counted v e' r) v = entryNow (g, i) (evaluated s e' r) (counted s e r) u :=
      entryNow_again _ _ _ _ u u.lines u.soe.textDrops
    have final : { (afterReply s f rest (.done (.adjusted (some n') r))).modEntry (g, i) fun e => { e with
        allowance := some n', exhausted := decide (r ≤ 0), warnedAtLevel := decide (Low s e' r) } with mtr := counted s e r } = adjusted s f rest (g, i) e r n' :=
      markedEntry_eq (s := afterReply s f rest (.done (.adjusted (some n') r))) found.entry _ _
    refine ⟨fun no => ?alone, fun gracious => ?told, fun exhausts graceless still => ?ends⟩
    case alone =>
      have after : evaluateAllowance endCall v (g, i) = heardBy (entryNow (g, i) (evaluated s e' r) (counted s e r) u) u.lines u.soe.textDrops :=
        (evaluateAllowance_alone he rfl rfl fun l => apart_of_unreached (no l) rfl).trans form
      exact congrArg Host.Outcome.next (run.trans ((adjusted_replies found.entry rfl _ _ after).trans final.symm))
    case told =>
      have staged := evaluateAllowance_staged (endIt := endCall) he (n := n') (r := r) rfl rfl fun exhausts => gracious.resolve_left fun no => no exhausts
      obtain ⟨lines, drops, eq⟩ := staged.rest
      rw [form] at eq
      have same : (evaluateAllowance endCall v (g, i)).lines = lines := by rw [eq]; rfl
      refine ⟨_, congrArg Host.Outcome.next (run.trans (adjusted_replies found.entry rfl lines drops eq)), ?_, fun l => ⟨fun no => ?_, fun d reached => ?_⟩⟩
      · exact congrArg (fun t => heardBy t lines drops) final.symm
      · have line := (staged.lines l).apart (apart_of_unreached (no) rfl)
        rw [eq] at line
        exact line
      · intro left' texts room
        obtain ⟨d', line, told⟩ := (staged.lines l).own d reached.call_eq reached.reachable reached.attach_eq
        rw [eq] at line
        have all := told.heard room
        rw [toldCall_eq] at all
        exact line.trans (by rw [all]; rfl)
    case ends =>
      refine ⟨_, congrArg Host.Outcome.next run, fun l d reached running => ?_⟩
      have notDue : ¬ (d.phase = .connected ∧ 0 < d.meter.stepLen ∧ d.meter.stepLen ≤ d.meter.stepPos) := fun due =>
        absurd ((stepDue_iff reached.call_eq).2 due) (by rw [still l]; decide)
      have runs : RunsOrEnded d l v := .inl ⟨d, reached.call_eq, rfl, rfl, running, reached.reachable, notDue⟩
      have evaluated : evaluateAllowance endCall v (g, i) = exhaustionTest endCall (warningTest v (g, i) e' r) (g, i) e' r :=
        (evaluateAllowance_tests he rfl rfl).trans (restorationTest_still r (.inl exhausts.1))
      have classes : (warningTest v (g, i) e' r).adm = v.adm := (warningTest_staged he r).stands he |>.2.2.1
      have carries : CarriesCause (evaluateAllowance endCall v (g, i)) l d .allowance := by
        rw [evaluated]
        exact exhaustionTest_ends exhausts.1 exhausts.2 (by rw [classes]; exact graceless) reached.attach_eq (runs.warningTest e' r)
      exact carries.of_callOn_eq rfl

end Sys2Proof.Machine
end
